-- ==== Sys2Proof/Word.lean ====
section
/-!
DEFINITION. The words of the part: bytes, 32-bit register words, byte strings.
-/
namespace Sys2Proof

/-- One byte of a register, a structure or a memory. -/
abbrev Byte := BitVec 8

/-- One 32-bit register (R24 and the register tables of every chapter). -/
abbrev Word := BitVec 32

/-- A byte string: an entry, a message, a key, a digest. -/
abbrev Bytes := List Byte

/-- A gallery number, 0 to 255 (spec/04). -/
abbrev Gallery := BitVec 8

/-- A queue index of a gallery, 0 to 63 (R23). -/
abbrev QIndex := BitVec 6

/-- A Tieno core: 0 is the Reserve pair, 1 + n is Floor core n (R386). -/
abbrev CoreId := Fin 9

end Sys2Proof
end

