-- ==== Sys2Proof/Syntax.lean ====
section
/-!
DEFINITION. The commands: one constructor of `Instr` for each row of spec/opcode_table.json. A constructor's
operands are what arrives from outside the part with that step; everything else stands in the state.
-/
namespace Sys2Proof

/-- The two halves; also names a host port (Host A in Cope, Host B in Drag), a feed and an MRAM bank (R6, R9). -/
inductive Half where
  | cope | drag
  deriving DecidableEq, Repr

/-- The register that a REGISTER_WRITE names: a BAR0 offset of the function (R19, R22), or a field of the function's
PCIe configuration space: Bus Master Enable (bit 2), MSI-X Enable and Function Mask (bits 15 and 14), VF Enable (bit 0)
with NumVFs (bits 31:16), or an `HST_` register by its offset (R570). -/
inductive RegTarget where
  | bar0 (off : BitVec 21)
  | command
  | msixControl
  | sriov
  | hst (off : BitVec 12)
  deriving DecidableEq, Repr

/-- Fault classes in ascending severity (R469). -/
inductive FaultClass where
  | corrected | contained | fatal
  deriving DecidableEq, Repr

/-- What a read of the tick count takes (R54): 4 bytes at 0x0100, 4 bytes at 0x0104, 8 bytes at 0x0100. -/
inductive TickPart where
  | lo | hi | both
  deriving DecidableEq, Repr

/-- A read of the tick count through a port (R54). -/
structure TickRead where
  port : Half
  part : TickPart
  deriving DecidableEq, Repr

/-- The domains that have a counting mode (R473). -/
inductive Domain where
  | atrium | half (h : Half)
  deriving DecidableEq, Repr

/-- The host access that failed (R130): a read of an entry, input or key block, or an output write of a job. -/
inductive DmaTarget where
  | read (rid : Nat)
  | outputWrite (job : Nat)
  deriving DecidableEq, Repr

/-- Why a core enters its exception handler without an instruction row of its own (R440): a word that R426
makes illegal, a refused fetch, uncorrectable data on a fetch or on a data access. -/
inductive CoreCause where
  | illegal
  | fetchFault
  | fetchMemoryError
  | dataMemoryError (addr : Word)
  deriving DecidableEq, Repr

/-- What a T=1 block received from a card is (R323). -/
inductive CardBlock where
  | invalid
  | iBlock (ns : Bool) (more : Bool) (inf : Bytes)
  | rBlock (nr : Bool) (error : Bool)
  | wtxRequest (mult : Byte)
  | resynchResponse
  | ifsRequest (size : Byte)
  | ifsResponse (size : Byte)
  | abortRequest
  | abortResponse
  deriving DecidableEq, Repr

/-- An answer to reset as the part reads it (R319, R321): the bytes that its checks name. -/
structure Atr where
  tckOk : Bool := true
  offersT1 : Bool := true
  classB : Option Bool := none
  classC : Option Bool := none
  lrc : Bool := true
  ta1 : Option Byte := none
  specific : Bool := false
  ta3 : Byte := 32
  bwi : Byte := 4
  deriving DecidableEq, Repr

/-- What an SD card's initialisation reads (R341 to R343). -/
structure SdCard where
  cid : Bytes := []
  type : Fin 3 := 0
  s18a : Bool := false
  highSpeed : Bool := false
  blocks : Nat := 0
  tmpWp : Bool := false
  permWp : Bool := false
  switchWp : Bool := false
  /-- Its CSD, 16 bytes from bit 127 down, and its relative address. -/
  csd : Bytes := []
  rca : BitVec 16 := 0
  /-- It answers; every CRC7 and CRC16 of its answers is right; the voltage switch sequence completes. -/
  responds : Bool := true
  crcOk : Bool := true
  switchOk : Bool := true
  deriving DecidableEq, Repr

/-- The commands of the part, in the order of spec/opcode_table.json. -/
inductive Instr where
  -- register access and doorbells
  /-- A 4-byte write of `val` to a register of function `fn` through `port` (R3, R21). -/
  | registerWrite (port : Half) (fn : Gallery) (reg : RegTarget) (val : Word)
  /-- An access to an unassigned offset (R20). -/
  | unassignedAccess (port : Half) (fn : Gallery) (off : BitVec 21) (isWrite : Bool)
  /-- An access of `size` bytes that is not naturally aligned or not of 4 or 8 bytes (R21). -/
  | misalignedAccess (port : Half) (fn : Gallery) (off : BitVec 21) (size : Nat) (isWrite : Bool)
  | tickLoRead (r : TickRead)
  /-- GAL_SQ_PI of gallery `g`, queue index `q` written with `val` (R108). -/
  | sqDoorbellWrite (port : Half) (g : Gallery) (q : QIndex) (val : Word)
  | cqDoorbellWrite (port : Half) (g : Gallery) (q : QIndex) (val : Word)
  /-- GAL_AQ_CTRL of `g` written with `val`, ENABLE 1 (R111). -/
  | aqEnableWrite (port : Half) (g : Gallery) (val : Word)
  | aqEnableDecide (g : Gallery)
  | aqDisable (port : Half) (g : Gallery)
  | mbxOutRing (port : Half) (g : Gallery)
  | mbxCuratorAck (port : Half)
  | mbxInRing (port : Half)
  | mbxGalleryAck (port : Half) (g : Gallery)
  -- tick, look-ahead, lanes, release
  | tickBoundary
  | partingWindow
  | sharePeriodBoundary
  /-- The look-ahead unit of half `h` reads the next entry of gallery `g` (R120). -/
  | entryFetch (h : Half) (g : Gallery)
  /-- Read `rid` returns `data` at cycle `cycle` of the tick (R155). -/
  | hostReadReturn (rid : Nat) (cycle : Nat) (data : Bytes)
  /-- Preparation of job `job`; `fault` names a lane that signals a hardware fault (R164). -/
  | preparation (job : Nat) (fault : Option (Fin 80))
  /-- Execution of `job` in its booked slots; `checkOk` says whether the two computations agree (R147). -/
  | laneExecute (job : Nat) (checkOk : Bool)
  | outputCompletionIssue (g : Gallery) (cq : QIndex)
  | pairExecSend (job : Nat)
  | completionWritten (g : Gallery) (cq : QIndex)
  | jobDelivered (job : Nat)
  | moderationTimeExpiry (g : Gallery) (cq : QIndex)
  | cqWriteError (g : Gallery) (cq : QIndex)
  | hostDmaError (t : DmaTarget)
  | flushDeferredWrite (g : Gallery) (sq : QIndex)
  | halfEnterServing (h : Half)
  -- faults, start, power
  /-- Error pin `source` asserts at cycle `cycle` with its syndrome; `held` when it stays asserted (R470, R477). -/
  | faultEvent (source : BitVec 6) (native : FaultClass) (unit : Byte) (info : BitVec 16) (cycle : Nat) (held : Bool)
  | countingModeEnd (d : Domain)
  /-- FLT_STATUS_HI and _LO written with the mask (R477). -/
  | fltStatusClear (mask : BitVec 64)
  | tickCompareMismatch
  | coldStart
  /-- SYS_RESET_N low for `ns` nanoseconds so far (R586). -/
  | sysResetNAssert (ns : Nat)
  | sysResetNRelease
  | pwrResetCtlDevice (val : Word)
  | feedValid (feed : Half)
  | feedRiseTimeout (feed : Half)
  /-- Feed `feed` stops being valid; `lowRails` are the rails below their low limit (R572, R588). -/
  | feedLoss (feed : Half) (lowRails : BitVec 6)
  | atriumSwitchover
  | cellOnlyEntry
  | vcellLoss
  | perstAssert (port : Half)
  | perstRelease (port : Half)
  -- Reserve world, regions, gates, local cipher unit, debug port
  | wldHeartbeatWrite (core : CoreId) (val : Word)
  | watchdogExpiry
  | wldRestartRequest (core : CoreId)
  | lockstepDivergence
  | reserveSramDoubleBit (line : BitVec 16)
  /-- The restart ends; `measuredOk` is the compare of R73. -/
  | reserveResumed (measuredOk : Bool)
  /-- Register `reg` (0 BASE, 1 LIMIT, 2 PERM, 3 CTL) of region `ix` of controller `ctrl` (R391, R415). -/
  | regionRegisterWrite (core : CoreId) (ctrl : Byte) (ix : BitVec 5) (reg : BitVec 2) (val : Word)
  | regionSyncRead (core : CoreId) (ctrl : Byte)
  | regionParityFail (ctrl : Byte) (ix : BitVec 5)
  | gateRightsWrite (core : CoreId) (gate : Fin 11) (val : Word)
  | gatePowerClock (core : CoreId) (gate : Fin 11) (val : Word)
  | lcuAcquire (core : CoreId) (owner : Byte)
  | lcuRelease (core : CoreId)
  | lcuForce (core : CoreId)
  | lcuGo (core : CoreId)
  | lcuInit (core : CoreId)
  | lcuBlockDone
  | debugMemAddr (addr : Word)
  | debugMemDataCapture
  | debugMemDataUpdate (val : BitVec 33)
  -- the Tieno instruction set (R428 to R438); `c` is the executing core
  | add (c : CoreId) (rd rs1 rs2 : BitVec 5)
  | sub (c : CoreId) (rd rs1 rs2 : BitVec 5)
  | and (c : CoreId) (rd rs1 rs2 : BitVec 5)
  | or (c : CoreId) (rd rs1 rs2 : BitVec 5)
  | xor (c : CoreId) (rd rs1 rs2 : BitVec 5)
  | sll (c : CoreId) (rd rs1 rs2 : BitVec 5)
  | srl (c : CoreId) (rd rs1 rs2 : BitVec 5)
  | sra (c : CoreId) (rd rs1 rs2 : BitVec 5)
  | slt (c : CoreId) (rd rs1 rs2 : BitVec 5)
  | sltu (c : CoreId) (rd rs1 rs2 : BitVec 5)
  | mul (c : CoreId) (rd rs1 rs2 : BitVec 5)
  | mulh (c : CoreId) (rd rs1 rs2 : BitVec 5)
  | mulhu (c : CoreId) (rd rs1 rs2 : BitVec 5)
  | divu (c : CoreId) (rd rs1 rs2 : BitVec 5)
  | remu (c : CoreId) (rd rs1 rs2 : BitVec 5)
  | cmovz (c : CoreId) (rd rs1 rs2 : BitVec 5)
  | cmovnz (c : CoreId) (rd rs1 rs2 : BitVec 5)
  | addi (c : CoreId) (rd rs1 : BitVec 5) (imm : BitVec 16)
  | andi (c : CoreId) (rd rs1 : BitVec 5) (imm : BitVec 16)
  | ori (c : CoreId) (rd rs1 : BitVec 5) (imm : BitVec 16)
  | xori (c : CoreId) (rd rs1 : BitVec 5) (imm : BitVec 16)
  | slti (c : CoreId) (rd rs1 : BitVec 5) (imm : BitVec 16)
  | sltiu (c : CoreId) (rd rs1 : BitVec 5) (imm : BitVec 16)
  | lui (c : CoreId) (rd rs1 : BitVec 5) (imm : BitVec 16)
  | slli (c : CoreId) (rd rs1 : BitVec 5) (imm : BitVec 16)
  | srli (c : CoreId) (rd rs1 : BitVec 5) (imm : BitVec 16)
  | srai (c : CoreId) (rd rs1 : BitVec 5) (imm : BitVec 16)
  | lb (c : CoreId) (rt base : BitVec 5) (bank : BitVec 3) (off : BitVec 13)
  | lh (c : CoreId) (rt base : BitVec 5) (bank : BitVec 3) (off : BitVec 13)
  | lw (c : CoreId) (rt base : BitVec 5) (bank : BitVec 3) (off : BitVec 13)
  | lbu (c : CoreId) (rt base : BitVec 5) (bank : BitVec 3) (off : BitVec 13)
  | lhu (c : CoreId) (rt base : BitVec 5) (bank : BitVec 3) (off : BitVec 13)
  | sb (c : CoreId) (rt base : BitVec 5) (bank : BitVec 3) (off : BitVec 13)
  | sh (c : CoreId) (rt base : BitVec 5) (bank : BitVec 3) (off : BitVec 13)
  | sw (c : CoreId) (rt base : BitVec 5) (bank : BitVec 3) (off : BitVec 13)
  | beq (c : CoreId) (rs1 rs2 : BitVec 5) (disp : BitVec 16)
  | bne (c : CoreId) (rs1 rs2 : BitVec 5) (disp : BitVec 16)
  | blt (c : CoreId) (rs1 rs2 : BitVec 5) (disp : BitVec 16)
  | bge (c : CoreId) (rs1 rs2 : BitVec 5) (disp : BitVec 16)
  | bltu (c : CoreId) (rs1 rs2 : BitVec 5) (disp : BitVec 16)
  | bgeu (c : CoreId) (rs1 rs2 : BitVec 5) (disp : BitVec 16)
  | beqi (c : CoreId) (rs1 : BitVec 5) (imm : Byte) (disp : BitVec 13)
  | bnei (c : CoreId) (rs1 : BitVec 5) (imm : Byte) (disp : BitVec 13)
  | blti (c : CoreId) (rs1 : BitVec 5) (imm : Byte) (disp : BitVec 13)
  | bgei (c : CoreId) (rs1 : BitVec 5) (imm : Byte) (disp : BitVec 13)
  | bltui (c : CoreId) (rs1 : BitVec 5) (imm : Byte) (disp : BitVec 13)
  | bgeui (c : CoreId) (rs1 : BitVec 5) (imm : Byte) (disp : BitVec 13)
  | dbnz (c : CoreId) (rs rz : BitVec 5) (disp : BitVec 16)
  | jal (c : CoreId) (rd rz : BitVec 5) (disp : BitVec 16)
  | jalr (c : CoreId) (rd rs1 : BitVec 5) (imm : BitVec 16)
  | csrr (c : CoreId) (rd rs1 : BitVec 5) (csr : BitVec 12)
  | csrw (c : CoreId) (rd rs1 : BitVec 5) (csr : BitVec 12)
  | csrs (c : CoreId) (rd rs1 : BitVec 5) (csr : BitVec 12)
  | csrc (c : CoreId) (rd rs1 : BitVec 5) (csr : BitVec 12)
  | sys (c : CoreId) (rd rs1 : BitVec 5) (sel : BitVec 12)
  | ret (c : CoreId) (rd rs1 : BitVec 5) (sel : BitVec 12)
  | fence (c : CoreId) (rd rs1 : BitVec 5) (sel : BitVec 12)
  | wft (c : CoreId) (rd rs1 : BitVec 5) (sel : BitVec 12)
  | mtbk (c : CoreId) (rd rs1 : BitVec 5) (sel : BitVec 12)
  | mfbk (c : CoreId) (rd rs1 : BitVec 5) (sel : BitVec 12)
  | exceptionEntry (c : CoreId) (cause : CoreCause)
  | interruptEntry (c : CoreId)
  -- handoff, entropy, background, monitors, recorder
  /-- The next result record of gallery `g`'s program in half `h` (R408). -/
  | handoffResult (h : Half) (g : Gallery)
  | handoffDeadline (job : Nat)
  | programTurnExpiry (c : CoreId)
  | sourceWindowEnd (src : Fin 16)
  /-- The conditioner of half `h` takes a block of its next HEALTHY source (R457). -/
  | conditionedValue (h : Half)
  | drbgInstantiate (i : Fin 4)
  | drbgReseed (i : Fin 4)
  | entropyWaitExpiry (job : Nat)
  | rngSwRead (c : CoreId)
  | rngRawRead
  | mramScrubStep (bank : Half)
  /-- One 64-byte move of wear levelling in a region of a bank (R48). -/
  | wearLevelStep (bank : Half) (region : Byte)
  | resealStep
  | quenchOverwriteStep
  | vekDraw
  | staleCatchupStep (bank : Half)
  | maskSeedRefresh
  | cellRemask
  | galleryOverwriteDone (g : Gallery)
  | cupolaStart (h : Half)
  /-- End of intake on unit `u`. -/
  | cupolaIntakeVerdict (u : Fin 18)
  | cupolaResultCompare (u : Fin 18) (agree : Bool) (atInfinity : Bool)
  | assayEnd (h : Half) (passed : Bool)
  /-- Monitor `m` trips (R492); `detail` is the DETAIL of R505. -/
  | monitorEvent (m : Byte) (detail : BitVec 16) (logicFault : Bool)
  | operatingMinute
  | recorderCheckpoint
  | liveRefresh
  /-- An operating second with the highest readings of the temperature monitors of the halves and of those of the Atrium in it (R517). -/
  | operatingSecond (halves atrium : Int)
  -- custodian cards, ceremonies, archive media
  | cardDetect (port : Fin 16)
  | cardPowerTimeout (port : Fin 16)
  | cardAtr (port : Fin 16) (atr : Atr)
  /-- The card's PPS answer: the echoed PPS1, or none when it does not echo the request (R322). -/
  | cardPpsResponse (port : Fin 16) (echoed : Bool)
  | cardBlockReceived (port : Fin 16) (block : CardBlock)
  | cardWaitTimeExpiry (port : Fin 16)
  | cardRemoved (port : Fin 16)
  /-- A complete response APDU: its data and status word (R325). -/
  | cardApduResponse (port : Fin 16) (data : Bytes) (sw : BitVec 16)
  | holderRecheck (port : Fin 16)
  | shareGiven (port : Fin 16)
  | ceremonyWindowExpiry (c : Fin 8)
  | arcCardDetect (port : Fin 4) (card : SdCard)
  | arcRecordWritten
  | arcBusyTimeout
  | arcCardRemoved (port : Fin 4)
  -- Span fabric and chain
  | linkTrained (l : BitVec 7)
  /-- A flit after FEC correction (R526): `crcOk` its CRC, the 232 bytes 0x00 to 0xE7. -/
  | flitReceived (l : BitVec 7) (flit : Bytes) (crcOk : Bool)
  | replayTimeout (l : BitVec 7)
  | keyRatchet (l : BitVec 7) (outbound : Bool)
  | hello1 (l : BitVec 7) (msg : Bytes)
  | hello2 (l : BitVec 7) (sig : Bytes)
  /-- Span messages: the 16-byte header followed by the body (R537). -/
  | replica (msg : Bytes)
  | replicaAck (msg : Bytes)
  | pairExec (msg : Bytes)
  | pairResult (msg : Bytes)
  | spanHeartbeat (msg : Bytes)
  | provRequest (msg : Bytes)
  | provReply (msg : Bytes)
  | pairHello (msg : Bytes)
  | echoMessage (msg : Bytes)
  | pairHelloTimer (g : Gallery)
  | heartbeatTimer (g : Gallery)
  | pairUnreachableTimeout (g : Gallery)
  | replicaSend (g : Gallery)
  | replicaResendTimeout (g : Gallery) (slot : BitVec 16)
  | pairExecTimeout (job : Nat)
  | peerProvenanceTimeout (g : Gallery) (sq : QIndex)
  | rollQuery (epoch : BitVec 16) (fromSelf : Bool)
  | rollAssign (epoch addr : BitVec 16) (fromSelf : Bool)
  | rollDone (epoch count : BitVec 16) (fromSelf : Bool)
  | rollPassTimeout
  -- host ports
  /-- The port leaves DL_Active (`ideStream` none) or a required IDE stream leaves Secure (R565). -/
  | portLoss (port : Half) (ideStream : Option (Fin 5))
  /-- The link reaches DL_Active, or becomes usable again (R563, R564). -/
  | portUsable (port : Half) (rate : BitVec 3) (width : BitVec 5) (flit : Bool)
  | functionLevelReset (port : Half) (fn : Gallery)
  | flrComplete (port : Half) (fn : Gallery)
  /-- VF Enable cleared, or NumVFs lowered to `numVfs` (R82). -/
  | vfDisable (port : Half) (numVfs : Byte)
  | hstVecWrite (port : Half) (val : Word)
  | ideCheckFail (port : Half) (stream : Fin 5)
  | doeDiscovery (port : Half) (index : Byte)
  -- SPDM requests: the request bytes after the SPDM header
  | getVersion (port : Half)
  | getCapabilities (port : Half) (req : Bytes)
  | negotiateAlgorithms (port : Half) (req : Bytes)
  | getDigests (port : Half)
  | getCertificate (port : Half) (slot : Byte) (offset length : Nat)
  | challenge (port : Half) (slot : Byte) (nonce : Bytes)
  | getMeasurements (port : Half) (index : Byte) (sign : Bool) (nonce : Bytes)
  | keyExchange (port : Half) (req : Bytes)
  | finish (port : Half) (session : Byte) (verifyData : Bytes)
  | keyUpdate (port : Half) (session : Byte) (op : Byte)
  | spdmHeartbeat (port : Half) (session : Byte)
  | endSession (port : Half) (session : Byte)
  /-- IDE_KM carried in a session: set stream `stream` Secure with `key`, or stop it (none). -/
  | vendorDefinedRequest (port : Half) (session : Byte) (stream : Fin 5) (key : Option Bytes)
  | spdmUnsupportedRequest (port : Half) (code : Byte)
  -- recovery
  | recoveryGo (port : Half)
  /-- The recovery read ends with the Mould's bytes, or fails (R68). -/
  | recoveryReadDone (mould : Option Bytes)
  -- admin commands: gallery and admin submission queue of the confirmed entry, then what its host reads return
  | unassignedOpcode (g : Gallery) (sq : QIndex)
  | queueCreateCq (g : Gallery) (sq : QIndex)
  | queueCreateSq (g : Gallery) (sq : QIndex)
  | queueDestroySq (g : Gallery) (sq : QIndex)
  | queueDestroyCq (g : Gallery) (sq : QIndex)
  | queueReset (g : Gallery) (sq : QIndex)
  | queueSetModeration (g : Gallery) (sq : QIndex)
  | queueAbort (g : Gallery) (sq : QIndex)
  | galleryCreate (g : Gallery) (sq : QIndex)
  | galleryDestroy (g : Gallery) (sq : QIndex)
  | gallerySetShare (g : Gallery) (sq : QIndex)
  | gallerySetLimits (g : Gallery) (sq : QIndex)
  | gallerySetFlags (g : Gallery) (sq : QIndex)
  | galleryBindAuthority (g : Gallery) (sq : QIndex) (key : Option Bytes)
  | galleryQuery (g : Gallery) (sq : QIndex) (writeOk : Bool)
  | galleryPoolQuery (g : Gallery) (sq : QIndex) (writeOk : Bool)
  | slotAssign (g : Gallery) (sq : QIndex)
  | slotRelease (g : Gallery) (sq : QIndex)
  | slotUpdate (g : Gallery) (sq : QIndex) (msg : Option Bytes) (key : Option Bytes)
  | slotDestroy (g : Gallery) (sq : QIndex)
  | slotQuery (g : Gallery) (sq : QIndex) (writeOk : Bool)
  | slotCounter (g : Gallery) (sq : QIndex)
  | slotTransportKeys (g : Gallery) (sq : QIndex) (writeOk : Bool)
  | slotReseal (g : Gallery) (sq : QIndex)
  | ceremonyOpen (g : Gallery) (sq : QIndex)
  | ceremonyWait (g : Gallery) (sq : QIndex)
  | ceremonyClose (g : Gallery) (sq : QIndex)
  | custodianSetCreate (g : Gallery) (sq : QIndex) (point : Option Bytes)
  | custodianSetAdopt (g : Gallery) (sq : QIndex) (point : Option Bytes)
  | archiveWrite (g : Gallery) (sq : QIndex)
  /-- `headerOk`, `trailerOk`: the CRCs of the header and trailer read from the card (R352). -/
  | archiveSeal (g : Gallery) (sq : QIndex) (headerOk trailerOk : Bool)
  /-- `blocks`: the 512-byte blocks that the reader reads from the card (R353). -/
  | archiveRestore (g : Gallery) (sq : QIndex) (blocks : List Bytes)
  | lifecycleMove (g : Gallery) (sq : QIndex)
  | inspectionConsent (g : Gallery) (sq : QIndex) (unlock : Option Bytes)
  | provenanceGet (g : Gallery) (sq : QIndex) (writeOk : Bool)
  /-- `chain`: the certificates that the host read returns (R381), none at a host error. -/
  | identityInstall (g : Gallery) (sq : QIndex) (chain : Option Bytes)
  | identityGet (g : Gallery) (sq : QIndex) (writeOk : Bool)
  | spanSetTopology (g : Gallery) (sq : QIndex) (table : Option Bytes)
  | spanSetRoutes (g : Gallery) (sq : QIndex) (table : Option Bytes)
  | spanRollCall (g : Gallery) (sq : QIndex)
  | spanPairSet (g : Gallery) (sq : QIndex) (identity : Option Bytes)
  | spanPairClear (g : Gallery) (sq : QIndex)
  | spanPairResync (g : Gallery) (sq : QIndex)
  | spanLinkReset (g : Gallery) (sq : QIndex)
  | spanPeerProvenance (g : Gallery) (sq : QIndex)
  | spanEcho (g : Gallery) (sq : QIndex)
  | extLoad (g : Gallery) (sq : QIndex) (image : Option Bytes) (key : Option Bytes)
  | extUnload (g : Gallery) (sq : QIndex)
  | extStatus (g : Gallery) (sq : QIndex) (writeOk : Bool)
  | extStop (g : Gallery) (sq : QIndex)
  | faultQuery (g : Gallery) (sq : QIndex) (writeOk : Bool)
  | faultClear (g : Gallery) (sq : QIndex)
  | faultSetPolicy (g : Gallery) (sq : QIndex)
  | assayRequest (g : Gallery) (sq : QIndex)
  | halfReset (g : Gallery) (sq : QIndex)
  | loopback (g : Gallery) (sq : QIndex)
  | tamperQuery (g : Gallery) (sq : QIndex) (writeOk : Bool)
  | tamperSetPolicy (g : Gallery) (sq : QIndex)
  | tamperStimulate (g : Gallery) (sq : QIndex) (detected : Bool)
  | tamperLogRead (g : Gallery) (sq : QIndex) (writeOk : Bool)
  /-- `failing`: the monitors that do not detect their stimulation (R500). -/
  | tamperSelftest (g : Gallery) (sq : QIndex) (failing : List Byte)
  | recExport (g : Gallery) (sq : QIndex) (writeOk : Bool)
  | recLive (g : Gallery) (sq : QIndex) (writeOk : Bool)
  | mouldStage (g : Gallery) (sq : QIndex) (mould : Option Bytes)
  | mouldPourHalf (g : Gallery) (sq : QIndex)
  | mouldPourAtrium (g : Gallery) (sq : QIndex)
  | mouldCommit (g : Gallery) (sq : QIndex)
  | mouldQuery (g : Gallery) (sq : QIndex) (writeOk : Bool)
  | mouldBindOwner (g : Gallery) (sq : QIndex) (owner : Option Bytes)
  | mouldDiscard (g : Gallery) (sq : QIndex)
  | rngSourceRaw (g : Gallery) (sq : QIndex)
  | rngDeviceRaw (g : Gallery) (sq : QIndex)
  | rngReadmit (g : Gallery) (sq : QIndex)
  | rngReseed (g : Gallery) (sq : QIndex)
  -- Patterns: the job whose current step the Pattern computes
  | echo (job : Nat)
  | null (job : Nat)
  | tickStamp (job : Nat)
  /-- `unitsOk`: bit k set when function unit k passes the known-answer sequence. -/
  | laneCheck (job : Nat) (unitsOk : Byte)
  | pinXlate (job : Nat)
  | pinXlateAes (job : Nat)
  | pinVerifyOffset (job : Nat)
  | pinOffsetCalc (job : Nat)
  | pinGenerate (job : Nat)
  | macAlg1 (job : Nat)
  | macAlg3 (job : Nat)
  | macCmac (job : Nat)
  | macAlg1Long (job : Nat)
  | macAlg3Long (job : Nat)
  | macCmacLong (job : Nat)
  | cardValue (job : Nat)
  | cardValueDyn (job : Nat)
  | arqcVerify (job : Nat)
  | scriptMac (job : Nat)
  | scriptEnc (job : Nat)
  | scriptPin (job : Nat)
  | dukptAesPinXlate (job : Nat)
  | dukptAesMac (job : Nat)
  | dukptAesData (job : Nat)
  | dukptTdesPinXlate (job : Nat)
  | dukptTdesMac (job : Nat)
  | kbExport (job : Nat)
  | kbGenerate (job : Nat)
  | kbInspect (job : Nat)
  | tr34Envelope (job : Nat)
  | kwExport (job : Nat)
  | kwImport (job : Nat)
  | aesCbc (job : Nat)
  | aesCbcLong (job : Nat)
  | aesCtr (job : Nat)
  | aesCtrLong (job : Nat)
  | aesXts (job : Nat)
  | aesXtsLong (job : Nat)
  | aesGcm (job : Nat)
  | aesGcmLong (job : Nat)
  | aesCcm (job : Nat)
  | aesCcmLong (job : Nat)
  | tdesEcb (job : Nat)
  | tdesEcbLong (job : Nat)
  | tdesCbc (job : Nat)
  | tdesCbcLong (job : Nat)
  | ff1 (job : Nat)
  | ff1Long (job : Nat)
  | hash (job : Nat)
  | hashLong (job : Nat)
  | hmac (job : Nat)
  | hmacLong (job : Nat)
  | kdf108 (job : Nat)
  | kdfX963 (job : Nat)
  | ecSign (job : Nat)
  | ecVerify (job : Nat)
  | ecKeygen (job : Nat)
  | ecdhDerive (job : Nat)
  | rsaPrivate (job : Nat)
  | rsaPublic (job : Nat)
  | rsaKeygen (job : Nat)
  | mldsaSign (job : Nat)
  | mldsaVerify (job : Nat)
  | mldsaKeygen (job : Nat)
  | mlkemEncaps (job : Nat)
  | mlkemDecaps (job : Nat)
  | mlkemKeygen (job : Nat)
  | handoffPattern (job : Nat) (checkOk : Bool)
  -- later rows of the table
  | rawBit (src : Fin 16) (bit : Bool)
  | cardAtrTimeout (port : Fin 16)
  | vcardIoOutOfRange
  | vcardIoInRange
  /-- The loop-back test ends: units returned unchanged and the index of the first unit that differs (R484). -/
  | loopbackEnd (kind index : Byte) (returned : Word) (firstDiffer : Option Word)
  | setCreateWindowExpiry
  | chainFrameDiscard
  deriving DecidableEq, Repr

end Sys2Proof
end

