-- ==== Sys2Proof/Config.lean ====
section
/-!
DEFINITION. What the spec does not fix: free values, values of the mask ROM, and the cryptographic primitives that the
spec names by their standards only. Each is opaque: no proof can see a value of it (log entries 5, 7 and 12).
-/
namespace Sys2Proof.Config

/-- Byte `i` of the `n`-th free value (entry 5): noise, DRBG draws, nonces, every value that the spec leaves open. -/
opaque freeByte (n i : Nat) : Byte

/-- Boot ROM version (R24) and contents (R387), by byte address. -/
opaque romMajor : Byte
opaque romMinor : Byte
opaque romByte (addr : Nat) : Byte

/-- Wornex keys held in boot ROM (R62, R381). -/
opaque vendorEcdsa : Bytes
opaque vendorMldsa : Bytes
opaque identityKey : Bytes

/-- AES and DES on one block: key, block (FIPS 197, FIPS 46-3). -/
opaque aesEnc (key blk : Bytes) : Bytes
opaque aesDec (key blk : Bytes) : Bytes
opaque desEnc (key blk : Bytes) : Bytes
opaque desDec (key blk : Bytes) : Bytes

/-- Hash by its code of R246. -/
opaque hash (code : Nat) (msg : Bytes) : Bytes

/-- Elliptic curves by set (1 P-256, 2 P-384, 3 P-521): public point of a scalar, point on curve, x-coordinate of the
shared point, ECDSA with the nonce k (none when r or s is zero), verification. -/
opaque ecPoint (set : Nat) (d : Bytes) : Bytes
opaque ecOnCurve (set : Nat) (q : Bytes) : Bool
opaque ecdhX (set : Nat) (d q : Bytes) : Bytes
opaque ecdsaSign (set : Nat) (d digest k : Bytes) : Option (Bytes × Bytes)
opaque ecdsaVerify (set : Nat) (q digest r s : Bytes) : Bool

/-- ML-DSA-87 (FIPS 204): key pair from a seed, signature of the message representative with rnd at the given number
of attempts, decoding and verification; attempts needed. -/
opaque mldsaPub (seed : Bytes) : Bytes
opaque mldsaSign (seed ctx msg : Bytes) (ext : Bool) (rnd : Bytes) : Bytes
opaque mldsaAttempts (seed ctx msg : Bytes) (ext : Bool) (rnd : Bytes) : Nat
opaque mldsaDecodes (sig : Bytes) : Bool
opaque mldsaVerify (pub ctx msg sig : Bytes) (ext : Bool) : Bool

/-- ML-KEM-1024 (FIPS 203). -/
opaque mlkemPub (seeds : Bytes) : Bytes
opaque mlkemModulusOk (ek : Bytes) : Bool
opaque mlkemEncaps (ek rnd : Bytes) : Bytes × Bytes
opaque mlkemDecaps (seeds ct : Bytes) : Bytes

/-- RSA key pair of FIPS 186-5 A.1.3 from draws: p, q; and the ticks its search takes (R253). -/
opaque rsaPrimes (bits : Nat) (draw : Bytes) : Nat × Nat
opaque rsaTicks (bits : Nat) (draw : Bytes) : Nat

/-- Salt length of EMSA-PSS signatures by hash code; the spec gives none (entry 5). -/
opaque pssSaltLen (hash : Nat) : Nat

/-- The tag of a key-cache line under the tag key of a Pour (R166). -/
opaque cacheTag (pour : Nat) (name : Bytes) : BitVec 128

/-- Bit `n` of the sequence that the part drives into enclosure loop `m` from a seed; the spec gives no generator (R605). -/
opaque loopBit (seed m n : Nat) : Bool

/-- Mask byte `i` that the cell-only generator gives at its `n`-th step from a seed (R283). -/
opaque cellGen (seed : Bytes) (n i : Nat) : Byte

/-- An X.509 chain (R381): the leaf's public point and whether each certificate verifies under the next and the last
under the Wornex identity key. -/
opaque x509Leaf (chain : Bytes) : Option Bytes
opaque x509Verifies (chain identity : Bytes) : Bool
opaque x509RootDigest (chain : Bytes) : Bytes

/-- Exponent, transfer size and message size of the SPDM CAPABILITIES answer; the spec gives none (R379). -/
opaque spdmSizes : Bytes

/-- Which queue, message, cache line, staging block or slot a line of a memory array holds: the spec gives no layout of
the arrays and no position in a syndrome (R469, R472). -/
opaque arrayLine (source info : Nat) : Nat

/-- Parity of the two RS(128,120) codewords of a Span flit; the spec gives no generator polynomial (R523). -/
opaque flitFec (b : Bytes) : Bytes

end Sys2Proof.Config
end

