-- ==== Sys2Proof/Machine/Tab.lean ====
section
/-!
DEFINITION. Containers of the state: `Two` (one value for each half, port, feed or bank) and `Tab` (values by number,
in one canonical form: rising keys, no entry equal to the default).
-/
namespace Sys2Proof.Machine

/-- One value for Cope (or Host A, Feed A, bank A) and one for Drag (or Host B, Feed B, bank B). -/
structure Two (α : Type) where
  cope : α
  drag : α
  deriving DecidableEq, Repr

def Two.both {α : Type} (a : α) : Two α := ⟨a, a⟩

def Two.get {α : Type} (t : Two α) : Half → α
  | .cope => t.cope
  | .drag => t.drag

def Two.set {α : Type} (t : Two α) (h : Half) (a : α) : Two α :=
  match h with
  | .cope => { t with cope := a }
  | .drag => { t with drag := a }

def Two.upd {α : Type} (t : Two α) (h : Half) (f : α → α) : Two α := t.set h (f (t.get h))

def Two.map {α β : Type} (f : α → β) (t : Two α) : Two β := ⟨f t.cope, f t.drag⟩

/-- The other half. -/
def other : Half → Half
  | .cope => .drag
  | .drag => .cope

/-- 0 for Cope or Host A, 1 for Drag or Host B (the encoding of every PORT and half field). -/
def halfNo : Half → Nat
  | .cope => 0
  | .drag => 1

def halfOf (n : Nat) : Half := if n % 2 = 0 then .cope else .drag

/-- Values by number; an unlisted number holds the default that the reader names. -/
abbrev Tab (α : Type) := List (Nat × α)

def Tab.get {α : Type} (d : α) : Tab α → Nat → α
  | [], _ => d
  | (j, a) :: t, k => if j = k then a else Tab.get d t k

/-- Insertion before the first greater key. -/
def Tab.insert {α : Type} : Tab α → Nat → α → Tab α
  | [], k, a => [(k, a)]
  | (j, b) :: t, k, a => if k < j then (k, a) :: (j, b) :: t else (j, b) :: Tab.insert t k a

/-- Write keeping the keys rising; an entry that equals the default is not listed. -/
def Tab.put {α : Type} [DecidableEq α] (d : α) (t : Tab α) (k : Nat) (a : α) : Tab α :=
  let t := t.filter fun e => e.1 ≠ k
  if a = d then t else Tab.insert t k a

def Tab.upd {α : Type} [DecidableEq α] (d : α) (t : Tab α) (k : Nat) (f : α → α) : Tab α :=
  t.put d k (f (t.get d k))

/-- Apply `f` to every listed value. -/
def Tab.mapAll {α : Type} [DecidableEq α] (d : α) (f : Nat → α → α) : Tab α → Tab α
  | [] => []
  | (k, a) :: t => if f k a = d then Tab.mapAll d f t else (k, f k a) :: Tab.mapAll d f t

/-- Every key of the table lies above `lo`, keys rise, and no entry equals the default. -/
def Tab.wfFrom {α : Type} [DecidableEq α] (d : α) : Nat → Tab α → Bool
  | _, [] => true
  | lo, (k, a) :: t => decide (lo ≤ k) && decide (a ≠ d) && Tab.wfFrom d (k + 1) t

/-- The canonical form of a table. -/
def Tab.wf {α : Type} [DecidableEq α] (d : α) (t : Tab α) : Bool := Tab.wfFrom d 0 t

/-- Element `i` of a list, or `d`. -/
def nth {α : Type} (d : α) : List α → Nat → α
  | [], _ => d
  | a :: _, 0 => a
  | _ :: t, n + 1 => nth d t n

/-- The list with element `i` replaced (unchanged past its end). -/
def setNth {α : Type} : List α → Nat → α → List α
  | [], _, _ => []
  | _ :: t, 0, b => b :: t
  | a :: t, n + 1, b => a :: setNth t n b

def updNth {α : Type} : List α → Nat → (α → α) → List α
  | [], _, _ => []
  | a :: t, 0, f => f a :: t
  | a :: t, n + 1, f => a :: updNth t n f

/-- Insertion into a list sorted by `le`. -/
def insertBy {α : Type} (le : α → α → Bool) (a : α) : List α → List α
  | [] => [a]
  | b :: t => if le a b then a :: b :: t else b :: insertBy le a t

def sortBy {α : Type} (le : α → α → Bool) (l : List α) : List α := l.foldr (insertBy le) []

/-- `[f 0, ..., f (n-1)]`. -/
def tabulate {α : Type} (n : Nat) (f : Nat → α) : List α := (List.range n).map f

def sumNat (l : List Nat) : Nat := l.foldl (· + ·) 0

/-- A count that stops at its field's greatest value. -/
def satInc (max n : Nat) : Nat := if n < max then n + 1 else max

end Sys2Proof.Machine
end

