-- ==== Sys2Proof/Machine/Bits.lean ====
section
/-!
DEFINITION. Bit fields, byte order and byte strings (R2): little-endian for registers and structures, big-endian for
cryptographic values.
-/
namespace Sys2Proof.Machine

/-- Bits `hi:lo` of a register word as a number. -/
def fld (w : Word) (hi lo : Nat) : Nat := (w.toNat / 2 ^ lo) % 2 ^ (hi + 1 - lo)

def bit (w : Word) (i : Nat) : Bool := w.getLsbD i

def b2n (b : Bool) : Nat := if b then 1 else 0

/-- A register word from fields (value, low bit). -/
def word (fs : List (Nat × Nat)) : Word := BitVec.ofNat 32 (fs.foldl (fun a f => a + f.1 * 2 ^ f.2) 0)

/-- Little-endian bytes of a number (R2). -/
def le : Nat → Nat → Bytes
  | 0, _ => []
  | n + 1, v => BitVec.ofNat 8 v :: le n (v / 256)

/-- Big-endian bytes of a number (R2). -/
def be (n v : Nat) : Bytes := (le n v).reverse

def fromLe : Bytes → Nat
  | [] => 0
  | b :: t => b.toNat + 256 * fromLe t

def fromBe (b : Bytes) : Nat := fromLe b.reverse

/-- `n` bytes from offset `o`; bytes past the end read as zero. -/
def slice (b : Bytes) (o n : Nat) : Bytes := tabulate n fun i => nth 0 b (o + i)

def leAt (b : Bytes) (o n : Nat) : Nat := fromLe (slice b o n)

def beAt (b : Bytes) (o n : Nat) : Nat := fromBe (slice b o n)

def byteAt (b : Bytes) (o : Nat) : Nat := (nth 0 b o).toNat

def zeros (n : Nat) : Bytes := List.replicate n 0

def allZero (b : Bytes) : Bool := b.all (· == 0)

/-- Exactly `n` bytes: cut, or padded with zeros on the right. -/
def padTo (n : Nat) (b : Bytes) : Bytes := (b ++ zeros n).take n

/-- The bytes `b` written over those of `d` from offset `o` on. -/
def splice (d : Bytes) (o : Nat) (b : Bytes) : Bytes := d.take o ++ b ++ d.drop (o + b.length)

/-- Bitwise XOR of two byte strings, as long as the first. -/
def xorBytes : Bytes → Bytes → Bytes
  | [], _ => []
  | a :: s, [] => a :: s
  | a :: s, b :: t => (a ^^^ b) :: xorBytes s t

def orBytes : Bytes → Bytes → Bytes
  | [], t => t
  | a :: s, [] => a :: s
  | a :: s, b :: t => (a ||| b) :: orBytes s t

def setBit (v : BitVec n) (i : Nat) (b : Bool) : BitVec n :=
  if b then v ||| BitVec.ofNat n (2 ^ i) else v &&& ~~~(BitVec.ofNat n (2 ^ i))

/-- Bit `i` of a number. -/
def nbit (v i : Nat) : Bool := v.testBit i

def ascii (s : String) : Bytes := s.toList.map fun c => BitVec.ofNat 8 c.toNat

end Sys2Proof.Machine
end

