-- ==== Sys2Proof/Machine/State.lean ====
section
/-!
DEFINITION. The state of the part as plain data, all that the spec names, and `State.reset`. A field's docstring names
the rule that gives it.
-/
namespace Sys2Proof.Machine

/-- Faults of the model. No rule leaves a command without an effect, so none is raised; the type is closed and empty. -/
inductive Fault where
  deriving DecidableEq, Repr

/-- Refusals of the model. -/
inductive Refusal where
  /-- Raised by an arm of `exec` whose command has no meaning yet; safe, the run stops. -/
  | notModelled (mnemonic : String)
  deriving DecidableEq, Repr

/-! ### Statuses and small types -/

/-- Completion status (R143). -/
inductive Status where
  | done | tagMismatch | verifyFail | keyRefused | slotEmpty | slotBad | keyblockInvalid | keyblockRefused
  | badInput | badLength | badPattern | badChain | outputShort | noEntropy | faultUnresolved
  | pairMismatch | pairLost | queueDestroyed | aborted | reserveBusy | notAuthorised | counterStale | quota | dmaError
  deriving DecidableEq, Repr

/-- COPE_STATE and DRAG_STATE (R24). -/
inductive HalfState where
  | off | reset | pouring | serving
  deriving DecidableEq, Repr

/-- Mould role of a lane or a Cupola unit (LANE_CONFIG of R57). -/
inductive Role where
  | active | spare | off
  deriving DecidableEq, Repr

/-- STATE of LANE_STATE_n and CUP_STATE_u. -/
inductive UnitState where
  | off | spare | active | assay | retired
  deriving DecidableEq, Repr

/-- A host write or message that the part issued (R170, R131, R132), or a host read it issued (R120). -/
inductive HostOut where
  | read (rid : Nat) (port : Half) (addr : BitVec 64) (len : Nat)
  | write (port : Half) (addr : BitVec 64) (data : Bytes)
  | completion (g : Nat) (cq : Nat) (port : Half) (addr : BitVec 64) (data : Bytes)
  | msix (port : Half) (fn : Nat) (vector : Nat)
  deriving DecidableEq, Repr

/-! ### Atrium (spec/01, spec/02) -/

/-- ATR_ registers that hold a value (R24). -/
structure AtrRegs where
  half : Two HalfState := ⟨.reset, .reset⟩
  /-- ATRIUM_SRC: `false` Feed A, `true` Feed B. -/
  srcB : Bool := false
  restarting : Bool := false
  event : BitVec 5 := 0
  eventEn : BitVec 5 := 0b11111
  errCount : BitVec 10 := 0
  errLast : BitVec 21 := 0
  scratch : Word := 0
  deriving DecidableEq, Repr

/-- The tick generator: two copies of the tick count and of the cycle count (R51, R52), the ATR_TICK_HI latch of each
port (R54). `windowDone`: the parting window of this tick has run. -/
structure TickGen where
  a : BitVec 56 := 0
  b : BitVec 56 := 0
  cycleA : BitVec 11 := 0
  cycleB : BitVec 11 := 0
  windowDone : Bool := false
  hiLatch : Two (BitVec 24) := ⟨0, 0⟩
  /-- The same latch for reads through the internal fabric. -/
  hiInner : BitVec 24 := 0
  /-- The upper word that the last 8-byte read returned; the lower one is `State.response` (R54). -/
  upper : Word := 0
  deriving DecidableEq, Repr

/-! ### The Mould (spec/03) -/

structure LibEntry where
  pattern : Nat
  slots : Nat
  units : Nat
  flags : Nat
  /-- Place and length of its lane code in the code area. -/
  code : Nat := 0
  codeLen : Nat := 0
  deriving DecidableEq, Repr

structure Bond where
  link : Nat
  first : Nat
  width : Nat
  deriving DecidableEq, Repr

/-- One entry of REGION_DEFAULT. -/
structure RegionDef where
  ctrl : Nat
  ix : Nat
  lock : Bool
  base : Word
  limit : Word
  perm : Word
  deriving DecidableEq, Repr

/-- RESERVE_FW or FLOOR_FW: header and image, with the section's directory digest. -/
structure Firmware where
  version : BitVec 16 := 0
  load : Word := 0
  entry : Word := 0
  image : Bytes := []
  zero : Nat := 0
  digest : Bytes := []
  deriving DecidableEq, Repr

/-- The sections of one half. -/
structure HalfCfg where
  mismatchLimit : Nat := 3
  mismatchWindow : Nat := 1000000
  unitMask : Nat := 0xFF
  laneRole : List Role := []
  cupolaRole : List Role := []
  libId : Word := 0
  libVer : Word := 0
  lib : List LibEntry := []
  bonds : List Bond := []
  hostEn : Bool := true
  spanEn : BitVec 64 := 0
  keyCacheKib : Nat := 1024
  stagingKib : Nat := 3072
  floorKib : Nat := 4096
  regions : List RegionDef := []
  fw : Firmware := {}
  deriving DecidableEq, Repr

structure Limits where
  maxGalleries : Nat := 1
  maxQueues : Nat := 1
  maxDepth : Nat := 4
  maxSq : Nat := 1
  maxCq : Nat := 1
  maxExt : Nat := 0
  lendOk : Bool := false
  dualOk : Bool := false
  pairOk : Bool := false
  maxSlots : Nat := 0
  deriving DecidableEq, Repr

/-- One row of FAULT_TABLE: class 0 corrected, 1 contained, 2 fatal; count and window. -/
structure FaultRow where
  cls : Nat := 0
  count : Nat := 1
  window : Nat := 1
  deriving DecidableEq, Repr

/-- One row of TAMPER_TABLE. -/
structure TamperRow where
  monitor : Nat
  response : Nat
  count : Nat
  window : Nat
  deriving DecidableEq, Repr

structure AtriumCfg where
  cusEn : BitVec 16 := 0
  arcEn : BitVec 4 := 0
  chainEn : Bool := false
  regions : List RegionDef := []
  limits : Limits := {}
  faults : List FaultRow := []
  tamper : List TamperRow := []
  fw : Firmware := {}
  deriving DecidableEq, Repr

/-- A Mould that passed its checks (R57 to R64): header fields, digest, sections. -/
structure Mould where
  version : Word := 0
  compatMin : Word := 0
  secVer : Nat := 0
  test : Bool := false
  digest : Bytes := []
  header : Bytes := []
  halves : Two HalfCfg := ⟨{}, {}⟩
  atrium : AtriumCfg := {}
  deriving DecidableEq, Repr

/-- The three domains that pour (R65). -/
inductive PourDomain where
  | half (h : Half)
  | atrium
  deriving DecidableEq, Repr

/-- A half pour in progress (spec/03): the slot it pours and the command that waits for it. The half is in RESET in step 1 and
POURING in steps 2 to 6 (entry 34). -/
structure HalfPour where
  step : Nat
  slotB : Bool
  /-- The queue whose MOULD_POUR_HALF waits for this pour. -/
  cmd : Option Nat := none
  paused : Bool := false
  /-- The tick in whose window step 1 has ended. -/
  resetEnd : Nat := 0
  deriving DecidableEq, Repr

/-- MLD_ state. -/
structure MouldState where
  /-- Image slots A and B, in bank A (cope) and bank B (drag). -/
  slotA : Two (Option Bytes) := ⟨none, none⟩
  slotB : Two (Option Bytes) := ⟨none, none⟩
  /-- Active slot of each domain in the counter area (R65): `some false` A, `some true` B. -/
  activeHalf : Two (Option Bool) := ⟨none, none⟩
  activeAtrium : Option Bool := none
  /-- The Mould that each domain runs (R72). -/
  runHalf : Two (Option Mould) := ⟨none, none⟩
  runAtrium : Option Mould := none
  /-- The Mould that each half ran last, for the bounds of a half that is down (R87). -/
  lastHalf : Two (Option Mould) := ⟨none, none⟩
  runSlotHalf : Two (Option Bool) := ⟨none, none⟩
  runSlotAtrium : Option Bool := none
  noMould : Bool := false
  staging : Bool := false
  fallback : Two Bool := ⟨false, false⟩
  fallbackAtrium : Bool := false
  errSection : BitVec 8 := 0
  errReason : BitVec 8 := 0
  recAddr : BitVec 64 := 0
  recLen : BitVec 22 := 0
  recFail : Bool := false
  recDone : Bool := false
  recBusy : Bool := false
  pour : Two (Option HalfPour) := ⟨none, none⟩
  /-- An Atrium pour by command (R69): the queue whose command waits. -/
  atriumPour : Option Nat := none
  /-- The Mould that a commanded Atrium pour applies when the restart ends. -/
  atriumNext : Option Bool := none
  deriving DecidableEq, Repr

/-! ### Galleries (spec/04) -/

inductive GalState where
  | free | active | closing
  deriving DecidableEq, Repr

/-- The records of a gallery that survive resets (R93). -/
structure Gal where
  state : GalState := .free
  units : Two Nat := ⟨0, 0⟩
  cupola : Nat := 0
  sqLimit : Nat := 0
  cqLimit : Nat := 0
  parts : Two Nat := ⟨0, 0⟩
  slotQuota : Nat := 0
  arcQuota : Nat := 0
  lend : Bool := false
  borrow : Bool := false
  dual : Bool := false
  pairing : Bool := false
  /-- 0 none, 1 ECDSA P-384, 2 ML-DSA-87. -/
  authAlg : Nat := 0
  authDigest : Bytes := []
  counter : BitVec 64 := 0
  deriving DecidableEq, Repr

/-- The mailbox of a gallery (spec/04, offset 0x1000). -/
structure Mailbox where
  outData : List Word := []
  outLen : BitVec 11 := 0
  busy : Bool := false
  inData : List Word := []
  inLen : BitVec 11 := 0
  full : Bool := false
  deriving DecidableEq, Repr

/-- GAL_AQ_ registers (R111). `deciding`: an enable waits for the parting window of tick `due`. `closing`: the pair is being
destroyed (R112). -/
structure AdminPair where
  sqBase : BitVec 64 := 0
  cqBase : BitVec 64 := 0
  ready : Bool := false
  vector : BitVec 11 := 0
  intEn : Bool := false
  portB : Bool := false
  cqDepth : BitVec 5 := 0
  sqDepth : BitVec 5 := 0
  refused : Bool := false
  enable : Bool := false
  deciding : Bool := false
  due : Nat := 0
  closing : Bool := false
  deriving DecidableEq, Repr

/-- Parts of a wide key that a gallery has sent so far (R302). -/
structure WideParts where
  header : Bytes
  count : Nat
  counter : BitVec 64
  material : Bytes
  deriving DecidableEq, Repr

/-- The working state of a gallery. -/
structure GalVol where
  event : BitVec 6 := 0
  eventEn : BitVec 6 := 0b111111
  /-- Units placed in each half (GAL_ST_EFFECTIVE, R86). -/
  eff : Two Nat := ⟨0, 0⟩
  mbx : Mailbox := {}
  aq : AdminPair := {}
  /-- Bits that the next parting window sets in `event` (R104). -/
  eventDue : BitVec 6 := 0
  /-- Key-cache ways and staging blocks, by their numbers in the half, ascending (R165, R166). -/
  ways : Two (List Nat) := ⟨[], []⟩
  blocks : Two (List Nat) := ⟨[], []⟩
  /-- Record reads charged in the share period (R157). -/
  fills : Two Nat := ⟨0, 0⟩
  /-- The queue index served last by the look-ahead unit (R120). -/
  lastSq : Two (Option Nat) := ⟨none, none⟩
  /-- The queue whose chain is being read (R120). -/
  chainSq : Two (Option Nat) := ⟨none, none⟩
  /-- Slots filled under R42 in this tick: the borrow allowance left and the count for the next. -/
  allowance : Two Nat := ⟨0, 0⟩
  /-- Cupola credit (R264). -/
  credit : Two Int := ⟨0, 0⟩
  wide : Option WideParts := none
  deriving DecidableEq, Repr

/-! ### Jobs (spec/05, spec/06) -/

/-- Four chain keys, unwrapped keys and running state of a chain (R114). -/
structure WorkKey where
  alg : Nat := 0
  attr : Word := 0
  hash : Nat := 0
  material : Bytes := []
  /-- Usage and mode octets for a key-block key (spec/08); empty for a slot key. -/
  usage : Bytes := []
  /-- A wide slot, read afresh at each use (R256). -/
  slot : Option Nat := none
  gen : Nat := 0
  deriving DecidableEq, Repr

structure ChainCtx where
  keys : List (Option WorkKey) := [none, none, none, none]
  /-- Keys unwrapped under R163, by the reference that named them. -/
  unwrapped : List (Nat × WorkKey) := []
  /-- The running state of R241 and R243. -/
  run : Bytes := []
  lens : List Nat := []
  pattern : Nat := 0
  deriving DecidableEq, Repr

/-- What a step's execution gives. -/
structure JobResult where
  status : Status := .done
  output : Bytes := []
  result : Bytes := []
  /-- OUT_COUNT of OUTPUT_SHORT (R118). -/
  need : Nat := 0
  detail : Nat := 0
  ctx : ChainCtx := {}
  deriving DecidableEq, Repr

/-- One entry of a job with its input (R113). -/
structure Step where
  entry : Bytes := []
  input : Bytes := []
  /-- Host reads of this step not returned yet. -/
  waits : Nat := 0
  /-- Verdict of the usage checker (R158); `none` when it passes. -/
  verdict : Option Status := none
  detail : Nat := 0
  deriving DecidableEq, Repr

/-- A run of slots of one lane-tick (R153). `pos` counts the lane-ticks of the tick in R146's order; a lane that
carries no lane-tick is named by `lane`. `borrowed`: placed by R42. -/
structure Booking where
  tick : Nat
  pos : Option Nat := none
  lane : Option Nat := none
  first : Nat := 0
  len : Nat
  deriving DecidableEq, Repr

/-- A part of a job that runs in one tick: an unwrap step of R163, or step `step`, with the slots it books. -/
structure Seg where
  unwrap : Bool := false
  step : Nat := 0
  len : Nat := 1
  /-- Key-block references whose 2 slots each are part of `len`. -/
  refs : List Nat := []
  deriving DecidableEq, Repr

inductive JobPhase where
  /-- Confirmed on a half that was lost; to be read again from its entry (R172). -/
  | redo
  /-- Entry read; input reads outstanding. -/
  | reading
  /-- Verdict ruled; waits for the parting window. -/
  | ruled
  /-- Confirmed; the current step waits for its slots. -/
  | confirmed
  /-- The current step has executed in this tick; its check is compared in the window. -/
  | ran
  /-- Handed to the Cupola units (R261). -/
  | cupola
  /-- Handed to an extension program (R405). -/
  | handoff
  /-- Waits for the partner's PAIR_RESULT (R547). -/
  | pair
  /-- Its completion, or its batch's, is produced. -/
  | finished
  deriving DecidableEq, Repr

/-- Where a job's entry came from: a submission queue, a partner's PAIR_EXEC (R548), a program's job ring (R410). -/
inductive Origin where
  | queue | partner | program
  deriving DecidableEq, Repr

structure Job where
  id : Nat := 0
  origin : Origin := .queue
  gal : Nat := 0
  sq : Nat := 0
  sqGen : Nat := 0
  index : Nat := 0
  half : Half := .cope
  /-- The tick in which the entry was read, T. -/
  fetch : Nat := 0
  steps : List Step := []
  /-- Entries that the job covers, the index of its `FIRST` entry being `index`. -/
  count : Nat := 1
  chain : Bool := false
  /-- A verdict that covers the whole job (BAD_CHAIN, DMA_ERROR of an entry read). -/
  early : Option Status := none
  cmdUnread : Bool := false
  cur : Nat := 0
  phase : JobPhase := .reading
  book : Option Booking := none
  /-- The next two parts, booked ahead (R154, R163). -/
  book2 : Option Booking := none
  book3 : Option Booking := none
  /-- The job books against the borrow allowance (R153). -/
  soft : Nat := 0
  /-- Parts still to run, the current one first. -/
  segs : List Seg := []
  waitFrom : Nat := 0
  keys : List (Option WorkKey) := []
  /-- Confirmed, not refused or rejected (R168, R169). -/
  accepted : Bool := false
  /-- A PREPARATION of the job has run in this tick (R160). -/
  tried : Bool := false
  ctx : ChainCtx := {}
  computed : Option JobResult := none
  /-- The two computations of the last execution agreed (R147). -/
  agree : Bool := true
  rerun : Bool := false
  lane : Nat := 0
  outs : List (BitVec 64 × Bytes) := []
  outBytes : Nat := 0
  /-- The last step before the current one that wrote output, and the bytes written before it (R118). -/
  outStep : Nat := 0
  outBefore : Nat := 0
  confirmTick : Nat := 0
  batch : Bool := false
  batchEnd : Bool := false
  hold : Nat := 0
  /-- Its output writes are issued, and acknowledged (R171). -/
  outSent : Bool := false
  delivered : Bool := false
  /-- Read again after a half was lost (R172); `late`: an entry of a chain whose reading failed then, which has no hold entry yet
  (R130). -/
  again : Bool := false
  late : Bool := false
  /-- Fills charged (R157) with the slots they read. -/
  fills : List Nat := []
  /-- Deadline of an entropy wait (R463), a handoff (R409) or a paired execution (R549). -/
  deadline : Option Nat := none
  /-- Tick of the window that abandons the job because its slot was destroyed (R307). -/
  abandon : Option Nat := none
  /-- Confirmed as a paired job (R546); the tick of its PAIR_EXEC, and the digest that the partner reported (R549). -/
  paired : Bool := false
  sent : Option Nat := none
  digest : Bytes := []
  deriving DecidableEq, Repr

/-- A job of a batch: the entries it covers, and once it completed whether it completed DONE. -/
structure BatchJob where
  job : Nat
  index : Nat
  count : Nat
  ok : Option Bool := none
  deriving DecidableEq, Repr

/-- A batch of a submission queue (R124, R125): `ended` holds CMD_ID and index of its BATCH_END entry; `produced`
once its completion is in the hold. -/
structure Batch where
  members : List BatchJob := []
  ended : Option (Nat × Nat) := none
  produced : Bool := false
  deriving DecidableEq, Repr

/-- A completion in a hold (R117, R127). -/
structure Held where
  sq : Nat := 0
  sqId : Nat := 0
  sqGen : Nat := 0
  cmdId : Nat := 0
  status : Status := .done
  fBatch : Bool := false
  fChain : Bool := false
  fFlush : Bool := false
  detail : Nat := 0
  outCount : Nat := 0
  result : Bytes := []
  /-- Indices the completion covers. -/
  covers : List (Nat × Nat) := []
  jobs : List Nat := []
  outs : List (BitVec 64 × Bytes) := []
  /-- The job whose output writes this item issues. -/
  job : Option Nat := none
  /-- A batch job that completed DONE: output writes only (R124). -/
  silent : Bool := false
  /-- First tick in which it may be issued. -/
  tick : Nat := 0
  index : Nat := 0
  outsIssued : Bool := false
  issued : Bool := false
  sqCi : Nat := 0
  /-- A GALLERY_QUERY of this gallery, whose data the end of the parting window fixes (R102). -/
  page : Option Nat := none
  deriving DecidableEq, Repr

/-- A submission queue (R108). -/
structure Sq where
  exist : Bool := false
  closing : Bool := false
  id : Nat := 0
  gen : BitVec 4 := 0
  port : Half := .cope
  admin : Bool := false
  depthLog2 : Nat := 0
  cq : Nat := 0
  base : BitVec 64 := 0
  pi : Nat := 0
  sampled : Nat := 0
  ci : Nat := 0
  /-- Entries that written completions cover ahead of the consumer index: first index and count. -/
  covered : List (Nat × Nat) := []
  openChain : Bool := false
  /-- The sampled index at which the open chain ended (R121). -/
  openAt : Nat := 0
  stale : Nat := 0
  invalid : Nat := 0
  /-- The next index to read. -/
  rd : Nat := 0
  chainBuf : List Bytes := []
  aside : Bool := false
  batches : List Batch := []
  predictor : List Nat := []
  /-- Its flush completion waits here for room in the completion queue (R139). -/
  flushKept : Bool := false
  /-- An admin entry of the queue is fetched and its completion is not written (R116). -/
  busy : Bool := false
  /-- Tick of the window that made it CLOSING (R138); once its flush is kept, the tick in which that was produced. -/
  closeTick : Nat := 0
  /-- The flush completion is in the hold. -/
  flushed : Bool := false
  /-- QUEUE_RESET closes it (R140). -/
  resetting : Bool := false
  /-- The bound port was not usable at the last parting window (R564). -/
  away : Bool := false
  deriving DecidableEq, Repr

/-- A completion queue (R108). -/
structure Cq where
  exist : Bool := false
  id : Nat := 0
  gen : BitVec 4 := 0
  port : Half := .cope
  error : Bool := false
  mirror : Bool := false
  depthLog2 : Nat := 0
  holdLog2 : Nat := 0
  intEn : Bool := false
  vector : Nat := 0
  modCount : Nat := 0
  modTime : Nat := 0
  base : BitVec 64 := 0
  mirrorAddr : BitVec 64 := 0
  pi : Nat := 0
  ci : Nat := 0
  stale : Nat := 0
  invalid : Nat := 0
  /-- Hold entries reserved or held (R127). -/
  used : Nat := 0
  hold : List Held := []
  unsignalled : Nat := 0
  oldest : Nat := 0
  /-- The test of R132 at the end of this tick has been made. -/
  tested : Bool := false
  /-- Full or in ERROR at the last parting window: dispatch stops (R128). -/
  stopped : Bool := false
  away : Bool := false
  deriving DecidableEq, Repr

/-- What a host read is for. -/
inductive ReadFor where
  /-- A submission entry, or an admin entry. -/
  | entry (sq : Nat) (index : Nat)
  /-- Input bytes `off` to `off + len - 1` of a step; `head`: the first bytes of a key block, which give its length (R178). -/
  | input (job : Nat) (step : Nat) (off len : Nat) (head : Bool)
  deriving DecidableEq, Repr

structure ReadReq where
  rid : Nat
  half : Half
  tick : Nat
  what : ReadFor
  deriving DecidableEq, Repr

inductive AdmPhase where
  | read | confirmed | running
  deriving DecidableEq, Repr

/-- An admin command (R115, R116). -/
structure AdminCmd where
  gal : Nat := 0
  sq : Nat := 0
  sqGen : Nat := 0
  index : Nat := 0
  half : Half := .cope
  entry : Bytes := []
  /-- The entry could not be read (R130). -/
  unread : Bool := false
  /-- The completion queue that holds its entry, and that queue's generation (R127, R136). -/
  cq : Nat := 0
  cqGen : BitVec 4 := 0
  phase : AdmPhase := .read
  /-- Order of confirmation (R89, R97), and the tick of the confirmation window. -/
  seq : Nat := 0
  tick : Nat := 0
  /-- Working data of a command that is running: a tick, a count, bytes. -/
  mark : Nat := 0
  aux : Bytes := []
  /-- A Reserve restart sent the command back to its start; it keeps the ceremony use that it took (R18, R340). -/
  cited : Bool := false
  deriving DecidableEq, Repr

/-! ### Lanes and key cache (spec/06) -/

/-- The prepared values of one job in a staging context (R145, R160): the gallery that owned the lane-tick, the keys of fills and
unwraps, and the input as far as it fits into the 512 bytes (entry 65). -/
structure Staged where
  gal : Nat
  job : Nat
  keys : List WorkKey
  data : Bytes
  deriving DecidableEq, Repr

structure Lane where
  role : Role := .off
  state : UnitState := .off
  cause : BitVec 4 := 0
  /-- Ticks of the last failed checks, newest first (R150). -/
  fails : List Nat := []
  /-- Staging contexts 0 to 31 (R145); an unlisted one is quenched. -/
  contexts : Tab (Option Staged) := []
  /-- Next 64-byte line of the scrub of the pattern store (lines 0 to 255) and the contexts (256 to 511) (R48). -/
  scrub : Nat := 0
  deriving DecidableEq, Repr

/-- A line of the key cache (R166). -/
structure KcLine where
  gal : Nat
  way : Nat
  set : Nat
  tag : BitVec 128
  key : WorkKey
  deriving DecidableEq, Repr

/-- An assay of one unit (R49, R50, R481). -/
structure Assay where
  cupola : Bool
  unit : Nat
  /-- No spare was free (R50, R272). -/
  inPlace : Bool
  /-- Ticks, or reserve lane-ticks under R50, left. -/
  left : Nat
  cmd : Option Nat := none
  deriving DecidableEq, Repr

structure LaneHalf where
  lanes : List Lane := []
  libId : Word := 0
  libVer : Word := 0
  mismatch : BitVec 31 := 0
  shortfall : BitVec 16 := 0
  /-- Shortfall of the placement in force in the last tick of the share period (R41). -/
  ending : Nat := 0
  /-- The borrower served last (R42). -/
  lastBorrower : Option Nat := none
  /-- Lines, most recently used first within a gallery. -/
  kc : List KcLine := []
  /-- Selects the tag key and the cache key chosen at the half's Pour (R166). -/
  kcKey : Nat := 0
  /-- Anneal and scrub pointers (R48). -/
  annealPos : Nat := 0
  scrubPos : Nat := 0
  /-- Coefficient updates made in every SerDes lane of the half (R48). -/
  serdes : Nat := 0
  assay : Option Assay := none
  /-- Lanes to retire in the next retirement step with their CAUSE. -/
  toRetire : List (Nat × Nat) := []
  /-- Slots of this tick that preparation has used (R44, R160). -/
  prepSlots : List Booking := []
  /-- Slots that refused and rejected jobs released: closed to the gallery's own work (R169). -/
  released : List Booking := []
  /-- Slots of this tick that hold confirmed work: before the parting window those of jobs that moved on to a Cupola unit or a program,
  from its snapshot on all of them (R48, R515). -/
  held : List Booking := []
  /-- Staging blocks that hold data since their last quench, with the gallery's number plus 1 (R166). -/
  residue : Tab Nat := []
  deriving DecidableEq, Repr

structure LaneRegs where
  half : Two LaneHalf := ⟨{}, {}⟩
  /-- The halves that were SERVING at the last changes step: their grants are placed (R86). -/
  placed : Two Bool := ⟨false, false⟩
  unresolved : BitVec 31 := 0
  prepFault : BitVec 31 := 0
  reexec : BitVec 31 := 0
  deriving DecidableEq, Repr

/-! ### Cupola units (spec/09) -/

/-- Work of Reserve firmware for Cupola units: for what, the ticks of the operations still to run one after another, and the half
when it must be one (R266, R532). -/
structure ResWork where
  owner : Bytes
  ticks : List Nat
  half : Option Half := none
  deriving DecidableEq, Repr

structure CupOp where
  /-- The job, or none for a Reserve operation (R266), whose work stands in `work`. -/
  job : Option Nat
  work : Option ResWork := none
  gal : Nat
  /-- Order: confirmation tick, queue, index (R265). -/
  confirm : Nat := 0
  sq : Nat := 0
  index : Nat := 0
  rerun : Bool := false
  /-- Ticks that the operation has occupied its unit. -/
  age : Nat := 0
  /-- Ticks of the whole operation (R252, R253), and the free value that its intake drew (R259). -/
  len : Nat := 0
  draw : Nat := 0
  /-- The free value that the lane part drew (R232). -/
  lane : Nat := 0
  deriving DecidableEq, Repr

/-- A unit's 32 KiB operand memory (R276, R277): zeros after a clear, else the masked shares and random fill of its last
overwrite, free values; the debug port's own writes stand over them. -/
structure OpMem where
  clear : Bool := false
  seed : Nat := 0
  cells : Tab (Option Byte) := []
  deriving DecidableEq, Repr

structure CupUnit where
  role : Role := .off
  state : UnitState := .off
  cause : BitVec 4 := 0
  fails : List Nat := []
  op : Option CupOp := none
  /-- The mask register is loaded (R276). -/
  mask : Bool := false
  /-- The gallery whose operation left the unit in this tick (R264). -/
  left : Option Nat := none
  deriving DecidableEq, Repr

structure Cupola where
  units : Two (List CupUnit) := ⟨[], []⟩
  waiting : Two (List CupOp) := ⟨[], []⟩
  /-- Operand memories by unit number 0 to 17. -/
  mem : Tab OpMem := []
  /-- The half's credits have been updated in this tick's slot-map step (R264). -/
  credited : Two Bool := ⟨false, false⟩
  /-- Work that Reserve firmware has for the units, in order, and the work done whose results it has not used yet (R266). -/
  reserve : List ResWork := []
  resDone : List Bytes := []
  waitCount : Two (BitVec 16) := ⟨0, 0⟩
  mismatch : Two (BitVec 31) := ⟨0, 0⟩
  /-- Units to retire in the next retirement step with their CAUSE (R270). -/
  toRetire : Two (List (Nat × Nat)) := ⟨[], []⟩
  unresolved : BitVec 31 := 0
  abandoned : BitVec 31 := 0
  deriving DecidableEq, Repr

/-! ### Strongroom (spec/10) -/

/-- A slot record (R286). -/
structure Rec where
  slot : Nat := 0
  gal : Nat := 0
  alg : Nat := 0
  attr : Word := 0
  gen : BitVec 31 := 0
  epoch : Bool := false
  part : Nat := 0
  hash : Nat := 0
  keyLen : Nat := 0
  iv : Bytes := []
  /-- Ciphertext and tag of AES-256-GCM. -/
  sealed : Bytes := []
  tag : Bytes := []
  /-- The copy's MRAM lines fail their ECC (source +11, R469). -/
  corrupt : Bool := false
  deriving DecidableEq, Repr

/-- The empty records of unassigned slots that the first start in PRODUCTION writes (R282): sealing key, epoch register, and
the free value that gives their nonces. -/
structure BlankRecs where
  key : Bytes
  epoch : Bool := false
  seed : Nat := 0
  deriving DecidableEq, Repr

/-- One entry of the assignment map (R290). -/
structure MapEnt where
  owner : Nat := 0
  assigned : Bool := false
  head : Bool := false
  member : Bool := false
  deriving DecidableEq, Repr

/-- The custodian set: shares, threshold, authority's point, commitment (R330, R331). -/
structure CusSet where
  n : Nat := 0
  m : Nat := 0
  point : Bytes := []
  commit : Bytes := []
  deriving DecidableEq, Repr

/-- The live record's fields (R514). -/
structure LiveRec where
  seq : Word := 0
  index : BitVec 16 := 0
  minStart : Word := 0
  minEnd : Word := 0
  pcStart : Word := 0
  pcEnd : Word := 0
  switchovers : BitVec 16 := 0
  lane : List Nat := List.replicate 16 0
  latency : List Nat := List.replicate 16 0
  temp : List Nat := List.replicate 16 0
  rails : List (Nat × Nat) := List.replicate 18 (0xFFFF, 0)
  cupola : List Nat := List.replicate 4 0
  cls : List Nat := List.replicate 3 0
  group : List Nat := List.replicate 8 0
  tamper : List Nat := List.replicate 135 0
  deriving DecidableEq, Repr

/-- Values of the counter area beside the blocks of R290 and R331: active slots (spec/03), quenches and reseals (R317), the identity
chain, the request and its point (R369, R381), restarts of its life (R385), log overflow (R508), operating minutes (R511), unit
address and epoch (R538). -/
structure CounterRest where
  activeHalf : Two (Option Bool) := ⟨none, none⟩
  activeAtrium : Option Bool := none
  quenches : BitVec 16 := 0
  reseals : BitVec 16 := 0
  prodStarted : Bool := false
  restartsLife : Word := 0
  chain : Option Bytes := none
  request : Bytes := []
  point : Bytes := []
  overflow : Word := 0
  lastLs : Word := 0
  lastPc : Word := 0
  minutes : Word := 0
  checkpoint : Option LiveRec := none
  full : Bool := false
  unitValid : Bool := false
  unitAddr : BitVec 16 := 0
  unitEpoch : BitVec 16 := 0
  unitCount : BitVec 11 := 0
  deriving DecidableEq, Repr

/-- The counter area of a bank as far as the map key protects it (R290, R331): 4 KiB blocks 0 to 31 hold the map, block 32 the
galleries' update counters, block 33 the custodian set. -/
structure CounterArea where
  /-- What no HMAC protects; it is kept here while the bank is unavailable (R296). -/
  rest : CounterRest := {}
  map : Tab MapEnt := []
  counters : Tab (BitVec 64) := []
  set : Option CusSet := none
  /-- HMAC-SHA-384 of each block; none for a block that nothing has written yet. -/
  macs : Tab (Option Bytes) := []
  /-- Blocks whose MRAM lines fail their ECC. -/
  lost : List Nat := []
  deriving DecidableEq, Repr

/-- A Strongroom bank: `base` gives the record of every slot that `recs` does not list. -/
structure Bank where
  base : Option BlankRecs := none
  recs : Tab (Option Rec) := []
  area : CounterArea := {}
  available : Bool := false
  /-- The other bank was written while this one was unavailable: it is not current (R296 to R298). -/
  behind : Bool := false
  /-- Stale map (R296): slots written while the bank was unavailable. -/
  stale : List Nat := []
  scrubPos : Nat := 0
  /-- First tick of the next scrub step, and of the next wear-levelling move (R48). -/
  scrubDue : Nat := 0
  wearDue : Nat := 0
  /-- Moves made in each journal or counter region of the bank (R48). -/
  wear : Tab Nat := []
  deriving DecidableEq, Repr

inductive DirState where
  | unassigned | empty | good | bad
  deriving DecidableEq, Repr

/-- One entry of the slot directory (R291). `wide`: 0 narrow, 1 head, 2 member. -/
structure DirEnt where
  owner : Nat := 0
  state : DirState := .unassigned
  wide : Nat := 0
  gen : Nat := 0
  deriving DecidableEq, Repr

/-- A 32-byte value held as two shares whose XOR is the value (R283). -/
structure Shares where
  x : Bytes
  y : Bytes
  deriving DecidableEq, Repr

structure Strongroom where
  /-- Epoch registers 0 and 1 (Reliquary lines 0 and 1). -/
  epoch0 : Option Shares := none
  epoch1 : Option Shares := none
  /-- EPOCH: the active register. -/
  epoch : Bool := false
  /-- Reliquary line 2. -/
  maskSeed : Option Shares := none
  /-- Reliquary lines 3 to 31 by number: the 64 bytes of two shares. -/
  lines : Tab Bytes := []
  bank : Two Bank := ⟨{}, {}⟩
  /-- The assignment map as the controller uses it. -/
  map : Tab MapEnt := []
  dir : Tab DirEnt := []
  dirReady : Bool := false
  quenched : Bool := false
  overwrite : Bool := false
  reseal : Bool := false
  resealPos : Two Nat := ⟨0, 0⟩
  /-- First tick of the next Reseal step (R48). -/
  resealDue : Nat := 0
  overwritePos : Two Nat := ⟨0, 0⟩
  /-- Slots written since the last quench while the overwrite runs (R312). -/
  writtenSince : List Nat := []
  corrected : BitVec 31 := 0
  quenches : BitVec 16 := 0
  reseals : BitVec 16 := 0
  /-- A quench has begun whose changes step has not come yet (R312 step 2). -/
  quenching : Bool := false
  /-- The cell domain's quench still needs steps 2 to 4 at the next start (R314). -/
  atStart : Bool := false
  /-- Ticks since Reliquary line 2 was rewritten (R283). -/
  seedAge : Nat := 0
  annealPos : Nat := 0
  /-- The cell-only generator of R283: its seed from line 2, and the steps it has made. -/
  cellMask : Bytes := []
  cellSteps : Nat := 0
  deriving DecidableEq, Repr

/-! ### Custodian cards, ceremonies, archive media (spec/11) -/

/-- STATE of CUS_PORT_n (R357). -/
inductive CardState where
  | empty | activating | authenticating | ready | waitHolder | done | refused | error | disabled
  deriving DecidableEq, Repr

/-- What the part waits for from a card. -/
inductive CardWait where
  /-- Detection debounced, power requested (R320). -/
  | power
  | atr
  | pps
  /-- S(IFS response) before the first APDU (R322). -/
  | ifs
  /-- The response to the APDU named by its INS (R325). -/
  | apdu (ins : Byte)
  | resynch
  /-- S(ABORT response) to the part's own S(ABORT) (R323). -/
  | abort
  | nothing
  deriving DecidableEq, Repr

structure CardPort where
  state : CardState := .empty
  reason : BitVec 4 := 0
  index : BitVec 4 := 0
  ta1 : Byte := 0x11
  ifsc : Byte := 0
  /-- CUS_n_PWR_EN high, and with it IO in reception, CLK running and RST high (R320, R324). -/
  power : Bool := false
  waits : CardWait := .nothing
  /-- A warm reset has been tried (R321); the activation sends its PPS request without PPS1 (R322). -/
  retried : Bool := false
  noPps1 : Bool := false
  /-- `CUS_n_DET_N` has been low for 10,000 ticks (R320). -/
  present : Bool := false
  /-- TA1 offered, for PPS1 (R322). -/
  offered : Option Byte := none
  /-- Failed attempts at the block being exchanged (R323). -/
  attempts : Nat := 0
  /-- N(S) of the part's next I-block and N(R) it expects. -/
  ns : Bool := false
  nr : Bool := false
  /-- The command APDU and how many of its bytes the card has acknowledged; response bytes received. -/
  tx : Bytes := []
  txPos : Nat := 0
  rx : Bytes := []
  wtx : Byte := 0
  cardKey : Bytes := []
  challenge : Bytes := []
  /-- The part's ephemeral private value: the index of its free value. -/
  eph : Nat := 0
  session : Bytes := []
  setId : Bytes := []
  /-- The share, enciphered under the key of a Reliquary line (R331). -/
  share : Bytes := []
  shareLine : Nat := 0
  /-- HOLDER_VERIFIED and SHARE_HELD as the card reported them last (R327). -/
  holder : Bool := false
  held : Bool := false
  holderTick : Nat := 0
  deriving DecidableEq, Repr

/-- STATE of CUS_CER_STATE_c. -/
structure Ceremony where
  ref : Word := 0
  /-- Order of opening (R337). -/
  seq : Nat := 0
  complete : Bool := false
  purpose : Nat := 0
  gallery : Nat := 0
  opener : Nat := 0
  ports : BitVec 16 := 0
  uses : Nat := 0
  deadline : Nat := 0
  /-- Shares by index 1 to 16, and S once complete, enciphered under the ceremony key (R336). -/
  shares : List (Nat × Bytes) := []
  secret : Bytes := []
  deriving DecidableEq, Repr

/-- A running CUSTODIAN_SET_CREATE or _ADOPT (R332, R333). -/
structure SetRun where
  adopt : Bool
  sq : Nat
  n : Nat
  m : Nat
  ports : BitVec 16
  deadline : Nat
  point : Bytes
  /-- S, the coefficients of the split and the shares, enciphered under the key in line 23 (R331). -/
  secret : Bytes
  /-- Distinct cards whose holder is verified, in order, and those that hold their share, by card key (R332). -/
  order : List Bytes := []
  stored : List Bytes := []
  /-- Random coefficients of the split (R330). -/
  coefs : List Bytes := []
  shares : List (Nat × Bytes) := []
  ids : List Bytes := []
  deriving DecidableEq, Repr

structure Custodians where
  installed : Bool := false
  n : Nat := 0
  m : Nat := 0
  point : Bytes := []
  commit : Bytes := []
  /-- The set was written under the Test Root's map key (R331). -/
  testRoot : Bool := false
  classC : Bool := false
  event : BitVec 4 := 0
  refused : BitVec 31 := 0
  ports : Tab CardPort := []
  cer : List (Option Ceremony) := List.replicate 8 none
  run : Option SetRun := none
  deriving DecidableEq, Repr

/-- STATE of ARC_PORT_n (R358). -/
inductive ArcState where
  | empty | init | ready | busy | error | disabled
  deriving DecidableEq, Repr

structure ArcPort where
  state : ArcState := .empty
  type : Fin 3 := 0
  speed : Nat := 0
  permWp : Bool := false
  tmpWp : Bool := false
  switchWp : Bool := false
  no18 : Bool := false
  reason : BitVec 4 := 0
  cid : Bytes := []
  blocks : Nat := 0
  /-- The CSD as the card's last answer gave it, but for its two protection bits, and the card's relative address. -/
  csd : Bytes := []
  rca : BitVec 16 := 0
  /-- Commands go in Default Speed's High Speed form when the card has it (R341). -/
  highSpeed : Bool := false
  deriving DecidableEq, Repr

/-- A running ARCHIVE_WRITE (R347 to R350). -/
structure ArcWrite where
  port : Nat
  gal : Nat
  sq : Nat
  ref : Word
  /-- Records still to be written, the first one journalled (R348). -/
  records : List Bytes
  seq : Nat := 0
  block : Nat := 0
  attempts : Nat := 0
  waitCard : Bool := false
  /-- The trailer is written, and CMD27 sets TMP_WRITE_PROTECT (R347 step 3). -/
  protecting : Bool := false
  cid : Bytes := []
  archiveId : Bytes := []
  deriving DecidableEq, Repr

structure Archive where
  v18 : Bool := false
  uhsEn : Bool := true
  /-- The tick in which `ARC_VSEL` changed last (R602). -/
  vselAt : Option Nat := none
  write : Option ArcWrite := none
  rewrites : BitVec 31 := 0
  ports : Tab ArcPort := []
  deriving DecidableEq, Repr

/-! ### Life cycle (spec/12) -/

inductive LcState where
  | blank | test | production | endOfLife
  deriving DecidableEq, Repr

/-- Fuse fields (R363). A group is held as the number of its three fuses that are burned. -/
structure Fuses where
  dieId : BitVec 64 := 0
  testSeed : Bytes := []
  gradeE : Nat := 0
  trim : Bytes := []
  rootA : Bytes := []
  rootAValid : Nat := 0
  rootB : Bytes := []
  rootBValid : Nat := 0
  /-- Every fuse of the root field is burned (R370, R371). -/
  rootASpoiled : Bool := false
  rootBSpoiled : Bool := false
  stTest : Nat := 0
  stProd : Nat := 0
  stEol : Nat := 0
  consumed : List Nat := List.replicate 8 0
  ended : List Nat := List.replicate 8 0
  secVer : Nat := 0
  ownerAlg : Nat := 0
  ownerDigest : Bytes := []
  ownerValid : Nat := 0
  trimSpoiled : Bool := false
  wiped : Nat := 0
  deriving DecidableEq, Repr

/-- An intent record (R365). -/
structure Intent where
  kind : Nat
  arg : Nat
  seq : BitVec 64
  payload : Bytes
  mac : Bytes := []
  deriving DecidableEq, Repr

/-- The measurements of one parting window (R378): boot ROM, firmware and Mould digests of the domains that run, the life-cycle
bytes, restarts, and the loaded programs with half, partition and gallery. -/
structure Measured where
  tick : Nat
  boot : Bytes
  reserveFw : Option Bytes
  floorFw : Two (Option Bytes)
  mouldAtrium : Option Bytes
  moulds : Two (Option Bytes)
  life : Bytes
  restarts : Nat
  programs : List (Half × Nat × Nat × Bytes)
  deriving DecidableEq, Repr

structure LifeCycle where
  fuses : Fuses := {}
  state : LcState := .blank
  session : Bool := false
  debug : Bool := false
  rootFail : Bool := false
  /-- The part has started in PRODUCTION (R282). -/
  prodStarted : Bool := false
  restarts : Word := 0
  restartsLife : Word := 0
  lastKind : Byte := 0
  completed : Byte := 0
  intents : Two (List Intent) := ⟨[], []⟩
  intentSeq : BitVec 64 := 0
  /-- Identity chain, and the identity request with its stored point (R369, R381). -/
  chain : Option Bytes := none
  request : Bytes := []
  point : Bytes := []
  /-- Debug port address register (R377). -/
  dbgAddr : Word := 0
  /-- Data captured on MEM_DATA. -/
  dbgData : Word := 0
  /-- A LIFECYCLE_MOVE asked for a reset once its completion is written (R384): the queue of the command. -/
  resetAfter : Option Nat := none
  /-- Boot ROM digest computed at the start (R378). -/
  bootDigest : Bytes := []
  /-- What the last parting window measured. -/
  measured : Option Measured := none
  /-- The endorsement made at the last Atrium pour (R383). -/
  endorsement : Bytes := []
  deriving DecidableEq, Repr

/-! ### Reserve and Floor worlds (spec/13) -/

/-- A region register (R388, R415). -/
structure Region where
  base : BitVec 20 := 0
  limit : BitVec 20 := 0
  perm : Word := 0
  en : Bool := false
  lock : Bool := false
  /-- Its parity or shadow compare failed and it was not rewritten since (R392). -/
  bad : Bool := false
  deriving DecidableEq, Repr

/-- Rights and gating of a gate (R393). -/
structure Gate where
  rights : BitVec 6 := 0
  clkOff : Bool := false
  pwrOff : Bool := false
  deriving DecidableEq, Repr

/-- A loaded extension program (R402, R406). -/
structure Program where
  running : Bool := true
  part : Nat := 0
  base : Nat := 0
  /-- 64 KiB units of Floor SRAM that its partition holds (R85, R400). -/
  units : Nat := 0
  version : Word := 0
  digest : Bytes := []
  entries : Nat := 0
  deadline : Nat := 0
  lastCause : Nat := 0
  /-- The part's own indices of the rings of R406. -/
  handProd : Nat := 0
  resCons : Nat := 0
  jobCons : Nat := 0
  jobDoneProd : Nat := 0
  /-- Next entry of the job ring to read, and entries whose completions are written ahead of the consumer index. -/
  jobRd : Nat := 0
  jobCovered : List (Nat × Nat) := []
  /-- The program's words as last sampled. -/
  handCons : Nat := 0
  resProd : Nat := 0
  jobProd : Nat := 0
  jobDoneCons : Nat := 0
  /-- Outstanding handoff jobs: ticket, job, buffer, deadline. -/
  tickets : List (Nat × Nat × Nat × Nat) := []
  nextTicket : Nat := 0
  /-- Tick in which its turn on the core ends (R403). -/
  turnEnd : Nat := 0
  deriving DecidableEq, Repr

structure Worlds where
  refused : BitVec 31 := 0
  lastAddr : Word := 0
  lastInfo : Word := 0
  cause : BitVec 4 := 0
  /-- Tick of the last heartbeat (R397). -/
  heartbeat : Nat := 0
  gates : Tab Gate := []
  /-- Region registers by 32 * controller index + region. -/
  regions : Tab Region := []
  /-- Programs by 256 * half + gallery; and the gallery whose program each Floor core runs. -/
  programs : Tab (Option Program) := []
  /-- Last cause and state of a program that has stopped (EXT_STATUS). -/
  stopped : Tab Nat := []
  /-- The key of the runner hub and the Reserve-domain buses, by the number of the free value that a pour chose (R13). -/
  busKey : Nat := 0
  /-- Initiators, as `WLD_WHOAMI.CORE`, with a beat whose code failed: their next access is discarded (R13, entry 72). -/
  badBeats : List Nat := []
  deriving DecidableEq, Repr

/-- The local cipher unit (R412 to R416). -/
structure Lcu where
  owner : Byte := 0
  final : Bool := false
  len : Byte := 0
  op : BitVec 4 := 0
  decrypt : Bool := false
  keyLen : BitVec 2 := 0
  busy : Bool := false
  done : Bool := false
  key : Bytes := List.replicate 32 0
  iv : Bytes := List.replicate 16 0
  din : Bytes := List.replicate 128 0
  dout : Bytes := List.replicate 64 0
  /-- Chaining value and the blocks hashed since INIT. -/
  chainV : Bytes := []
  hashed : Bytes := []
  deriving DecidableEq, Repr

/-! ### Tieno cores (spec/14) -/

/-- A line of a data L1 (R424). -/
structure L1Line where
  addr : Nat
  data : Bytes
  dirty : Bool
  deriving DecidableEq, Repr

structure CoreSt where
  /-- w1 to w31, element i holds w(i+1). -/
  w : List Word := List.replicate 31 0
  /-- Page numbers of BK0 to BK7 (R418). -/
  bk : List (BitVec 16) := List.replicate 8 0
  pc : BitVec 16 := 0
  level : Bool := false
  ie : Bool := false
  exc : Bool := false
  eLevel : Bool := false
  eIe : Bool := false
  epc : Word := 0
  ecause : Word := 0
  eaddr : Word := 0
  evec : Word := 0
  escratch : Word := 0
  ien : BitVec 6 := 0
  ip : BitVec 6 := 0
  partition : BitVec 6 := 0
  /-- The partition that the core runs at Program level. -/
  curPart : BitVec 6 := 0
  cycle : BitVec 64 := 0
  cycleH : Word := 0
  tickHi : Word := 0
  running : Bool := false
  /-- Suspended by WFT; the register that it writes. -/
  waiting : Option (BitVec 5) := none
  stopped : Bool := false
  l1 : List L1Line := []
  /-- RNG_SW_STATUS.VALID for this core (R464). -/
  rngValid : Bool := false
  deriving DecidableEq, Repr

/-! ### Entropy (spec/15) -/

/-- STATE of RNG_SRC_n (R468). -/
inductive SrcState where
  | off | starting | healthy | excluded | raw
  deriving DecidableEq, Repr

structure Source where
  state : SrcState := .off
  cause : BitVec 3 := 0
  ones : BitVec 13 := 0
  trim : BitVec 8 := 0
  lags : List (BitVec 8) := [0, 0, 0, 0]
  /-- The last bit and how many equal bits in a row (R455). -/
  last : Option Bool := none
  run : Nat := 0
  /-- Bits of the open 1,024-bit and 4,096-bit windows, oldest first. -/
  apt : List Bool := []
  win : List Bool := []
  /-- The last 1,024-bit block that passed its tests and ended HEALTHY, until the conditioner takes it (R457). -/
  block : Option (List Bool) := none
  /-- RAW was entered from HEALTHY (R465). -/
  wasHealthy : Bool := false
  deriving DecidableEq, Repr

inductive DrbgState where
  | notReady | ready | exhausted
  deriving DecidableEq, Repr

structure Drbg where
  state : DrbgState := .notReady
  requests : Nat := 0
  lastReseed : Nat := 0
  /-- The conditioned value taken last and the personalisation string of its instantiation. -/
  seed : Bytes := []
  pers : Bytes := []
  deriving DecidableEq, Repr

structure Entropy where
  src : Tab Source := []
  /-- Conditioned values held in each half (R457). -/
  held : Two (List Bytes) := ⟨[], []⟩
  /-- The source whose block the conditioner took last (R457). -/
  turn : Two Nat := ⟨0, 0⟩
  drbg : List Drbg := List.replicate 4 {}
  /-- The half that feeds instances 2 and 3 next. -/
  feedTurn : Half := .cope
  deviceRaw : Bool := false
  fifo : List Bool := []
  fifoSrc : BitVec 4 := 0
  rawActive : Bool := false
  overflow : BitVec 11 := 0
  noEntropy : BitVec 31 := 0
  deriving DecidableEq, Repr

/-! ### Faults (spec/16) -/

structure FaultSrc where
  syn : Word := 0
  count : BitVec 31 := 0
  cls : BitVec 2 := 0
  countN : Byte := 1
  window : BitVec 24 := 1
  /-- Ticks of its events in counting mode (R474). -/
  history : List Nat := []
  deriving DecidableEq, Repr

/-- A loop-back test in progress (R484). -/
structure LoopTest where
  kind : Nat
  index : Nat
  depth : Nat
  units : Nat
  sq : Nat
  deadline : Nat
  deriving DecidableEq, Repr

structure Faults where
  status : BitVec 64 := 0
  corr : BitVec 64 := 0
  cont : BitVec 64 := 0
  fatal : BitVec 64 := 0
  /-- Pins of conditions that stay asserted (R477). -/
  pins : BitVec 64 := 0
  src : Tab FaultSrc := []
  failedStarts : Nat := 0
  failedPours : Two Nat := ⟨0, 0⟩
  deviceHold : Bool := false
  hold : Two Bool := ⟨false, false⟩
  countHalf : Two Bool := ⟨true, true⟩
  countAtrium : Bool := true
  /-- Tick at which the recovery interval ends (R473). -/
  endHalf : Two (Option Nat) := ⟨none, none⟩
  endAtrium : Option Nat := none
  /-- End of the counting after a Reserve restart that fell into the Atrium's start. -/
  restartEnd : Option Nat := none
  clearRefused : BitVec 31 := 0
  lastValid : Bool := false
  lastSource : BitVec 6 := 0
  lastUnit : Byte := 0
  /-- The fatal event is not yet added to the recorder's count (R513). -/
  lastNew : Bool := false
  /-- Half resets to take effect in a retirement step (R480): the tick of that window. -/
  halfReset : Two (Option Nat) := ⟨none, none⟩
  loops : List LoopTest := []
  deriving DecidableEq, Repr

/-! ### Tamper (spec/17) -/

structure Monitor where
  response : BitVec 2 := 0
  countN : Byte := 1
  window : BitVec 24 := 1
  history : List Nat := []
  fired : Byte := 0
  failed : Bool := false
  stimPass : Bool := false
  /-- The tick (millisecond in cell-only operation) of its last event or stimulation (R492, R499). -/
  last : Option Nat := none
  deriving DecidableEq, Repr

/-- A rotation of stimulations that TAMPER_SELFTEST runs (R499, R509): the command, the monitors still to come, those whose detector
does not respond, and how many have failed. -/
structure SelfRun where
  seq : Nat
  left : List Nat
  failing : List Byte := []
  bad : Nat := 0
  deriving DecidableEq, Repr

/-- The decision being carried out (R495, R496): its severity and its halves. -/
structure Decision where
  response : Nat
  halves : Two Bool
  tick : Nat
  deriving DecidableEq, Repr

structure Tamper where
  mon : Tab Monitor := []
  /-- Monitors run under R491. -/
  defaults : Bool := true
  cellCopied : Bool := false
  lidOpen : Bool := false
  /-- Log entries in bank A and in bank B, oldest first (R506). -/
  log : Two (List Bytes) := ⟨[], []⟩
  overflow : Word := 0
  lastLs : Word := 0
  lastPc : Word := 0
  lifeSeconds : Word := 0
  powerCycles : Word := 0
  cellBuf : List Bytes := []
  cellOverflow : BitVec 16 := 0
  /-- Milliseconds of cell-only operation (R492). -/
  cellMs : Nat := 0
  decision : Option Decision := none
  /-- Rotation pointer of the daily self-test (R499): 0 idle, `k + 1` while monitor `k` in ascending number is next. -/
  rotate : Nat := 0
  selfRun : Option SelfRun := none
  /-- The seeds of the loops' sequences, drawn at power-up: the free value that gives them (R605). -/
  loopSeed : Nat := 0
  /-- Rotation pointer of the calibration of monitors, one in every tick (R48). -/
  calibrate : Nat := 0
  deriving DecidableEq, Repr

/-! ### Event recorder (spec/18) -/

structure Recorder where
  minutes : Word := 0
  /-- Ticks since the last operating minute (R511). -/
  minuteTicks : Nat := 0
  live : LiveRec := {}
  stored : Two (List Bytes) := ⟨[], []⟩
  checkpoint : Option LiveRec := none
  full : Bool := false
  sel : BitVec 12 := 0
  aperture : Bytes := List.replicate 512 0
  sinceRefresh : Nat := 0
  sinceCheckpoint : Nat := 0
  /-- Ticks of the running operating second, and the slots of its ticks that the serving halves had and that held confirmed work
  (R515). -/
  sinceSecond : Nat := 0
  slots : Nat := 0
  slotsHeld : Nat := 0
  deriving DecidableEq, Repr

/-! ### Span and chain (spec/19) -/

/-- STATE of SPN_LINK_n (R552). -/
inductive LinkState where
  | notBonded | down | training | hello | up | refused | loop
  deriving DecidableEq, Repr

structure Link where
  state : LinkState := .notBonded
  reason : BitVec 4 := 0
  width : BitVec 2 := 0
  firstLane : BitVec 7 := 0
  peer : BitVec 10 := 0
  retry : BitVec 31 := 0
  /-- Next SEQ to send, and the last SEQ accepted plus one (R525, R526); `sinceAck` is the tick of the last advance or
  resend. -/
  seqTx : Nat := 0
  seqRx : Nat := 0
  replay : List (Nat × Bytes) := []
  resends : Nat := 0
  sinceAck : Nat := 0
  /-- Flit counters and ratchet counts, sent and received (R531). -/
  countTx : Nat := 0
  countRx : Nat := 0
  ratchetTx : Nat := 0
  ratchetRx : Nat := 0
  keyTx : Bytes := []
  keyRx : Bytes := []
  saltTx : Bytes := []
  saltRx : Bytes := []
  /-- HELLO1 sent and received (R529), and the ephemeral private value's index. -/
  helloTx : Bytes := []
  helloRx : Bytes := []
  eph : Nat := 0
  /-- The message being rebuilt, the next FRAG_ID to send, and fragments that wait for room in the replay buffer (R524,
  R525). -/
  frag : Bytes := []
  fragTx : Nat := 0
  txq : List Bytes := []
  deriving DecidableEq, Repr

/-- One topology entry (R528). -/
structure Topo where
  enabled : Bool := false
  unit : Nat := 0
  link : Nat := 0
  id : Bytes := []
  deriving DecidableEq, Repr

/-- One route (R536). -/
structure Route where
  link0 : Nat
  link1 : Nat
  hops : Nat
  deriving DecidableEq, Repr

/-- STATE of SPN_PAIR_g. -/
inductive PairState where
  | none | pending | active | unreachable | resync
  deriving DecidableEq, Repr

structure Pair where
  state : PairState := .none
  policy : BitVec 3 := 0
  unit : BitVec 10 := 0
  partner : BitVec 8 := 0
  timeout : Nat := 0
  /-- The partner identity of SPAN_PAIR_SET; the Device Identity Key point and the transport ECDH key that its
  PAIR_HELLO brought (R541, R544). -/
  identity : Bytes := []
  point : Bytes := []
  transport : Bytes := []
  pending : List Nat := []
  replSent : Nat := 0
  replApplied : Nat := 0
  /-- Slot of the REPLICA in flight with its REPL_SEQ and the tick of its sending. -/
  inFlight : List (Nat × Nat × Nat) := []
  lastMsg : Nat := 0
  lastHello : Nat := 0
  lastBeat : Nat := 0
  deriving DecidableEq, Repr

/-- A request that waits for a reply (R540). -/
structure SpanReq where
  tseq : Nat
  epoch : Nat
  dst : Nat
  cls : Nat
  tick : Nat
  gal : Nat := 0
  job : Option Nat := none
  sq : Option Nat := none
  deriving DecidableEq, Repr

/-- A message to be sent, at the earliest in the tick named. -/
structure SpanMsg where
  tick : Nat
  bytes : Bytes
  deriving DecidableEq, Repr

/-- A job that the partner's PAIR_EXEC started here (R548). -/
structure Partner where
  job : Nat
  src : Nat
  tseq : Nat
  dispatch : Nat
  gallery : Nat
  deriving DecidableEq, Repr

structure Span where
  links : Tab Link := []
  topo : Tab (Option Topo) := []
  topoLoaded : Bool := false
  routes : Tab (Option Route) := []
  routesLoaded : Bool := false
  dropEpoch : BitVec 31 := 0
  dropLate : BitVec 31 := 0
  dropBuffer : BitVec 31 := 0
  dropRoute : BitVec 31 := 0
  replRefused : BitVec 31 := 0
  pairMismatch : BitVec 31 := 0
  pairLost : BitVec 31 := 0
  pairs : Tab Pair := []
  tseq : Nat := 0
  reqs : List SpanReq := []
  partners : List Partner := []
  /-- Messages of the part that leave in slot 0 of the tick named. -/
  outbox : List SpanMsg := []
  /-- Rebuilt messages for this unit that wait in Span buffers (R524). -/
  inbox : List Bytes := []
  /-- A running SPAN_ECHO: messages sent, returned unchanged, first that differs. -/
  echo : Nat × Nat × Option Nat := (0, 0, none)
  /-- Replicas that wait for the next changes step (R304, R545). -/
  replicas : List Bytes := []
  deriving DecidableEq, Repr

structure Chain where
  valid : Bool := false
  addr : BitVec 16 := 0
  epoch : BitVec 16 := 0
  count : BitVec 11 := 0
  rollFail : Bool := false
  /-- A roll call in progress: its pass, deadline, queue. -/
  roll : Option (Nat × Nat × Nat) := none
  frameErr : BitVec 31 := 0
  head : Bool := false
  /-- Ticks since a frame with a good CRC arrived (R553); 1,000 and above: none. -/
  lastFrame : Option Nat := none
  deriving DecidableEq, Repr

/-! ### Host ports (spec/20) and SPDM (spec/12) -/

structure FnCfg where
  busMaster : Bool := false
  msixEn : Bool := false
  fnMask : Bool := false
  /-- End of a function-level reset in progress (R561). -/
  flrEnd : Option Nat := none
  deriving DecidableEq, Repr

structure SpdmSession where
  id : Byte
  /-- FINISH has been accepted. -/
  ready : Bool := false
  /-- The handshake secret, then the master secret; and the transcript up to KEY_EXCHANGE_RSP. -/
  key : Bytes
  th : Bytes := []
  updates : Nat := 0
  deriving DecidableEq, Repr

structure Port where
  linkUp : Bool := false
  rate : BitVec 3 := 0
  width : BitVec 5 := 0
  flit : Bool := false
  loop : Bool := false
  ideSecure : BitVec 5 := 0
  ideReq : BitVec 5 := 0
  ideFail : BitVec 31 := 0
  ideKeys : List Bytes := []
  vfEnable : Bool := false
  numVfs : Byte := 0
  perstLow : Bool := false
  /-- The first tick in which the port trains again after `PERST_x_N` rose (R598). -/
  trainFrom : Nat := 0
  /-- The port may train (R598, R557). -/
  mayTrain : Bool := false
  fns : Tab FnCfg := []
  /-- SPDM negotiation: 0 none, 1 version, 2 capabilities, 3 algorithms. -/
  spdm : Nat := 0
  transcript : Bytes := []
  sessions : List SpdmSession := []
  deriving DecidableEq, Repr

/-- An MSI-X table entry (R558). -/
structure Msix where
  addr : BitVec 64 := 0
  data : Word := 0
  mask : Bool := true
  deriving DecidableEq, Repr

structure HostPorts where
  port : Two Port := ⟨{}, {}⟩
  vecVf : BitVec 8 := 7
  vecPf : BitVec 12 := 64
  /-- HST_LOSS of each port. -/
  loss : Two (BitVec 31) := ⟨0, 0⟩
  /-- Tables and pending bits by 2048 * function + vector (R560). A pending bit keeps the ports that the message waits on
  (R133); the pending-bit array shows it as one (entry 9). -/
  msix : Tab Msix := []
  pend : Tab (Two Bool) := []
  deriving DecidableEq, Repr

/-! ### Power and reset (spec/21) -/

/-- Where the start sequencer of R583 stands. -/
inductive StartPhase where
  /-- No feed valid: cell-only operation or unpowered. -/
  | off
  | step1
  /-- Before step 2 while SYS_RESET_N is low or FT_EN is high. -/
  | held
  | step2 | step3 | step4
  /-- Halves pour or serve. -/
  | step5
  /-- BLANK after a failed first start, END OF LIFE, NO_MOULD or DEVICE_HOLD: boot ROM serves the recovery port. -/
  | recovery
  deriving DecidableEq, Repr

structure Feed where
  valid : Bool := true
  good : BitVec 6 := 0b111111
  lowSeen : BitVec 6 := 0
  refclk : Bool := true
  /-- R573: the feed rose too slowly; it stays not valid until it falls and rises again. -/
  failedRise : Bool := false
  deriving DecidableEq, Repr

structure Power where
  feed : Two Feed := ⟨{}, {}⟩
  phase : StartPhase := .step2
  sysResetLow : Bool := false
  ftEn : Bool := false
  chnHeadPin : Bool := false
  vcardC : Bool := false
  vcardOk : Bool := true
  vcell : Bool := true
  cellOnly : Bool := false
  cellOnlySeen : Bool := false
  cellLow : Bool := false
  vqrOk : Bool := false
  vqrMv : BitVec 12 := 0
  vcellMv : BitVec 12 := 0
  switchovers : BitVec 31 := 0
  cause : BitVec 4 := 0
  halfResets : Two (BitVec 8) := ⟨0, 0⟩
  watts : Two (BitVec 16) := ⟨0, 0⟩
  wattsAtrium : BitVec 16 := 0
  deriving DecidableEq, Repr

/-! ### Memories and the whole state -/

/-- A byte memory: rising addresses, no byte equal to what an unlisted address reads as, which is zero. -/
abbrev Memory := List Host.Cell

/-- Byte memories of the internal address map (R387). -/
structure Memories where
  reserve : Memory := []
  floor : Two Memory := ⟨[], []⟩
  mram : Two Memory := ⟨[], []⟩
  deriving DecidableEq, Repr

/-- What the part drives on the balls of a custodian port (R320, R324): power, IO in reception, clock, reset. -/
inductive CardPin where
  | pwrEn (high : Bool)
  | io (reception : Bool)
  | clk (runs : Bool)
  | rst (high : Bool)
  deriving DecidableEq, Repr

/-- What the part sent on an interface other than the host ports in the current tick. -/
structure Outputs where
  host : List HostOut := []
  card : List (Nat × Bytes) := []
  cardPins : List (Nat × CardPin) := []
  /-- Command frames and data blocks on `ARC_n_CMD` and `ARC_n_DAT` (R341). -/
  sd : List (Nat × Bytes) := []
  arc : List (Nat × Nat × Bytes) := []
  chain : List Bytes := []
  span : List Bytes := []
  flits : List (Nat × Bytes) := []
  doe : Bytes := []
  deriving DecidableEq, Repr

/-- The state of the part. `pending`: commands that wait, first in first out. `freeCtr`: selects the next free value.
`response`: what the last read or capture returned. -/
structure State where
  pending : List Instr := []
  freeCtr : Nat := 0
  response : Word := 0
  out : Outputs := {}
  atr : AtrRegs := {}
  gen : TickGen := {}
  pwr : Power := {}
  mld : MouldState := {}
  gals : Tab Gal := []
  galv : Tab GalVol := []
  mbxSel : Byte := 0
  mbxPending : BitVec 256 := 0
  mbxAcked : BitVec 256 := 0
  sqs : Tab Sq := []
  cqs : Tab Cq := []
  reads : List ReadReq := []
  nextRid : Nat := 0
  jobs : List Job := []
  nextJob : Nat := 0
  adm : List AdminCmd := []
  nextSeq : Nat := 0
  lanes : LaneRegs := {}
  cup : Cupola := {}
  srm : Strongroom := {}
  cus : Custodians := {}
  arc : Archive := {}
  lcs : LifeCycle := {}
  wld : Worlds := {}
  lcu : Lcu := {}
  cores : List CoreSt := List.replicate 9 {}
  rng : Entropy := {}
  flt : Faults := {}
  tmp : Tamper := {}
  rcd : Recorder := {}
  spn : Span := {}
  chn : Chain := {}
  hst : HostPorts := {}
  mem : Memories := {}
  deriving DecidableEq, Repr

/-- The records of gallery 0 at manufacture (R91). -/
def Gal.curator : Gal :=
  { state := .active, units := ⟨32, 32⟩, cupola := 16, sqLimit := 4, cqLimit := 4 }

/-- Lowest class of each source of the status word (R469): 0 corrected, 1 contained, 2 fatal. -/
def lowestClass (n : Nat) : Nat :=
  if n < 16 then nth 0 [2, 1, 0, 0, 1, 1, 0, 1, 0, 0, 0, 0, 0, 1, 1, 2] n
  else nth 0 [0, 1, 0, 1, 0, 1, 0, 0, 0, 0, 0, 0, 1, 1, 1, 0, 0, 0, 1, 1, 1] ((n - 16) % 24)

/-- One monitor of R489: its domain (0 Atrium, 1 Cope, 2 Drag), response floor, greatest `COUNT`, whether it runs in
cell-only operation. -/
structure MonitorInfo where
  dom : Nat
  floor : Nat
  maxCount : Nat
  cell : Bool

/-- The monitors by number (R489). -/
def monitorInfo (m : Nat) : Option MonitorInfo :=
  if m ≤ 0x04 then some ⟨1, 0, 16, false⟩
  else if m = 0x05 || m = 0x0D || m = 0x10 || m = 0x11 then some ⟨0, 0, 16, false⟩
  else if 0x08 ≤ m && m ≤ 0x0C then some ⟨2, 0, 16, false⟩
  else if m = 0x12 || m = 0x13 then some ⟨0, 2, 16, false⟩
  else if m = 0x14 || m = 0x15 then some ⟨0, 0, 16, true⟩
  else if m = 0x20 || m = 0x23 then some ⟨1, 1, 16, false⟩
  else if m = 0x21 || m = 0x24 then some ⟨2, 1, 16, false⟩
  else if m = 0x22 then some ⟨0, 2, 16, false⟩
  else if 0x30 ≤ m && m ≤ 0x37 then some ⟨1, 0, 255, false⟩
  else if 0x38 ≤ m && m ≤ 0x3F then some ⟨2, 0, 255, false⟩
  else if 0x40 ≤ m && m ≤ 0x43 then some ⟨0, 0, 255, true⟩
  else if 0x50 ≤ m && m ≤ 0x6F then some ⟨1, 1, 4, m % 4 = 0⟩
  else if 0x70 ≤ m && m ≤ 0x8F then some ⟨2, 1, 4, m % 4 = 0⟩
  else if 0x90 ≤ m && m ≤ 0x97 then some ⟨0, 3, 2, true⟩
  else if m = 0xA0 then some ⟨1, 1, 8, false⟩
  else if m = 0xA1 then some ⟨2, 1, 8, false⟩
  else if m = 0xA2 then some ⟨0, 2, 8, false⟩
  else if 0xB0 ≤ m && m ≤ 0xC0 then some ⟨0, 0, 2, true⟩
  else none

/-- The monitors' numbers in ascending order. -/
def monitorNos : List Nat := (List.range 0xC1).filter fun m => (monitorInfo m).isSome

/-- Every monitor at its floor with `COUNT` and `WINDOW` 1 (R489, R491). -/
def resetMonitors : Tab Monitor :=
  monitorNos.filterMap fun m => match monitorInfo m with
    | some i => if i.floor = 0 then none else some (m, { response := BitVec.ofNat 2 i.floor })
    | none => none

/-- Every fault source at its lowest class before an Atrium pour (entry 8). -/
def resetSources : Tab FaultSrc :=
  (List.range 64).filterMap fun n =>
    if lowestClass n = 0 then none else some (n, { cls := BitVec.ofNat 2 (lowestClass n) })

/-- Default rights of the gates (R393): R_WR, S_WR and P_WR in bits 1:0, 3:2 and 5:4. -/
def resetGates : Tab Gate :=
  [(0, ⟨0b001111, false, false⟩), (1, ⟨0b000111, false, false⟩), (2, ⟨0b001111, false, false⟩),
    (3, ⟨0b001111, false, false⟩), (4, ⟨0b001111, false, false⟩), (5, ⟨0b001111, false, false⟩),
    (6, ⟨0b001111, false, false⟩), (7, ⟨0b010111, false, false⟩), (8, ⟨0b000011, false, false⟩),
    (9, ⟨0b000111, false, false⟩), (10, ⟨0b000111, false, false⟩)]

/-- The part right after reset: every register at its Reset column; gallery 0 as R91 gives; fuses, MRAM and cell domain
as a part with nothing written (entries 2, 3 and 4 of the assumption log). -/
def State.reset : State :=
  { gals := [(0, Gal.curator)], wld := { gates := resetGates }, tmp := { mon := resetMonitors }, flt := { src := resetSources } }

end Sys2Proof.Machine
end

