-- ==== Sys2Proof/Machine/Ops.lean ====
section
/-!
DEFINITION. Named operations over the state: accessors, free values, outputs, interrupts, events, byte memories.
-/
namespace Sys2Proof.Machine

/-- The outcome of a command that runs. -/
abbrev Out := Host.Outcome State Fault Refusal

/-! ### Time -/

/-- The tick count (R51). -/
def tick (s : State) : Nat := s.gen.a.toNat

/-- Ticks in a share period and the position in it (R37). -/
def periodPos (s : State) : Nat := tick s % 128

def serving (s : State) (h : Half) : Bool := s.atr.half.get h == .serving

def anyServing (s : State) : Bool := serving s .cope || serving s .drag

/-- A half is poured while it runs a Mould. -/
def halfCfg (s : State) (h : Half) : Option HalfCfg := (s.mld.runHalf.get h).map (·.halves.get h)

def limits (s : State) : Limits := (s.mld.runAtrium.map (·.atrium.limits)).getD {}

/-! ### Free values (entry 5) -/

/-- `n` bytes of the next free value. -/
def freeBytes (s : State) (n : Nat) : Bytes := tabulate n (Config.freeByte s.freeCtr)

def bump (s : State) : State := { s with freeCtr := s.freeCtr + 1 }

/-- Draw `k` of the next free value: draws of one step are told apart by the byte index. -/
def freeBytesAt (s : State) (k n : Nat) : Bytes := tabulate n fun i => Config.freeByte s.freeCtr (65536 * k + i)

def freeBit (s : State) : Bool := (Config.freeByte s.freeCtr 0).getLsbD 0

/-! ### Tables -/

def gal (s : State) (g : Nat) : Gal := s.gals.get {} g
def setGal (s : State) (g : Nat) (x : Gal) : State := { s with gals := s.gals.put {} g x }
def updGal (s : State) (g : Nat) (f : Gal → Gal) : State := setGal s g (f (gal s g))

def gv (s : State) (g : Nat) : GalVol := s.galv.get {} g
def setGv (s : State) (g : Nat) (x : GalVol) : State := { s with galv := s.galv.put {} g x }
def updGv (s : State) (g : Nat) (f : GalVol → GalVol) : State := setGv s g (f (gv s g))

/-- Queues are numbered 64 * gallery + index. -/
def qkey (g q : Nat) : Nat := 64 * g + q

def sq (s : State) (k : Nat) : Sq := s.sqs.get {} k
def setSq (s : State) (k : Nat) (x : Sq) : State := { s with sqs := s.sqs.put {} k x }
def updSq (s : State) (k : Nat) (f : Sq → Sq) : State := setSq s k (f (sq s k))

def cq (s : State) (k : Nat) : Cq := s.cqs.get {} k
def setCq (s : State) (k : Nat) (x : Cq) : State := { s with cqs := s.cqs.put {} k x }
def updCq (s : State) (k : Nat) (f : Cq → Cq) : State := setCq s k (f (cq s k))

/-- The completion queue of a submission queue. -/
def cqKey (s : State) (k : Nat) : Nat := qkey (k / 64) (sq s k).cq

def job (s : State) (id : Nat) : Option Job := s.jobs.find? (·.id == id)
def updJob (s : State) (id : Nat) (f : Job → Job) : State :=
  { s with jobs := s.jobs.map fun j => if j.id = id then f j else j }
def dropJob (s : State) (id : Nat) : State := { s with jobs := s.jobs.filter (·.id != id) }

/-- The galleries that the tables list, in ascending number. -/
def galleries (s : State) : List Nat := s.gals.map (·.1)

def activeGalleries (s : State) : List Nat :=
  (s.gals.filter fun e => e.2.state == .active).map (·.1)

def fnCfg (s : State) (p : Half) (fn : Nat) : FnCfg := (s.hst.port.get p).fns.get {} fn
def updPort (s : State) (p : Half) (f : Port → Port) : State :=
  { s with hst := { s.hst with port := s.hst.port.upd p f } }
def updFn (s : State) (p : Half) (fn : Nat) (f : FnCfg → FnCfg) : State :=
  updPort s p fun x => { x with fns := x.fns.upd {} fn f }

def core (s : State) (c : Nat) : CoreSt := nth {} s.cores c
def updCore (s : State) (c : Nat) (f : CoreSt → CoreSt) : State := { s with cores := updNth s.cores c f }

/-- Register w`r` of a core (R417): w0 reads as zero. -/
def CoreSt.getW (c : CoreSt) (r : BitVec 5) : Word := if r = 0 then 0 else nth 0 c.w (r.toNat - 1)

/-- A write of w`r`: a write of w0 is discarded (R417). -/
def CoreSt.setW (c : CoreSt) (r : BitVec 5) (v : Word) : CoreSt :=
  if r = 0 then c else { c with w := setNth c.w (r.toNat - 1) v }

/-- The operation of a Cupola unit leaves it (R264, R276). -/
def CupUnit.free (u : CupUnit) : CupUnit :=
  { u with op := none, mask := false
           left := match u.op with
             | some o => if o.job.isSome && 1 ≤ o.age then some o.gal else u.left
             | none => u.left }

/-- Byte `o` of the operand memory of unit `u` (0 to 17). -/
def opByte (s : State) (u o : Nat) : Byte :=
  let m := s.cup.mem.get {} u
  (m.cells.get none o).getD (if m.clear then 0 else Config.freeByte m.seed (65536 * (64 + u) + o))

/-- The whole operand memory of unit `u` is overwritten with masked values and random fill: free values (R276). -/
def fillOp (s : State) (u : Nat) : State := { s with cup := { s.cup with mem := s.cup.mem.put {} u { seed := s.freeCtr } } }

/-- Step 1 of a half pour clears the half's operand memories (R277). -/
def clearOps (s : State) (h : Half) : State :=
  { s with cup := { s.cup with mem := (List.range 9).foldl (fun t u => t.put {} (9 * halfNo h + u) { clear := true }) s.cup.mem } }

/-- Bytes written to the operand memory of unit `u` from offset `o` on. -/
def writeOp (s : State) (u o : Nat) (b : Bytes) : State :=
  { s with cup := { s.cup with mem := s.cup.mem.upd {} u fun m =>
      { m with cells := (List.range b.length).foldl (fun t i => t.put none (o + i) (b[i]?)) m.cells } } }

/-! ### Outputs -/

def emit (s : State) (o : HostOut) : State := { s with out := { s.out with host := s.out.host ++ [o] } }

/-- A message of a function's vector through one port (R133, R101, R560): sent while the function is enabled and the
vector unmasked, held as a pending bit while it is masked (entry 9). -/
def raiseOn (s : State) (p : Half) (fn vec : Nat) : State :=
  let f := fnCfg s p fn
  if serving s p && (s.hst.port.get p).linkUp && f.msixEn then
    if f.fnMask || !f.busMaster || (s.hst.msix.get {} (2048 * fn + vec)).mask then
      { s with hst := { s.hst with pend := s.hst.pend.upd ⟨false, false⟩ (2048 * fn + vec) fun t => t.set p true } }
    else emit s (.msix p fn vec)
  else s

/-- A vector raised on every serving port (R25, R101). -/
def raise (s : State) (fn vec : Nat) : State := raiseOn (raiseOn s .cope fn vec) .drag fn vec

/-- The vectors of function `fn` whose condition holds are raised through port `p`, which begins to carry them: an enabled bit of
ATR_EVENT or GAL_ST_EVENT (R25, R104), a bit of GAL_MBX_PENDING or GAL_MBX_ACKED (R103). -/
def assertFn (s : State) (p : Half) (fn : Nat) : State :=
  let v := gv s fn
  let s := if v.event &&& v.eventEn ≠ 0 || (fn = 0 && s.atr.event &&& s.atr.eventEn ≠ 0) then raiseOn s p fn 0 else s
  if fn = 0 && (s.mbxPending ≠ 0 || s.mbxAcked ≠ 0) then raiseOn s p 0 1 else s

/-- Port `p` begins to carry messages: its half serves, or its link is up. -/
def assertPort (s : State) (p : Half) : State :=
  (((s.hst.port.get p).fns.filter (·.2.msixEn)).map (·.1)).foldl (fun s fn => assertFn s p fn) s

/-- Set bits of ATR_EVENT (R25). -/
def atrEvent (s : State) (b : BitVec 5) : State :=
  let s := { s with atr := { s.atr with event := s.atr.event ||| b } }
  if b &&& s.atr.eventEn = 0 then s else raise s 0 0

/-- Set bits of a gallery's GAL_ST_EVENT (R104). -/
def galEvent (s : State) (g : Nat) (b : BitVec 6) : State :=
  let s := updGv s g fun v => { v with event := v.event ||| b }
  if b &&& (gv s g).eventEn = 0 then s else raise s g 0

/-- A core in WFT goes on when an enabled line is pending; the tick count goes to the register of its WFT (R438). -/
def CoreSt.wake (c : CoreSt) (t : BitVec 56) : CoreSt :=
  match c.waiting with
  | some r => if c.ip &&& c.ien = 0 then c else { c.setW r (t.setWidth 32) with waiting := none }
  | none => c

/-- Interrupt line `n` on the cores of `cs` (R447). -/
def setIp (s : State) (cs : List Nat) (n : Nat) : State :=
  { s with cores := cs.foldl (fun l c => updNth l c fun x => { x with ip := setBit x.ip n true }.wake s.gen.a) s.cores }

def satInc31 (c : BitVec 31) : BitVec 31 := if c = BitVec.allOnes 31 then c else c + 1

/-- A state of a half, with its change bit in ATR_EVENT (R24). A port whose half begins to serve carries what is pending. -/
def setHalf (s : State) (h : Half) (v : HalfState) : State :=
  if s.atr.half.get h = v then s
  else
    let s := { s with atr := { s.atr with half := s.atr.half.set h v } }
    atrEvent (if v = .serving then assertPort s h else s) (match h with | .cope => 1 | .drag => 2)

/-! ### Status codes (R143) -/

def Status.code : Status → Nat
  | .done => 0x00 | .tagMismatch => 0x01 | .verifyFail => 0x02
  | .keyRefused => 0x10 | .slotEmpty => 0x11 | .slotBad => 0x12 | .keyblockInvalid => 0x13 | .keyblockRefused => 0x14
  | .badInput => 0x20 | .badLength => 0x21 | .badPattern => 0x22 | .badChain => 0x23 | .outputShort => 0x24
  | .noEntropy => 0x30 | .faultUnresolved => 0x31
  | .pairMismatch => 0x38 | .pairLost => 0x39
  | .queueDestroyed => 0x40 | .aborted => 0x41 | .reserveBusy => 0x42 | .notAuthorised => 0x43
  | .counterStale => 0x44 | .quota => 0x45 | .dmaError => 0x50

/-- The status of a code that a program may report (R408). -/
def Status.ofProgram (n : Nat) : Option Status :=
  [Status.done, .tagMismatch, .verifyFail, .keyRefused, .slotEmpty, .slotBad, .keyblockInvalid, .keyblockRefused,
    .badInput, .badLength, .outputShort].find? (·.code == n)

/-! ### Byte memories (R387) -/

/-- The canonical form: rising addresses from `lo`, no zero byte. -/
def Memory.wfFrom : Nat → Memory → Bool
  | _, [] => true
  | lo, (a, b) :: t => decide (lo ≤ a) && decide (b ≠ 0) && Memory.wfFrom (a + 1) t

def Memory.wf (m : Memory) : Bool := Memory.wfFrom 0 m

/-- An unlisted byte reads as zero (R583 step 2, half pour step 1; entry 10 for MRAM). -/
def Memory.read : Memory → Nat → Byte
  | [], _ => 0
  | (a, b) :: t, k => if a = k then b else Memory.read t k

/-- Insertion before the first greater address. -/
def Memory.insert : Memory → Nat → Byte → Memory
  | [], k, v => [(k, v)]
  | (a, b) :: t, k, v => if k < a then (k, v) :: (a, b) :: t else (a, b) :: Memory.insert t k v

/-- One byte written; a zero byte is not listed. -/
def Memory.write (m : Memory) (k : Nat) (v : Byte) : Memory :=
  let m := m.filter fun c => c.1 ≠ k
  if v = 0 then m else Memory.insert m k v

def Memory.readN (m : Memory) (a n : Nat) : Bytes := tabulate n fun i => m.read (a + i)

def Memory.writeN (m : Memory) (a : Nat) : Bytes → Memory
  | [] => m
  | b :: t => Memory.writeN (m.write a b) (a + 1) t

/-- Zeros in `[a, a + n)`. -/
def Memory.clear (m : Memory) (a n : Nat) : Memory := m.filter fun c => c.1 < a || a + n ≤ c.1

end Sys2Proof.Machine
end

