-- ==== Sys2Proof/Machine/Rings.lean ====
section
/-!
DEFINITION. Submission and completion queues: indices, entries, the port that serves a queue, holds, completions and
their issue, batches, destruction (spec/05, R561 to R566).
-/
namespace Sys2Proof.Machine

/-! ### Indices (R105, R106) -/

/-- The modulus 2D of a queue's indices. -/
def modulus (log2 : Nat) : Nat := 2 * 2 ^ log2

/-- Entries between consumer index `c` and producer index `p`. -/
def ringCount (log2 p c : Nat) : Nat := (p + modulus log2 - c % modulus log2) % modulus log2

def Sq.count (q : Sq) (p : Nat) : Nat := ringCount q.depthLog2 p q.ci

def Cq.full (c : Cq) : Bool := ringCount c.depthLog2 c.pi c.ci == 2 ^ c.depthLog2

/-- The host address of entry `i` (R105). -/
def entryAddr (base : BitVec 64) (log2 size i : Nat) : BitVec 64 := base + BitVec.ofNat 64 (size * (i % 2 ^ log2))

/-- The consumer index after passing every range that starts where it stands (R119). -/
def advanceGo (m : Nat) (rs : List (Nat × Nat)) : Nat → Nat → Nat
  | 0, c => c
  | f + 1, c =>
    match rs.find? (·.1 == c) with
    | some (_, n) => if n = 0 then c else advanceGo m rs f ((c + n) % m)
    | none => c

def advance (log2 : Nat) (rs : List (Nat × Nat)) (c : Nat) : Nat := advanceGo (modulus log2) rs rs.length c

/-- Ranges still ahead of consumer index `c`, which moved there from `c0`. -/
def keepAhead (log2 : Nat) (rs : List (Nat × Nat)) (c0 c : Nat) : List (Nat × Nat) :=
  rs.filter fun r => ringCount log2 c c0 ≤ ringCount log2 r.1 c0

/-! ### The port that serves a queue (R563, R564) -/

def fnEnabled (s : State) (p : Half) (fn : Nat) : Bool :=
  fn = 0 || ((s.hst.port.get p).vfEnable && fn ≤ (s.hst.port.get p).numVfs.toNat)

/-- A port is usable for a function (R563). -/
def usable (s : State) (p : Half) (fn : Nat) : Bool :=
  let x := s.hst.port.get p
  serving s p && x.linkUp && x.ideReq &&& ~~~x.ideSecure == 0 && fnEnabled s p fn &&
    (fnCfg s p fn).busMaster && (fnCfg s p fn).flrEnd.isNone && !x.loop

/-- The port through which a queue of gallery `g` is served (R564); `away`: it has not returned to its bound port. -/
def servedPort (s : State) (g : Nat) (bound : Half) (away : Bool) : Option Half :=
  if usable s bound g && !away then some bound
  else if (gal s g).dual && usable s (other bound) g then some (other bound)
  else if usable s bound g && !(gal s g).dual then some bound
  else none

def sqPort (s : State) (k : Nat) : Option Half := servedPort s (k / 64) (sq s k).port (sq s k).away

def cqPort (s : State) (k : Nat) : Option Half := servedPort s (k / 64) (cq s k).port (cq s k).away

/-! ### Holds and completions (R117 to R129) -/

def holdFree (c : Cq) : Nat := 2 ^ c.holdLog2 - c.used

/-- Reserve `n` hold entries of completion queue `k` (R127). -/
def reserve (s : State) (k n : Nat) : State := updCq s k fun c => { c with used := c.used + n }

def release (s : State) (k n : Nat) : State := updCq s k fun c => { c with used := c.used - n }

/-- Order of production (R129): tick, submission-queue identifier, entry index. -/
def Held.before (a b : Held) : Bool :=
  a.tick < b.tick || (a.tick = b.tick && (a.sqId < b.sqId || (a.sqId = b.sqId && a.index < b.index)))

def countStale (s : State) (k n : Nat) : State :=
  updCq s k fun c => { c with stale := Nat.min 65535 (c.stale + n) }

/-- A completion of queue `k`'s generation `gen` enters the hold; one of another generation, or without a completion
queue, is discarded and counted (R136). `reserved`: its hold entry is reserved already. -/
def produce (s : State) (k : Nat) (gen : BitVec 4) (reserved : Bool) (h : Held) : State :=
  let q := sq s k
  let ck := cqKey s k
  if q.exist && q.gen = gen && (cq s ck).exist then
    updCq s ck fun c =>
      { c with hold := insertBy Held.before { h with sq := k, sqId := q.id, sqGen := gen.toNat } c.hold
               used := if reserved || h.silent then c.used else c.used + 1 }
  else countStale s ck (if h.silent then 0 else 1)

/-- Bytes of a completion entry (R117). -/
def Held.bytes (h : Held) : Bytes :=
  le 2 h.cmdId ++ le 1 h.status.code ++ le 1 (b2n h.fBatch + 2 * b2n h.fChain + 4 * b2n h.fFlush) ++
    le 2 (h.sqId + 4096 * h.sqGen) ++ le 2 h.detail ++ le 4 h.sqCi ++ le 4 h.outCount ++ padTo 16 h.result

/-! ### Batches (R124, R125) -/

def updBatch (q : Sq) (id : Nat) (f : BatchJob → BatchJob) : Sq :=
  { q with batches := q.batches.map fun b =>
      { b with members := b.members.map fun m => if m.job = id then f m else m } }

def Step.cmdId (e : Step) : Nat := leAt e.entry 4 2

/-- The CMD_ID and the index of a job's last entry, which carries a chain's flags (R117, R122). -/
def lastEntry (s : State) (j : Job) : Nat × Nat :=
  ((nth {} j.steps (j.steps.length - 1)).cmdId, (j.index + (j.count - 1)) % modulus (sq s j.sq).depthLog2)

/-- A job with BATCH joins the open batch of its queue, which its BATCH_END job ends. -/
def joinBatch (s : State) (j : Job) : State :=
  if j.batch && !j.again then
    let m : BatchJob := { job := j.id, index := j.index, count := j.count }
    let fin := if j.batchEnd then some (lastEntry s j) else none
    updSq s j.sq fun q =>
      if q.batches.any fun b => b.ended.isNone then
        { q with batches := q.batches.map fun b =>
            if b.ended.isNone then { b with members := b.members ++ [m], ended := fin } else b }
      else { q with batches := q.batches ++ [{ members := [m], ended := fin }] }
  else s

def Batch.done (b : Batch) : Bool := b.ended.isSome && !b.produced && b.members.all fun m => m.ok.isSome

/-- The batch completion (R125, R118). -/
def Batch.held (b : Batch) (t : Nat) : Held :=
  { cmdId := (b.ended.getD (0, 0)).1, index := (b.ended.getD (0, 0)).2, fBatch := true, tick := t
    detail := (b.members.filter fun m => m.ok == some false).length, outCount := b.members.length
    covers := b.members.map fun m => (m.index, m.count), jobs := b.members.map (·.job) }

/-- The completion of every batch of queue `k` whose jobs have all completed. -/
def endBatches (s : State) (k t : Nat) : State :=
  let q := sq s k
  let s := q.batches.foldl (fun s b => if b.done then produce s k q.gen true (b.held t) else s) s
  let ends := (q.batches.filter (·.done)).flatMap fun b => b.members.map (·.job)
  let s := ends.foldl (fun s id => updJob s id fun j => { j with hold := 0 }) s
  updSq s k fun q => { q with batches := q.batches.map fun b => if b.done then { b with produced := true } else b }

/-! ### Completing jobs -/

def Job.cmdId (j : Job) : Nat := if j.cmdUnread then 0xFFFF else (nth {} j.steps 0).cmdId

def setDone (j : Job) (outs : List (BitVec 64 × Bytes)) : Job :=
  { j with phase := .finished, outs, outSent := outs.isEmpty, delivered := outs.isEmpty, book := none, book2 := none, book3 := none
           computed := none }

/-- Hold entries that the job has for its own completion, beside that of the batch which it ends (R127). -/
def Job.own (j : Job) : Nat := j.hold - b2n j.batchEnd

/-- A queue's job completes (R118, R124): its completion, or a batch job's output writes, may be issued from tick `t`. -/
def completeJob (s : State) (id : Nat) (st : Status) (detail outCount : Nat) (result : Bytes)
    (outs : List (BitVec 64 × Bytes)) (fChain : Bool) (t : Nat) : State :=
  match job s id with
  | none => s
  | some j =>
    let s : State := if st = .faultUnresolved && j.phase == .cupola then { s with cup := { s.cup with unresolved := satInc31 s.cup.unresolved } } else s
    let s := updJob s id (fun j => setDone j outs)
    let h : Held :=
      { cmdId := j.cmdId, status := st, fChain, detail, outCount, result, outs, job := some id, tick := t
        index := j.index, covers := [(j.index, j.count)], jobs := [id] }
    if j.batch then
      let s := if st = .done then
          let s := if outs.isEmpty then s else produce s j.sq j.sqGen true { h with silent := true, covers := [], jobs := [] }
          release s (cqKey s j.sq) j.own
        else produce s j.sq j.sqGen (0 < j.own) { h with covers := [], jobs := [] }
      let s := updJob s id fun j => { j with hold := j.hold - j.own }
      endBatches (updSq s j.sq fun q => updBatch q id fun m => { m with ok := some (st = .done) }) j.sq t
    else
      let s := produce s j.sq j.sqGen (0 < j.hold) h
      updJob s id fun j => { j with hold := 0 }

/-- A command's completion enters the hold in its reserved entry; when its queue is gone or of another generation, it is
discarded and counted at the completion queue that it names, and the entry is free again (R127, R136). -/
def produceAdmin (s : State) (c : AdminCmd) (h : Held) : State :=
  let s := { s with adm := s.adm.filter fun x => x.seq ≠ c.seq }
  let q := sq s (qkey c.gal c.sq)
  if q.exist && q.gen = c.sqGen then produce s (qkey c.gal c.sq) c.sqGen true h
  else
    let x := cq s c.cq
    countStale (if x.exist && x.gen = c.cqGen then release s c.cq 1 else s) c.cq 1

/-- An admin command completes; its completion may be issued from the next tick. -/
def completeAdmin (s : State) (c : AdminCmd) (st : Status) (detail outCount : Nat) (result : Bytes) : State :=
  produceAdmin s c
    { cmdId := if c.unread then 0xFFFF else leAt c.entry 4 2, status := st, detail, outCount, result
      tick := tick s + 1, index := c.index, covers := [(c.index, 1)] }

/-! ### Issue and written (R170) -/

/-- Output writes of an item through port `p`. -/
def emitOuts (s : State) (p : Half) (outs : List (BitVec 64 × Bytes)) : State :=
  outs.foldl (fun s o => if o.2.isEmpty then s else emit s (.write p o.1 o.2)) s

def markSent (s : State) (h : Held) : State :=
  match h.job with
  | some id => updJob s id fun j => { j with outSent := true }
  | none => s

/-- The submission queue's consumer index once `h` and every issued completion are written. -/
def issueCi (s : State) (c : Cq) (h : Held) : Nat :=
  let q := sq s h.sq
  let rs := (c.hold.filter fun x => x.issued && x.sq = h.sq).flatMap (·.covers)
  advance q.depthLog2 (q.covered ++ rs ++ h.covers) q.ci

/-- Replace the first item that satisfies `p`. -/
def updFirst {α : Type} (p : α → Bool) (f : α → α) : List α → List α
  | [] => []
  | a :: t => if p a then f a :: t else a :: updFirst p f t

/-- Take the first item that satisfies `p` out. -/
def takeFirst {α : Type} (p : α → Bool) : List α → List α
  | [] => []
  | a :: t => if p a then t else a :: takeFirst p t

/-- A completion of completion queue `k` that was produced after a flush that still waits in its queue's context (R129,
R139). -/
def afterKept (s : State) (k : Nat) (h : Held) : Bool :=
  s.sqs.any fun e => e.1 / 64 = k / 64 && e.2.exist && e.2.flushKept && e.2.cq = k % 64 && !h.silent &&
    (e.2.closeTick < h.tick || e.2.closeTick = h.tick && e.2.id < h.sqId)

/-- After the last completion that queue `k` can issue in this tick, the index mirror is written: GAL_CQ_PI once what is
issued is written (R131). -/
def mirrorWrite (s : State) (k : Nat) (p : Half) : State :=
  let c := cq s k
  let issued := (c.hold.filter (·.issued)).length
  let full := ringCount c.depthLog2 (c.pi + issued) c.ci = 2 ^ c.depthLog2
  if c.mirror && (full || !(c.hold.any fun h => !h.issued && !h.silent && h.tick ≤ tick s && !afterKept s k h)) then
    emit s (.write p c.mirrorAddr (le 4 ((c.pi + issued) % modulus c.depthLog2 + 2 ^ 28 * c.gen.toNat)))
  else s

/-- Issue the oldest item of completion queue `k` through port `p`: its output writes, then its completion, then the
mirror; while the queue is full or in ERROR the output writes alone (R128, R170). -/
def issueItem (s : State) (k : Nat) (p : Half) : State :=
  let c := cq s k
  let issued := (c.hold.filter (·.issued)).length
  let room := fun h : Held => !c.error && ringCount c.depthLog2 (c.pi + issued) c.ci < 2 ^ c.depthLog2 && !afterKept s k h
  let due := fun h : Held => !h.issued && h.tick ≤ tick s && (room h || !h.outsIssued && !h.outs.isEmpty)
  match c.hold.find? due with
  | none => s
  | some h =>
    let s := if h.outsIssued then s else markSent (emitOuts s p h.outs) h
    if h.silent then updCq s k fun c => { c with hold := takeFirst due c.hold }
    else if room h then
      let h' := { h with sqCi := issueCi s c h, outsIssued := true, issued := true }
      let s := emit s (.completion (k / 64) (k % 64) p
        (entryAddr c.base c.depthLog2 32 (c.pi + issued)) h'.bytes)
      mirrorWrite (updCq s k fun c => { c with hold := updFirst due (fun _ => h') c.hold }) k p
    else updCq s k fun c => { c with hold := updFirst due (fun h => { h with outsIssued := true }) c.hold }

/-- The batch whose completion is written ends. -/
def dropBatch (q : Sq) (h : Held) : Sq :=
  if h.fBatch then { q with batches := q.batches.filter fun b => !(b.produced && b.members.map (·.job) == h.jobs) } else q

/-- Effects of one written completion on its submission queue and jobs (R119, R170); the chain context of its job is cleared
(R114). -/
def coverWritten (s : State) (h : Held) : State :=
  let s := updSq s h.sq fun q =>
    let rs := q.covered ++ h.covers
    let ci := advance q.depthLog2 rs q.ci
    dropBatch { q with ci, covered := keepAhead q.depthLog2 rs q.ci ci, busy := q.busy && !(q.admin && !h.fFlush) } h
  let s := match h.job with
    | some id => updJob s id fun j => { j with ctx := {}, keys := [] }
    | none => s
  { s with jobs := s.jobs.filter fun j => !h.jobs.contains j.id }

/-- All completions of queue `k` count as signalled; its vector is raised (R132, R133). -/
def signalNow (s : State) (k : Nat) : State :=
  let c := cq s k
  let s := updCq s k fun c => { c with unsignalled := 0 }
  match cqPort s k with
  | some p => raiseOn s p (k / 64) c.vector
  | none => s

/-- The test of R132 at the end of a tick, for one queue; `all` false: of the moderation time alone. -/
def testCq (s : State) (k : Nat) (all : Bool) : State :=
  let c := cq s k
  if c.exist && c.intEn && 0 < c.unsignalled && !c.tested &&
      ((all && c.modCount ≤ c.unsignalled) || c.oldest + c.modTime ≤ tick s) then
    signalNow (updCq s k fun c => { c with tested := true }) k
  else s

/-- The end-of-tick test at the tick boundary; the next tick's test is to come. -/
def signalCq (s : State) (k : Nat) : State := updCq (testCq s k true) k fun c => { c with tested := false }

/-! ### Creation and destruction -/

def sqsOf (s : State) (g : Nat) : List Nat := (s.sqs.filter fun e => e.1 / 64 = g && e.2.exist).map (·.1)
def cqsOf (s : State) (g : Nat) : List Nat := (s.cqs.filter fun e => e.1 / 64 = g && e.2.exist).map (·.1)

def sqCount (s : State) : Nat := (s.sqs.filter (·.2.exist)).length
def cqCount (s : State) : Nat := (s.cqs.filter (·.2.exist)).length

/-- Hold entries of all queues (the pool of 49,152). -/
def holdSum (s : State) : Nat :=
  sumNat ((s.cqs.filter (·.2.exist)).map fun e => 2 ^ e.2.holdLog2)

/-- The least number below `n` that is not in `l` (R134). -/
def lowestFree (l : List Nat) (n : Nat) : Nat := ((List.range n).find? fun i => !l.contains i).getD 0

def freeSqId (s : State) : Nat := lowestFree ((s.sqs.filter (·.2.exist)).map (·.2.id)) 4096
def freeCqId (s : State) : Nat := lowestFree ((s.cqs.filter (·.2.exist)).map (·.2.id)) 4096

/-- Jobs of queue `k` of the origin `queue`. -/
def jobsOf (s : State) (k : Nat) : List Job := s.jobs.filter fun j => j.sq = k && j.origin == .queue

def Job.unconfirmed (j : Job) : Bool := j.phase == .reading || j.phase == .ruled

/-- Entries read but not confirmed are quenched (R138, R141): reads, jobs, the open chain, the predictor. -/
def dropUnread (s : State) (k : Nat) : State :=
  let gone := ((jobsOf s k).filter fun j => j.unconfirmed && !j.again).map (·.id)
  let s := { s with
    reads := s.reads.filter (fun r => match r.what with
      | .entry q _ => q ≠ k
      | .input j _ _ _ _ => !gone.contains j)
    jobs := s.jobs.filter (fun j => !gone.contains j.id)
    adm := s.adm.filter (fun c => !(qkey c.gal c.sq = k && c.phase == .read)) }
  let s := updSq s k fun q => { q with chainBuf := [], openChain := false, aside := false, predictor := [], rd := q.ci }
  updGv s (k / 64) fun v => { v with chainSq := v.chainSq.map fun c => if c = some (k % 64) then none else c }

/-- Discard every held completion of submission queue `k`, counted under R136. -/
def discardHeld (s : State) (k : Nat) : State :=
  let ck := cqKey s k
  let n := ((cq s ck).hold.filter fun h => h.sq = k && !h.silent).length
  let s := updCq s ck fun c => { c with hold := c.hold.filter (·.sq ≠ k), used := c.used - n }
  countStale s ck n

/-- Release the hold entries that jobs of queue `k` still reserve. -/
def releaseJobs (s : State) (k : Nat) : State :=
  release s (cqKey s k) (sumNat ((jobsOf s k).map (·.hold)))

/-- A submission queue ceases to exist: its index keeps its generation and its discard counts (R108, R135). -/
def removeSq (s : State) (k : Nat) : State :=
  let s := dropUnread s k
  let s := releaseJobs s k
  let s := { s with jobs := s.jobs.filter fun j => !(j.sq = k && j.origin == .queue) }
  updSq s k fun q => { gen := q.gen, stale := q.stale, invalid := q.invalid, cq := q.cq, rd := 0 }

def removeCq (s : State) (k : Nat) : State :=
  let s := countStale s k ((cq s k).hold.filter fun h => !h.silent).length
  updCq s k fun c => { gen := c.gen, stale := c.stale, invalid := c.invalid }

/-- A destroyed pair clears READY (R112). -/
def pairGone (s : State) (g : Nat) : State :=
  if (sq s (qkey g 0)).exist && (cq s (qkey g 0)).exist then s
  else updGv s g fun v => if v.aq.ready then { v with aq := { v.aq with ready := false, enable := false, closing := false } } else v

/-- Confirmed jobs of queue `k` that have not completed. -/
def openJobs (s : State) (k : Nat) : List Job := (jobsOf s k).filter fun j => (!j.unconfirmed || j.again) && j.phase != .finished

/-- Admin commands of queue `k` whose execution has not begun. -/
def waitingAdm (s : State) (k : Nat) : List AdminCmd := s.adm.filter fun c => qkey c.gal c.sq = k && c.phase == .confirmed

/-- Destruction of a submission queue under R141: no flush; the queue's jobs are abandoned at once, a batch's jobs one by one
(DESIGN CHOICE, entry 71), and its commands that have not begun read nothing more; every completion is discarded and counted. -/
def killSq (s : State) (k : Nat) : State :=
  let n := (openJobs s k).length
  let w := waitingAdm s k
  let s := countStale (discardHeld s k) (cqKey s k) (n + w.length)
  let s := release { s with adm := s.adm.filter fun c => !(qkey c.gal c.sq = k && c.phase == .confirmed) } (cqKey s k) w.length
  pairGone (removeSq s k) (k / 64)

def killCq (s : State) (k : Nat) : State := pairGone (removeCq s k) (k / 64)

/-- Every queue of gallery `g` bound to port `p` is destroyed as a function-level reset destroys it (R141, R82). -/
def killPortQueues (s : State) (g : Nat) (p : Half) : State :=
  let s := ((sqsOf s g).filter fun k => (sq s k).port == p).foldl killSq s
  ((cqsOf s g).filter fun k => (cq s k).port == p).foldl killCq s

/-- The flush completion of R138 or R140, in tick order before or after the queue's other completions. -/
def flushHeld (t index : Nat) : Held :=
  { cmdId := 0xFFFF, status := .queueDestroyed, fFlush := true, tick := t, index }

end Sys2Proof.Machine
end

