-- ==== Sys2Proof/Machine/SlotMap.lean ====
section
/-!
DEFINITION. Shares and the slot map: placement of lane-ticks (R40, R41), their lanes (R146), bookings within a
lane-tick (R152, R153), key-cache ways and staging blocks (R165).
-/
namespace Sys2Proof.Machine

/-! ### Placement (R40) -/

/-- One lane-tick to place: the ideal tick as a fraction, the holder (0 the assay reserve, g + 1 gallery g). -/
structure Entry where
  num : Nat
  den : Nat
  who : Nat
  prot : Bool
  deriving DecidableEq, Repr

def Entry.le (a b : Entry) : Bool :=
  a.num * b.den < b.num * a.den || (a.num * b.den = b.num * a.den && a.who ≤ b.who)

/-- The assay reserve in units (R38). -/
def reserveUnits : Nat := 16

/-- Holders with their units placed in half `h`. -/
def grants (s : State) (h : Half) : List (Nat × Nat) :=
  (0, reserveUnits) ::
    ((galleries s).map fun g => (g + 1, (gv s g).eff.get h)).filter fun e => 0 < e.2

def entriesOf (gr : List (Nat × Nat)) : List Entry :=
  gr.flatMap fun e => (List.range e.2).map fun j => ⟨(2 * j + 1) * 64, e.2, e.1, j = 0⟩

def activeLanes (s : State) (h : Half) : List Nat :=
  (List.range 40).filter fun n => (nth {} (s.lanes.half.get h).lanes n).state == .active

/-- Capacity of tick `i` of the period for `r` units and `a` active lanes. -/
def capAt (r a i : Nat) : Nat := Nat.min ((i + 1) * r / 128 - i * r / 128) a

/-- Drop the first `n` elements that satisfy `p`. -/
def dropWhich {α : Type} (p : α → Bool) : Nat → List α → List α
  | 0, l => l
  | _, [] => []
  | n + 1, a :: t => if p a then dropWhich p n t else a :: dropWhich p (n + 1) t

/-- The entries kept, in sorted order, and the number dropped (R41). -/
def placed (gr : List (Nat × Nat)) (a : Nat) : List Entry × Nat :=
  let es := sortBy Entry.le (entriesOf gr)
  let r := sumNat (gr.map (·.2))
  let c := sumNat ((List.range 128).map (capAt r a))
  let n := es.length - c
  let m := Nat.min n (es.filter fun e => !e.prot).length
  (((dropWhich (fun e => !e.prot) m es.reverse).drop (n - m)).reverse, n)

/-- Holders of the lane-ticks of tick `t` in half `h`, in sorted order. -/
def holdersAt (s : State) (h : Half) (t : Nat) : List Nat :=
  let gr := grants s h
  let a := (activeLanes s h).length
  let r := sumNat (gr.map (·.2))
  let i := t % 128
  let before := sumNat ((List.range i).map (capAt r a))
  (((placed gr a).1.drop before).take (capAt r a i)).map (·.who)

def shortfallOf (s : State) (h : Half) : Nat := (placed (grants s h) (activeLanes s h).length).2

/-! ### Lanes under lane-ticks (R146) -/

/-- The lane under an assay in the reserve's lane-ticks (R50). -/
def assayLane (s : State) (h : Half) : Option Nat :=
  match (s.lanes.half.get h).assay with
  | some a => if a.inPlace && !a.cupola then some a.unit else none
  | none => none

/-- Lane-ticks of tick `t`: place in the tick's order, holder, lane of the half. -/
def laneTicks (s : State) (h : Half) (t : Nat) : List (Nat × Nat × Nat) :=
  let ws := holdersAt s h t
  let act := activeLanes s h
  let under := if ws.contains 0 then assayLane s h else none
  let part := act.filter fun l => some l ≠ under
  let start := if part.isEmpty then 0 else t % part.length
  let rec go : List Nat → Nat → Nat → List (Nat × Nat × Nat)
    | [], _, _ => []
    | w :: ws, pos, k =>
      match under with
      | some l => if w = 0 then (pos, w, l) :: go ws (pos + 1) k
                  else (pos, w, nth 0 part ((start + k) % part.length)) :: go ws (pos + 1) (k + 1)
      | none => (pos, w, nth 0 part ((start + k) % part.length)) :: go ws (pos + 1) (k + 1)
  go ws 0 0

/-- Active lanes that carry no lane-tick of a gallery in tick `t`: they serve borrowers (R42). -/
def idleLanes (s : State) (h : Half) (t : Nat) : List Nat :=
  let lt := laneTicks s h t
  let used := (lt.filter fun e => e.2.1 ≠ 0).map (·.2.2)
  let underAssay := if lt.any fun e => e.2.1 = 0 then assayLane s h else none
  (activeLanes s h).filter fun l => !used.contains l && some l ≠ underAssay

def laneAt (s : State) (h : Half) (t pos : Nat) : Nat :=
  (((laneTicks s h t).find? fun e => e.1 = pos).map (·.2.2)).getD 0

/-! ### Bookings (R152, R153) -/

/-- Bookings of half `h` in tick `t`. -/
def bookingsAt (s : State) (h : Half) (t : Nat) : List Booking :=
  (s.jobs.filter (·.half == h)).flatMap fun j =>
    (j.book.toList ++ j.book2.toList ++ j.book3.toList).filter fun b => b.tick = t

/-- Slots of this tick that hold confirmed work (R44, R48, R515). -/
def heldSlots (s : State) (h : Half) : List Booking :=
  if s.gen.windowDone then (s.lanes.half.get h).held else bookingsAt s h (tick s) ++ (s.lanes.half.get h).held

/-- The lane whose slots a booking takes. -/
def bookingLane (s : State) (h : Half) (b : Booking) : Nat := b.lane.getD (laneAt s h b.tick (b.pos.getD 0))

/-- Slots of a lane-tick place, or of a lane, that bookings take. -/
def taken (bs : List Booking) (pos lane : Option Nat) : List Nat :=
  (bs.filter fun b => b.pos = pos && b.lane = lane).flatMap fun b => (List.range b.len).map (b.first + ·)

/-- The lowest-numbered run of `len` consecutive free slots. -/
def freeRun (used : List Nat) (len : Nat) : Option Nat :=
  if len = 0 then some 0 else
  (List.range (9 - len)).find? fun f => (List.range len).all fun i => !used.contains (f + i)

/-- Bookings of tick `t` with the slots that refused and rejected jobs released: a gallery's own work takes none of them
(R169). -/
def closedAt (s : State) (h : Half) (t : Nat) : List Booking :=
  bookingsAt s h t ++ (s.lanes.half.get h).released.filter fun b => b.tick = t

/-- A free run of `len` slots in gallery `g`'s lane-ticks of tick `t` in half `h`. -/
def findOwn (s : State) (h : Half) (g t len : Nat) : Option Booking :=
  let bs := closedAt s h t
  ((laneTicks s h t).filter fun e => e.2.1 = g + 1).findSome? fun e =>
    (freeRun (taken bs (some e.1) none) len).map fun f => { tick := t, pos := some e.1, first := f, len }

/-- Free slots of gallery `g` in tick `t`. -/
def freeOwn (s : State) (h : Half) (g t : Nat) : Nat :=
  let bs := closedAt s h t
  sumNat (((laneTicks s h t).filter fun e => e.2.1 = g + 1).map fun e => 8 - (taken bs (some e.1) none).length)

/-- A slot run that a borrower may fill in tick `t` (R42): on a lane without a lane-tick, or in a lending gallery's
lane-tick that holds no confirmed work there. -/
def findLent (s : State) (h : Half) (g t len : Nat) : Option Booking :=
  let bs := bookingsAt s h t
  let idle := (idleLanes s h t).findSome? fun l =>
    (freeRun (taken bs none (some l)) len).map fun f => ({ tick := t, lane := some l, first := f, len } : Booking)
  let lent := (laneTicks s h t).findSome? fun e =>
    if e.2.1 ≠ 0 && e.2.1 ≠ g + 1 && (gal s (e.2.1 - 1)).lend then
      (freeRun (taken bs (some e.1) none) len).map fun f => ({ tick := t, pos := some e.1, first := f, len } : Booking)
    else none
  match idle with
  | some b => some b
  | none => lent

/-! ### Grants placed (R86) and the pools that follow them (R165) -/

/-- Units that half `h` places for gallery `g` (R86): its grant while both halves serve, the failover grant while the
other is down, none while `h` itself is not serving. A CLOSING gallery keeps its grants until step 6 of R94. -/
def placeUnits (s : State) (h : Half) (g : Nat) : Nat :=
  let x := gal s g
  if x.state == .free || !s.lanes.placed.get h then 0
  else if s.lanes.placed.get (other h) then x.units.get h
  else (x.units.cope + x.units.drag) / 2

def wayPool (s : State) (h : Half) : Nat := ((halfCfg s h).map fun c => c.keyCacheKib / 2).getD 0
def blockPool (s : State) (h : Half) : Nat := ((halfCfg s h).map fun c => c.stagingKib / 4).getD 0

/-- Ways or blocks of a gallery with `u` of `total` units among `n` galleries. -/
def poolShare (w n u total : Nat) : Nat := if w = 0 then 0 else 1 + (w - n) * u / Nat.max 1 total

/-- A gallery's new ways or blocks: it keeps its lowest-numbered ones (R166), and takes what it lacks from `free`, lowest
first (entry 66). The rest of `free` comes second. -/
def takeNos (old : List Nat) (n : Nat) (free : List Nat) : List Nat × List Nat :=
  let kept := old.take n
  (kept ++ free.take (n - kept.length), free.drop (n - kept.length))

/-- The division of a half's `pool` of ways or blocks among galleries that hold `old` and shall hold the counts of `want`. -/
def divide (pool : Nat) (want : List (Nat × Nat)) (old : Nat → List Nat) : List (Nat × List Nat) :=
  let kept := want.flatMap fun e => (old e.1).take e.2
  let free := (List.range pool).filter fun i => !kept.contains i
  (want.foldl (fun (a : List (Nat × List Nat) × List Nat) e =>
    let (mine, rest) := takeNos (old e.1) e.2 a.2
    (a.1 ++ [(e.1, sortBy (fun x y => x ≤ y) mine)], rest)) ([], free)).1

/-- The numbers that a division gives to gallery `g`. -/
def numbersOf (d : List (Nat × List Nat)) (g : Nat) : List Nat := ((d.find? (·.1 = g)).map (·.2)).getD []

/-- Lines of ways and blocks that a gallery no longer holds are quenched (R166). -/
def quenchTaken (s : State) (h : Half) : State :=
  { s with lanes := { s.lanes with half := s.lanes.half.upd h fun x =>
    { x with kc := x.kc.filter fun l => ((gv s l.gal).ways.get h).contains l.way
             residue := x.residue.filter fun e => ((gv s (e.2 - 1)).blocks.get h).contains e.1 } } }

/-- Ways and blocks of one half for every gallery (R165, R166): an ACTIVE gallery's share, nothing for the others. -/
def loadPools (s : State) (h : Half) : State :=
  let gs := activeGalleries s
  let total := sumNat (gs.map (placeUnits s h))
  let want := fun pool => gs.map fun g =>
    (g, if s.lanes.placed.get h then poolShare pool gs.length (placeUnits s h g) total else 0)
  let w := divide (wayPool s h) (want (wayPool s h)) fun g => (gv s g).ways.get h
  let b := divide (blockPool s h) (want (blockPool s h)) fun g => (gv s g).blocks.get h
  quenchTaken ((s.galv.map (·.1) ++ gs).foldl (fun s g => updGv s g fun v =>
    { v with ways := v.ways.set h (numbersOf w g), blocks := v.blocks.set h (numbersOf b g) }) s) h

/-- The units placed for gallery `g`; `HALF_CHANGE` where R86 changed the units of an ACTIVE gallery and `flag` asks for it
(R104). -/
def loadEff (flag : Bool) (s : State) (g : Nat) : State :=
  let e : Two Nat := ⟨placeUnits s .cope g, placeUnits s .drag g⟩
  let changed := (gv s g).eff ≠ e
  let s := updGv s g fun v => { v with eff := e }
  if flag && changed && (gal s g).state == .active then galEvent s g 0b100 else s

/-- Grants are placed: GAL_ST_EFFECTIVE, ways and blocks. -/
def loadGrants (s : State) (flag : Bool) : State :=
  loadPools (loadPools ((s.galv.map (·.1) ++ galleries s).eraseDups.foldl (loadEff flag) s) .cope) .drag

/-- The changes step that places the grants of the halves that serve (R86, R165). -/
def placeGrants (s : State) : State :=
  loadGrants { s with lanes := { s.lanes with placed := ⟨serving s .cope, serving s .drag⟩ } } true

/-- The global number of the lane that carries the job's booking (R7, R146). -/
def laneOf (s : State) (j : Job) : Nat :=
  match j.book with
  | some b =>
    40 * halfNo j.half + (match b.pos, b.lane with
      | some p, _ => laneAt s j.half b.tick p
      | none, some l => l
      | none, none => 0)
  | none => 0

/-! ### Staging contexts (R145, R161) -/

/-- The job has prepared values in a staging context of its half. -/
def prepared (s : State) (j : Job) : Bool :=
  (s.lanes.half.get j.half).lanes.any fun l => l.contexts.any fun e => e.2.any (·.job = j.id)

/-- Contexts of a half whose values `p` names are quenched. -/
def quenchContexts (x : LaneHalf) (p : Staged → Bool) : LaneHalf :=
  { x with lanes := x.lanes.map fun l => { l with contexts := l.contexts.filter fun e => !e.2.any p } }

/-- The lowest free context among `n` from `lo` on. -/
def freeContext (l : Lane) (lo n : Nat) : Option Nat :=
  ((List.range n).map (lo + ·)).find? fun k => (l.contexts.get none k).isNone

/-- Values enter the lowest free context among `n` from `lo` on of lane `i`; where none is free they are lost. -/
def putContext (x : LaneHalf) (i lo n : Nat) (v : Staged) : LaneHalf :=
  match freeContext (nth {} x.lanes i) lo n with
  | some k => { x with lanes := updNth x.lanes i fun l => { l with contexts := l.contexts.put none k (some v) } }
  | none => x

/-- The prepared values of job `id` in a half. -/
def contextOf (x : LaneHalf) (id : Nat) : Option Staged :=
  x.lanes.findSome? fun l => l.contexts.findSome? fun e => e.2.filter (·.job = id)

/-- At the slot-map step every kept context of a placed job moves to the executing lane's contexts 0 to 15 (R161). -/
def moveContext (s : State) (x : LaneHalf) (j : Job) : LaneHalf :=
  match contextOf x j.id with
  | some v => putContext (quenchContexts x (·.job = j.id)) (laneOf s j % 40) 0 16 v
  | none => x

def moveContexts (s : State) (h : Half) : State :=
  let js := s.jobs.filter fun j => j.half == h && j.phase == .confirmed && j.book.isSome
  { s with lanes := { s.lanes with half := s.lanes.half.upd h fun x => js.foldl (moveContext s) x } }

end Sys2Proof.Machine
end

