-- ==== Sys2Proof/Machine/Crypto.lean ====
section
/-!
DEFINITION. Cryptographic functions that the spec builds from named primitives: digests, HMAC, CMAC, the KDFs, block
chaining, and byte checks (R285, R246 to R249). The primitives themselves are opaque (entry 12).
-/
namespace Sys2Proof.Machine

/-- Digest length of a hash code (R254): 28, 32, 48, 64. -/
def hashLen (c : Nat) : Nat := nth 0 [0, 28, 32, 48, 64, 28, 32, 48, 64] c

def digest (c : Nat) (m : Bytes) : Bytes := padTo (hashLen c) (Config.hash c m)

def sha384 (m : Bytes) : Bytes := digest 3 m

/-- Input block of a hash code in bytes: FIPS 180-4 and FIPS 202. -/
def hashBlock (c : Nat) : Nat := nth 0 [0, 64, 64, 128, 128, 144, 136, 104, 72] c

/-- HMAC (FIPS 198-1). -/
def hmac (c : Nat) (key m : Bytes) : Bytes :=
  let b := hashBlock c
  let k := padTo b (if key.length > b then digest c key else key)
  digest c (xorBytes k (List.replicate b 0x5C) ++ digest c (xorBytes k (List.replicate b 0x36) ++ m))

/-- Counter-mode KDF of SP 800-108: `n` bytes; the 32-bit counter stands before the fixed data (R285). -/
def kdfCounter (prf : Bytes → Bytes) (fixed : Bytes) (n : Nat) : Nat → Nat → Bytes
  | 0, _ => []
  | f + 1, i =>
    let blk := prf (be 4 i ++ fixed)
    if n ≤ blk.length then blk.take n else blk ++ kdfCounter prf fixed (n - blk.length) f (i + 1)

/-- The key ladder's KDF (R285): HMAC-SHA-384, label, 0x00, context, L. -/
def ladderKdf (key : Bytes) (label : String) (ctx : Bytes) (n : Nat) : Bytes :=
  padTo n (kdfCounter (hmac 3 key) (ascii label ++ [0] ++ ctx ++ be 4 (8 * n)) n (n + 1) 1)

/-- Blocks of `b` bytes; the last one may be short. -/
def blocks (b : Nat) : Nat → Bytes → List Bytes
  | 0, _ => []
  | _, [] => []
  | f + 1, m => m.take b :: blocks b f (m.drop b)

def chunks (b : Nat) (m : Bytes) : List Bytes := blocks b m.length m

/-- ECB over whole blocks. -/
def ecb (f : Bytes → Bytes) (b : Nat) (m : Bytes) : Bytes := (chunks b m).flatMap fun x => padTo b (f x)

def cbcEncGo (f : Bytes → Bytes) (b : Nat) : Bytes → List Bytes → List Bytes
  | _, [] => []
  | iv, x :: t => let y := padTo b (f (xorBytes x iv)); y :: cbcEncGo f b y t

def cbcEnc (f : Bytes → Bytes) (b : Nat) (iv m : Bytes) : Bytes := (cbcEncGo f b iv (chunks b m)).flatten

def cbcDecGo (f : Bytes → Bytes) (b : Nat) : Bytes → List Bytes → List Bytes
  | _, [] => []
  | iv, x :: t => xorBytes (padTo b (f x)) iv :: cbcDecGo f b x t

def cbcDec (f : Bytes → Bytes) (b : Nat) (iv m : Bytes) : Bytes := (cbcDecGo f b iv (chunks b m)).flatten

def ctrGo (f : Bytes → Bytes) (n : Nat) : Nat → List Bytes → Bytes
  | _, [] => []
  | c, x :: t => xorBytes x (padTo 16 (f (be 16 c))) ++ ctrGo f n ((c + 1) % 2 ^ 128) t

/-- CTR from the initial counter block `iv`, the whole block counting (R237). -/
def ctr (f : Bytes → Bytes) (iv m : Bytes) : Bytes := ctrGo f 0 (fromBe iv) (chunks 16 m)

/-- TDES with two or three keys: K1, K2 and K3 or K1 again. -/
def tdes (enc : Bool) (key b : Bytes) : Bytes :=
  let k1 := slice key 0 8
  let k2 := slice key 8 8
  let k3 := if key.length ≥ 24 then slice key 16 8 else k1
  let e := fun k x => padTo 8 (Config.desEnc k x)
  let d := fun k x => padTo 8 (Config.desDec k x)
  if enc then e k3 (d k2 (e k1 b)) else d k1 (e k2 (d k3 b))

def aes (enc : Bool) (key b : Bytes) : Bytes := padTo 16 (if enc then Config.aesEnc key b else Config.aesDec key b)

/-- A block cipher by `ALG` (R287): its block length and one block of encryption or decryption. -/
def blockLen (alg : Nat) : Nat := if alg = 1 || alg = 2 then 8 else 16

def cipher (enc : Bool) (alg : Nat) (key b : Bytes) : Bytes :=
  if alg = 1 || alg = 2 then tdes enc key b else aes enc key b

/-- Doubling in GF(2^n) for CMAC (SP 800-38B). -/
def dbl (b : Bytes) : Bytes :=
  let n := b.length
  let v := 2 * fromBe b
  let r := if n = 8 then 0x1B else 0x87
  be n (if v ≥ 2 ^ (8 * n) then (v - 2 ^ (8 * n)) ^^^ r else v)

/-- CMAC (SP 800-38B). -/
def cmac (alg : Nat) (key m : Bytes) : Bytes :=
  let b := blockLen alg
  let f := cipher true alg key
  let k1 := dbl (f (zeros b))
  let bl := chunks b m
  let last := bl.getLast?.getD []
  let front := bl.dropLast.flatten
  let x := if last.length = b then xorBytes last k1 else xorBytes (padTo b (last ++ [0x80])) (dbl k1)
  let c := cbcEnc f b (zeros b) (front ++ x)
  slice c (c.length - b) b

/-- ANSI X9.63 KDF with hash code `c`. -/
def x963Go (c : Nat) (z info : Bytes) (n : Nat) : Nat → Nat → Bytes
  | 0, _ => []
  | f + 1, i =>
    let h := digest c (z ++ be 4 i ++ info)
    if n ≤ h.length then h.take n else h ++ x963Go c z info (n - h.length) f (i + 1)

def x963 (c : Nat) (z info : Bytes) (n : Nat) : Bytes := padTo n (x963Go c z info n (n + 1) 1)

/-- CRC-32 of IEEE 802.3, reflected. -/
def crc32Bits : Nat → Nat → Nat
  | 0, v => v
  | n + 1, v => crc32Bits n (if v % 2 = 1 then (v / 2) ^^^ 0xEDB88320 else v / 2)

def crc32 (m : Bytes) : Nat := (m.foldl (fun v b => crc32Bits 8 (v ^^^ b.toNat)) 0xFFFFFFFF) ^^^ 0xFFFFFFFF

/-- CRC-16 of ITU-T V.41 with initial value 0xFFFF (R505). -/
def crc16Bits : Nat → Nat → Nat
  | 0, v => v
  | n + 1, v => crc16Bits n (if v ≥ 0x8000 then ((2 * v) ^^^ 0x1021) % 65536 else 2 * v)

def crc16 (m : Bytes) : Nat := m.foldl (fun v b => crc16Bits 8 (v ^^^ (b.toNat * 256))) 0xFFFF

/-- Odd parity in bit 0 of every byte (a TDES key, R304). -/
def ones8 (b : Byte) : Nat := ((List.range 8).filter fun i => b.getLsbD i).length

def oddParity (k : Bytes) : Bytes :=
  k.map fun b => if ones8 (b &&& 0xFE) % 2 = 0 then b ||| 1 else b &&& 0xFE

/-- `b ^ e mod m` by `f` squarings. -/
def modPowGo (m : Nat) : Nat → Nat → Nat → Nat → Nat
  | 0, _, _, acc => acc
  | f + 1, b, e, acc => modPowGo m f (b * b % m) (e / 2) (if e % 2 = 1 then acc * b % m else acc)

def modPow (bits b e m : Nat) : Nat := modPowGo m bits (b % m) e (1 % m)

/-- Group orders of P-256, P-384 and P-521 (FIPS 186-5). -/
def ecOrder : Nat → Nat
  | 1 => 0xFFFFFFFF00000000FFFFFFFFFFFFFFFFBCE6FAADA7179E84F3B9CAC2FC632551
  | 2 => 0xFFFFFFFFFFFFFFFFFFFFFFFFFFFFFFFFFFFFFFFFFFFFFFFFC7634D81F4372DDF581A0DB248B0A77AECEC196ACCC52973
  | _ => 0x1FFFFFFFFFFFFFFFFFFFFFFFFFFFFFFFFFFFFFFFFFFFFFFFFFFFFFFFFFFFFFFFFFFFA51868783BF2F966B7FCC0148F709A5D03BB5C9B8899C47AEBB6FB71E91386409

/-- Field primes. -/
def ecPrime : Nat → Nat
  | 1 => 2 ^ 256 - 2 ^ 224 + 2 ^ 192 + 2 ^ 96 - 1
  | 2 => 2 ^ 384 - 2 ^ 128 - 2 ^ 96 + 2 ^ 32 - 1
  | _ => 2 ^ 521 - 1

/-- Coordinate length L (R254). -/
def ecLen (set : Nat) : Nat := nth 0 [0, 32, 48, 66] set

/-- SEC 1 uncompressed point: first byte 0x04, x and y below p, on the curve (R262 row 2, R303 check 7). -/
def pointOk (set : Nat) (q : Bytes) : Bool :=
  let l := ecLen set
  q.length = 1 + 2 * l && nth 0 q 0 = 4 && beAt q 1 l < ecPrime set && beAt q (1 + l) l < ecPrime set &&
    Config.ecOnCurve set q

def ecPub (set : Nat) (d : Bytes) : Bytes := padTo (1 + 2 * ecLen set) (Config.ecPoint set d)

def ecdh (set : Nat) (d q : Bytes) : Bytes := padTo (ecLen set) (Config.ecdhX set d q)

/-- r and s of an ECDSA signature by `d`; the nonce is redrawn until neither is zero (R253), so the result is taken
at the draw that succeeds. -/
def ecdsa (set : Nat) (d dg k : Bytes) : Bytes :=
  match Config.ecdsaSign set d dg k with
  | some (r, s) => padTo (ecLen set) r ++ padTo (ecLen set) s
  | none => zeros (2 * ecLen set)

def ecVerify (set : Nat) (q dg sig : Bytes) : Bool :=
  let l := ecLen set
  pointOk set q && Config.ecdsaVerify set q dg (slice sig 0 l) (slice sig l l)

/-- An EC private key from a 64-byte ladder output (R285). -/
def ecScalar (c : Bytes) : Bytes := be 48 (fromBe c % (ecOrder 2 - 1) + 1)

/-- GF(2^8) with x^8 + x^4 + x^3 + x + 1 (R330). -/
def gfMulGo : Nat → Nat → Nat → Nat → Nat
  | 0, _, _, acc => acc
  | f + 1, a, b, acc =>
    gfMulGo f (if 2 * a ≥ 256 then (2 * a) ^^^ 0x11B else 2 * a) (b / 2) (if b % 2 = 1 then acc ^^^ a else acc)

def gfMul (a b : Nat) : Nat := gfMulGo 8 a b 0

def gfPow (a : Nat) : Nat → Nat
  | 0 => 1
  | n + 1 => gfMul a (gfPow a n)

def gfInv (a : Nat) : Nat := gfPow a 254

/-- Lagrange coefficient at 0 for the share at `x` among the indices `xs`. -/
def lagrange (x : Nat) (xs : List Nat) : Nat :=
  xs.foldl (fun a y => if y = x then a else gfMul a (gfMul y (gfInv (x ^^^ y)))) 1

/-- The secret of M shares (R330, R338): each byte interpolated at 0. -/
def shamirJoin (shares : List (Nat × Bytes)) : Bytes :=
  let xs := shares.map (·.1)
  tabulate 32 fun i => BitVec.ofNat 8 (shares.foldl (fun a e => a ^^^ gfMul (byteAt e.2 i) (lagrange e.1 xs)) 0)

/-- Share `x` of a secret whose polynomials have the coefficient strings `coefs` (degree 1 upwards). -/
def shamirShare (secret : Bytes) (coefs : List Bytes) (x : Nat) : Bytes :=
  tabulate 32 fun i => BitVec.ofNat 8
    ((coefs.foldl (fun (a : Nat × Nat) c => (a.1 ^^^ gfMul (byteAt c i) a.2, gfMul a.2 x)) (byteAt secret i, x)).1)

end Sys2Proof.Machine
end

