-- ==== Sys2Proof/Machine/Modes.lean ====
section
/-!
DEFINITION. Modes of AES and TDES written over the block primitives: CTR and GCM (SP 800-38D), CCM (SP 800-38C), XTS
(SP 800-38E), key wrap (SP 800-38F), FF1 (SP 800-38G), padding, OAEP, and DUKPT and EMV derivation (R199 to R245).
-/
namespace Sys2Proof.Machine

/-! ### Padding (R238) -/

/-- ISO/IEC 9797-1 padding method 1 or 2, or PKCS#7 (here 7), to blocks of `b`. -/
def pad (method b : Nat) (m : Bytes) : Bytes :=
  let r := m.length % b
  match method with
  | 1 => if r = 0 && m ≠ [] then m else m ++ zeros (b - r)
  | 2 => m ++ [0x80] ++ zeros ((2 * b - r - 1) % b)
  | 7 => m ++ List.replicate (b - r) (BitVec.ofNat 8 (b - r))
  | _ => m

/-! ### CTR with a 32-bit counter -/

/-- The counter block after `n` increments of its rightmost 32 bits. -/
def inc32 (c : Bytes) (n : Nat) : Bytes := c.take 12 ++ be 4 ((beAt c 12 4 + n) % 2 ^ 32)

def ctr32Go (f : Bytes → Bytes) : Nat → Bytes → List Bytes → Bytes
  | _, _, [] => []
  | i, c, x :: t => xorBytes x (f (inc32 c i)) ++ ctr32Go f (i + 1) c t

/-- CTR from counter block `c`, which stands for the first block. -/
def ctr32 (f : Bytes → Bytes) (c m : Bytes) : Bytes := ctr32Go f 0 c (chunks 16 m)

/-- The counter of a message of `n` more bytes would wrap (R237). -/
def ctrWraps (c : Bytes) (n : Nat) : Bool := 2 ^ 32 < beAt c 12 4 + (n + 15) / 16

/-! ### GHASH -/

def gmulGo (x : Nat) : Nat → Nat → Nat → Nat
  | 0, _, z => z
  | i + 1, v, z =>
    gmulGo x i (if v % 2 = 1 then (v / 2) ^^^ (0xE1 * 2 ^ 120) else v / 2) (if x.testBit i then z ^^^ v else z)

/-- Product in the field of GCM. -/
def gmul (x y : Nat) : Nat := gmulGo x 128 y 0

/-- GHASH over whole blocks (short ones zero-filled) from accumulator `y`. -/
def ghash (h : Nat) (y : Nat) (m : Bytes) : Nat :=
  (chunks 16 m).foldl (fun y b => gmul (y ^^^ fromBe (padTo 16 b)) h) y

/-- AES-256-GCM: ciphertext and tag. -/
def gcmEnc (key iv aad pt : Bytes) : Bytes × Bytes :=
  let f := aes true key
  let h := fromBe (f (zeros 16))
  let j0 := iv ++ be 4 1
  let ct := ctr32 f (inc32 j0 1) pt
  let y := ghash h (ghash h 0 aad) ct
  (ct, xorBytes (be 16 (ghash h y (be 8 (8 * aad.length) ++ be 8 (8 * ct.length)))) (f j0))

def gcmDec (key iv aad ct tag : Bytes) : Option Bytes :=
  let f := aes true key
  let h := fromBe (f (zeros 16))
  let j0 := iv ++ be 4 1
  let y := ghash h (ghash h 0 aad) ct
  if xorBytes (be 16 (ghash h y (be 8 (8 * aad.length) ++ be 8 (8 * ct.length)))) (f j0) == tag then
    some (ctr32 f (inc32 j0 1) ct) else none

/-! ### CCM -/

/-- Length octets of the message: 15 minus the nonce length. -/
def ccmB0 (nonce : Bytes) (aad : Bool) (tagLen total : Nat) : Bytes :=
  let q := 15 - nonce.length
  le 1 (64 * b2n aad + 8 * ((tagLen - 2) / 2) + (q - 1)) ++ nonce ++ be q total

def ccmCtr (nonce : Bytes) (i : Nat) : Bytes :=
  let q := 15 - nonce.length
  le 1 (q - 1) ++ nonce ++ be q i

def cbcMac (f : Bytes → Bytes) (x m : Bytes) : Bytes :=
  (chunks 16 m).foldl (fun y b => f (xorBytes y (padTo 16 b))) x

/-- Accumulator after B0 and the additional data. -/
def ccmStart (f : Bytes → Bytes) (nonce aad : Bytes) (tagLen total : Nat) : Bytes :=
  let x := f (ccmB0 nonce (!aad.isEmpty) tagLen total)
  if aad.isEmpty then x else cbcMac f x (be 2 aad.length ++ aad)

def ccmCryptGo (f : Bytes → Bytes) (nonce : Bytes) : Nat → List Bytes → Bytes
  | _, [] => []
  | i, x :: t => xorBytes x (f (ccmCtr nonce i)) ++ ccmCryptGo f nonce (i + 1) t

/-- CTR of CCM from block number `i`, 1 being the first of the message. -/
def ccmCrypt (f : Bytes → Bytes) (nonce : Bytes) (i : Nat) (m : Bytes) : Bytes := ccmCryptGo f nonce i (chunks 16 m)

/-! ### XTS -/

/-- Multiplication of a tweak by x, the tweak little-endian. -/
def xtsDbl (t : Bytes) : Bytes :=
  let v := 2 * fromLe t
  le 16 (if v ≥ 2 ^ 128 then (v - 2 ^ 128) ^^^ 0x87 else v)

def xtsPow : Nat → Bytes → Bytes
  | 0, t => t
  | n + 1, t => xtsPow n (xtsDbl t)

def xtsBlock (f : Bytes → Bytes) (t x : Bytes) : Bytes := xorBytes (f (xorBytes x t)) t

def xtsWhole (f : Bytes → Bytes) : Bytes → List Bytes → Bytes
  | _, [] => []
  | t, x :: r => xtsBlock f t x ++ xtsWhole f (xtsDbl t) r

/-- XTS of at least 16 bytes from tweak `t`, with ciphertext stealing when the last block is short. -/
def xts (enc : Bool) (f : Bytes → Bytes) (t m : Bytes) : Bytes :=
  let n := m.length / 16
  let r := m.length % 16
  if r = 0 then xtsWhole f t (chunks 16 m)
  else
    let head := xtsWhole f t (chunks 16 (m.take (16 * (n - 1))))
    let t0 := xtsPow (n - 1) t
    let t1 := xtsDbl t0
    let (ta, tb) := if enc then (t0, t1) else (t1, t0)
    let c := xtsBlock f ta (slice m (16 * (n - 1)) 16)
    let last := slice m (16 * n) r ++ c.drop r
    head ++ xtsBlock f tb last ++ c.take r

/-! ### Key wrap -/

def kwStep (f : Bytes → Bytes) (n : Nat) (a : Bytes) (rs : List Bytes) (t : Nat) : Bytes × List Bytes :=
  let i := (t - 1) % n
  let b := f (a ++ nth [] rs i)
  (xorBytes (b.take 8) (be 8 t), setNth rs i (slice b 8 8))

def kwRounds (f : Bytes → Bytes) (n : Nat) (ts : List Nat) (a : Bytes) (rs : List Bytes) : Bytes × List Bytes :=
  ts.foldl (fun p t => kwStep f n p.1 p.2 t) (a, rs)

def kwUnStep (f : Bytes → Bytes) (n : Nat) (a : Bytes) (rs : List Bytes) (t : Nat) : Bytes × List Bytes :=
  let i := (t - 1) % n
  let b := f (xorBytes a (be 8 t) ++ nth [] rs i)
  (b.take 8, setNth rs i (slice b 8 8))

def kwUnRounds (f : Bytes → Bytes) (n : Nat) (ts : List Nat) (a : Bytes) (rs : List Bytes) : Bytes × List Bytes :=
  ts.foldl (fun p t => kwUnStep f n p.1 p.2 t) (a, rs)

/-- KW (`pad` false) or KWP of plaintext `p` under an AES key. -/
def kwWrap (kwp : Bool) (kek p : Bytes) : Bytes :=
  let f := aes true kek
  let (iv, q) := if kwp then ([0xA6, 0x59, 0x59, 0xA6] ++ be 4 p.length, padTo ((p.length + 7) / 8 * 8) p)
    else (List.replicate 8 0xA6, p)
  let rs := chunks 8 q
  if rs.length ≤ 1 then f (iv ++ q)
  else
    let (a, rs) := kwRounds f rs.length ((List.range (6 * rs.length)).map (· + 1)) iv rs
    a ++ rs.flatten

/-- The plaintext, or none when the integrity check fails. -/
def kwUnwrap (kwp : Bool) (kek c : Bytes) : Option Bytes :=
  if c.length < 16 || c.length % 8 ≠ 0 || (!kwp && c.length < 24) then none else
  let f := aes false kek
  let n := c.length / 8 - 1
  let (a, q) := if n = 1 then let b := f c; (b.take 8, b.drop 8)
    else
      let (a, rs) := kwUnRounds f n ((List.range (6 * n)).map (6 * n - ·)) (c.take 8) (chunks 8 (c.drop 8))
      (a, rs.flatten)
  if kwp then
    let m := beAt a 4 4
    if a.take 4 == [0xA6, 0x59, 0x59, 0xA6] && 8 * (n - 1) < m && m ≤ 8 * n && allZero (q.drop m) then some (q.take m)
    else none
  else if a == List.replicate 8 0xA6 then some q else none

/-! ### FF1 -/

def numRadix (radix : Nat) (x : List Nat) : Nat := x.foldl (fun a d => a * radix + d) 0

/-- `m` numerals of `v`, most significant first. -/
def strRadix (radix : Nat) : Nat → Nat → List Nat
  | 0, _ => []
  | m + 1, v => strRadix radix m (v / radix) ++ [v % radix]

/-- Bytes that hold numbers below `radix ^ v`. -/
def ff1B (radix v : Nat) : Nat := (Nat.log2 (radix ^ v - 1) + 8) / 8

def ff1S (f : Bytes → Bytes) (r : Bytes) (d : Nat) : Bytes :=
  ((List.range ((d + 15) / 16)).flatMap fun j => if j = 0 then r else f (xorBytes r (be 16 j))).take d

/-- One round's y, from the half B that it enciphers. -/
def ff1Y (key tweak : Bytes) (radix n i : Nat) (x : List Nat) : Nat :=
  let u := n / 2
  let b := ff1B radix (n - u)
  let d := 4 * ((b + 3) / 4) + 4
  let p := [1, 2, 1] ++ be 3 radix ++ [10] ++ le 1 (u % 256) ++ be 4 n ++ be 4 tweak.length
  let t := tweak.length
  let q := tweak ++ zeros ((16 - (t + b + 1) % 16) % 16) ++ le 1 i ++ be b (numRadix radix x)
  let r := cbcMac (aes true key) (zeros 16) (p ++ q)
  fromBe (ff1S (aes true key) r d)

def ff1EncGo (key tweak : Bytes) (radix n : Nat) : Nat → List Nat → List Nat → List Nat
  | 0, a, b => a ++ b
  | f + 1, a, b =>
    let i := 9 - f
    let m := if i % 2 = 0 then n / 2 else n - n / 2
    ff1EncGo key tweak radix n f b
      (strRadix radix m ((numRadix radix a + ff1Y key tweak radix n i b) % radix ^ m))

def ff1DecGo (key tweak : Bytes) (radix n : Nat) : Nat → List Nat → List Nat → List Nat
  | 0, a, b => a ++ b
  | f + 1, a, b =>
    let m := if f % 2 = 0 then n / 2 else n - n / 2
    ff1DecGo key tweak radix n f
      (strRadix radix m ((numRadix radix b + radix ^ m - ff1Y key tweak radix n f a % radix ^ m) % radix ^ m)) a

def ff1 (enc : Bool) (key tweak : Bytes) (radix : Nat) (x : List Nat) : List Nat :=
  let u := x.length / 2
  if enc then ff1EncGo key tweak radix x.length 10 (x.take u) (x.drop u)
  else ff1DecGo key tweak radix x.length 10 (x.take u) (x.drop u)

/-! ### RSA encodings (RFC 8017) -/

def mgf1 (h : Nat) (seed : Bytes) (n : Nat) : Bytes :=
  ((List.range (n / hashLen h + 1)).flatMap fun i => digest h (seed ++ be 4 i)).take n

/-- EM of RSAES-OAEP with an empty label. -/
def oaepEncode (h k : Nat) (m seed : Bytes) : Bytes :=
  let hl := hashLen h
  let db := digest h [] ++ zeros (k - m.length - 2 * hl - 2) ++ [1] ++ m
  let mdb := xorBytes db (mgf1 h seed (k - hl - 1))
  [0] ++ xorBytes seed (mgf1 h mdb hl) ++ mdb

def oaepDecode (h k : Nat) (em : Bytes) : Option Bytes :=
  let hl := hashLen h
  let mdb := slice em (1 + hl) (k - hl - 1)
  let seed := xorBytes (slice em 1 hl) (mgf1 h mdb hl)
  let db := xorBytes mdb (mgf1 h seed (k - hl - 1))
  let rest := (db.drop hl).dropWhile (· == 0)
  if nth 0 em 0 == 0 && db.take hl == digest h [] && rest.head? == some 1 then some (rest.drop 1) else none

/-! ### MAC algorithms of ISO/IEC 9797-1 (R199) -/

/-- CBC-MAC of padded blocks under `f` on blocks of 8 bytes. -/
def cbcMac8 (f : Bytes → Bytes) (m : Bytes) : Bytes :=
  (chunks 8 m).foldl (fun y b => f (xorBytes y (padTo 8 b))) (zeros 8)

def macAlg1 (key : Bytes) (padding : Nat) (m : Bytes) : Bytes := cbcMac8 (tdes true key) (pad padding 8 m)

def desE (k b : Bytes) : Bytes := padTo 8 (Config.desEnc k b)
def desD (k b : Bytes) : Bytes := padTo 8 (Config.desDec k b)

def macAlg3 (key : Bytes) (padding : Nat) (m : Bytes) : Bytes :=
  let k1 := slice key 0 8
  let k2 := slice key 8 8
  desE k1 (desD k2 (cbcMac8 (desE k1) (pad padding 8 m)))

/-! ### EMV (R205, R206) -/

/-- A key is TDES. -/
def isTdes (alg : Nat) : Bool := alg = 1 || alg = 2

/-- ICC master key by option A from the rightmost 16 digits of PAN and PSN (R205). DESIGN CHOICE (entry 80) for an AES key: the
8-byte value stands in the right half of the block, zeros in the left half; the second block is the first with all 16 bytes
inverted; the key is the leftmost bytes of the two results. -/
def iccMaster (alg : Nat) (key : Bytes) (digits : List Nat) : Bytes :=
  let d := (zeros 16).map (·.toNat) ++ digits
  let y := be 8 ((d.drop (d.length - 16)).foldl (fun a x => 16 * a + x) 0)
  if isTdes alg then oddParity (tdes true key y ++ tdes true key (xorBytes y (List.replicate 8 0xFF)))
  else
    let b := zeros 8 ++ y
    (aes true key b ++ aes true key (xorBytes b (List.replicate 16 0xFF))).take key.length

/-- Common session key derivation from an 8-byte diversification value. -/
def emvSession (alg : Nat) (mk r : Bytes) : Bytes :=
  let f1 := r.take 2 ++ [0xF0] ++ r.drop 3
  let f2 := r.take 2 ++ [0x0F] ++ r.drop 3
  if isTdes alg then oddParity (tdes true mk f1 ++ tdes true mk f2)
  else if mk.length = 16 then aes true mk (padTo 16 r)
  else (aes true mk (padTo 16 f1) ++ aes true mk (padTo 16 f2)).take mk.length

/-- Application cryptogram or secure-messaging MAC (R207). -/
def emvMac (alg : Nat) (sk : Bytes) (method : Nat) (m : Bytes) : Bytes :=
  if isTdes alg then macAlg3 sk method m else (cmac alg sk m).take 8

/-! ### DUKPT (R213, R219) -/

/-- Working-key length of an AES DUKPT algorithm code. -/
def wkLen (a : Nat) : Nat := nth 16 [16, 24, 32, 16, 24] a

/-- Derivation data of AES DUKPT: usage, algorithm, bits, and the identifier or counter fields. -/
def dukptData (i usage alg : Nat) (tail : Bytes) : Bytes :=
  [1] ++ le 1 i ++ be 2 usage ++ be 2 (nth 2 [2, 3, 4, 0, 1] alg) ++ be 2 (8 * wkLen alg) ++ tail

def dukptKey (key : Bytes) (usage alg : Nat) (tail : Bytes) : Bytes :=
  ((List.range ((wkLen alg + 15) / 16)).flatMap fun i => aes true key (dukptData (i + 1) usage alg tail)).take (wkLen alg)

/-- Algorithm code of an AES key by its length. -/
def aesCode (k : Bytes) : Nat := if k.length = 16 then 0 else if k.length = 24 then 1 else 2

def dukptWalk (id : Bytes) (alg : Nat) : Nat → Nat → Nat → Bytes → Bytes
  | 0, _, _, k => k
  | b + 1, ctr, acc, k =>
    if ctr.testBit b then
      let acc := acc + 2 ^ b
      dukptWalk id alg b ctr acc (dukptKey k 0x8000 alg (id ++ be 4 acc))
    else dukptWalk id alg b ctr acc k

/-- Working key of AES DUKPT: initial key from the BDK and the first 8 bytes of the KSN, one derivation per counter
bit, then the working key. -/
def dukptAes (bdk ksn : Bytes) (usage wk : Nat) : Bytes :=
  let alg := aesCode bdk
  let ik := dukptKey bdk 0x8001 alg (slice ksn 0 8)
  let c := beAt ksn 8 4
  let dk := dukptWalk (slice ksn 4 4) alg 32 c 0 ik
  dukptKey dk usage wk (slice ksn 4 4 ++ be 4 c)

def dukptMask : Bytes := [0xC0, 0xC0, 0xC0, 0xC0, 0, 0, 0, 0, 0xC0, 0xC0, 0xC0, 0xC0, 0, 0, 0, 0]

/-- The non-reversible key generation process of X9.24-1. -/
def nrkg (key ksn8 : Bytes) : Bytes :=
  let one := fun (k : Bytes) => xorBytes (desE (slice k 0 8) (xorBytes ksn8 (slice k 8 8))) (slice k 8 8)
  one (xorBytes key dukptMask) ++ one key

def nrkgWalk : Nat → Nat → Nat → Bytes → Bytes → Bytes
  | 0, _, _, _, k => k
  | b + 1, c, base, ksn, k =>
    if c.testBit b then
      let base := base + 2 ^ b
      nrkgWalk b c base ksn (nrkg k (be 8 base))
    else nrkgWalk b c base ksn k

/-- Transaction key of TDES DUKPT with a variant. -/
def dukptTdes (bdk ksn variant : Bytes) : Bytes :=
  let v := fromBe ksn
  let c := v % 2 ^ 21
  let base := be 10 (v - c)
  let ik := tdes true bdk (slice base 0 8) ++ tdes true (xorBytes bdk dukptMask) (slice base 0 8)
  xorBytes (nrkgWalk 21 c (fromBe (slice base 2 8)) base ik) variant

/-- Bits set in the low `n` bits. -/
def popCount (n v : Nat) : Nat := ((List.range n).filter fun i => v.testBit i).length

end Sys2Proof.Machine
end

