-- ==== Sys2Proof/Machine/Strong.lean ====
section
/-!
DEFINITION. Roots, the ladder input, slot records, the assignment map and the slot directory (spec/10).
-/
namespace Sys2Proof.Machine

/-! ### Roots (R279 to R285) -/

/-- A fuse group of three decodes as burned when two of its fuses are (R364). -/
def burned (n : Nat) : Bool := 2 ≤ n

/-- The life-cycle state that the fuses hold (R364); `ST_PROD` without `ST_TEST` is END OF LIFE. -/
def fusedState (f : Fuses) : LcState :=
  if burned f.stEol || (burned f.stProd && !burned f.stTest) then .endOfLife
  else if burned f.stProd then .production
  else if burned f.stTest then .test
  else .blank

def testRootKey (s : State) : Bytes := sha384 s.lcs.fuses.testSeed

/-- The Device Root from its good copy. -/
def deviceRoot (s : State) : Option Bytes :=
  let f := s.lcs.fuses
  if burned f.rootAValid && !f.rootASpoiled then some f.rootA
  else if burned f.rootBValid && !f.rootBSpoiled then some f.rootB
  else none

/-- SRM_STATUS.ROOT: 0 none, 1 Device Root, 2 Test Root (R279, R280). -/
def rootSel (s : State) : Nat :=
  match s.lcs.state with
  | .blank | .endOfLife => 0
  | .test => 2
  | .production => if s.lcs.debug then 2 else if (deviceRoot s).isSome then 1 else 0

def rootKey (s : State) : Option Bytes :=
  match rootSel s with
  | 1 => deviceRoot s
  | 2 => some (testRootKey s)
  | _ => none

/-- The ladder runs on the Test Root in PRODUCTION (R281). -/
def sealedSession (s : State) : Bool := s.lcs.state == .production && rootSel s = 2

/-- A ladder output (R285); the ladder yields nothing without a root. -/
def ladder (s : State) (label : String) (ctx : Bytes) (n : Nat) : Option Bytes :=
  (rootKey s).map fun r => ladderKdf r label ctx n

/-- Device Identity Key: private scalar, public point, and its digest, the device identity. -/
def dikPriv (s : State) : Bytes := ecScalar ((ladder s "QLV-DIK" [] 64).getD [])
def dikPub (s : State) : Bytes := ecPub 2 (dikPriv s)

/-- SRM_DEVICE_ID; zero while ROOT is not 0b01 (R317). -/
def deviceId (s : State) : Bytes := if rootSel s = 1 then sha384 (dikPub s) else zeros 48

/-- The identity that Slot Update Messages and signatures use, under the root that the ladder runs on. -/
def partId (s : State) : Bytes := sha384 (dikPub s)

/-- The Span link root (R285). -/
def spanRoot (s : State) : Bytes := (ladder s "QLV-SPAN" [] 48).getD []

def xptPriv (s : State) : Bytes := ecScalar ((ladder s "QLV-XPT-EC" [] 64).getD [])
def xptKem (s : State) : Bytes := (ladder s "QLV-XPT-KEM" [] 64).getD []

/-- A signature by the Device Identity Key over a digest; the nonce is the free value `k` of this step. -/
def dikSign (s : State) (k : Nat) (dg : Bytes) : Bytes := ecdsa 2 (dikPriv s) dg (freeBytesAt s k 48)

def unshare (x : Option Shares) : Option Bytes := x.map fun v => xorBytes v.x v.y

/-- Two shares of a value; the mask is the free value `k` of this step (R283). -/
def mkShares (s : State) (k : Nat) (v : Bytes) : Shares :=
  let m := freeBytesAt s k v.length
  ⟨m, xorBytes v m⟩

def epochReg (s : State) (e : Bool) : Option Shares := if e then s.srm.epoch1 else s.srm.epoch0

def vekOf (s : State) (e : Bool) : Option Bytes := unshare (epochReg s e)

/-- A Vault Epoch Key exists (R313). -/
def hasVek (s : State) : Bool := (epochReg s s.srm.epoch).isSome

def setEpochReg (s : State) (e : Bool) (v : Option Shares) : State :=
  { s with srm := if e then { s.srm with epoch1 := v } else { s.srm with epoch0 := v } }

/-! ### The Reliquary (R283) -/

/-- A value as the 64 bytes of its two shares, the mask first. -/
def sharedLine (s : State) (k : Nat) (v : Bytes) : Bytes := (mkShares s k v).x ++ (mkShares s k v).y

/-- The value of Reliquary line `l` (3 to 31). -/
def lineKey (s : State) (l : Nat) : Bytes :=
  let b := padTo 64 (s.srm.lines.get [] l)
  xorBytes (b.take 32) (b.drop 32)

/-- A value under new masks. -/
def remask (m : Bytes) (x : Shares) : Shares := ⟨xorBytes x.x m, xorBytes x.y m⟩

/-- Both shares of a line's 64 bytes under a new mask. -/
def remaskLine (m b : Bytes) : Bytes := let b := padTo 64 b; xorBytes b (m ++ m)

/-- New masks for the lines that `p` selects; `mask l` is the mask of line `l`. -/
def remaskLines (p : Nat → Bool) (mask : Nat → Bytes) (r : Strongroom) : Strongroom :=
  let one := fun l (x : Option Shares) => if p l then x.map (remask (mask l)) else x
  { r with
    epoch0 := one 0 r.epoch0, epoch1 := one 1 r.epoch1, maskSeed := one 2 r.maskSeed
    lines := r.lines.mapAll [] fun l b => if p l then remaskLine (mask l) b else b }

/-- Values held enciphered under the key of line `l`: AES-256-CTR from the counter block that names the value (R331, R336). -/
def lineCipher (s : State) (l i : Nat) (b : Bytes) : Bytes := ctr32 (aes true (lineKey s l)) (be 12 i ++ zeros 4) b

/-! ### The counter area (R290, R331) -/

def mapKey (s : State) : Bytes := (ladder s "QLV-MAP" [] 48).getD []

/-- An entry of the map as its 16 bits. -/
def MapEnt.word (m : MapEnt) : Nat := m.owner % 256 + 256 * b2n m.assigned + 512 * b2n m.head + 1024 * b2n m.member

def CusSet.bytes (c : CusSet) : Bytes := le 1 c.n ++ le 1 c.m ++ c.point ++ c.commit

/-- Bytes of block `b`: 2,048 entries of the map, the 64 counters, or the custodian set. -/
def CounterArea.bytes (a : CounterArea) (b : Nat) : Bytes :=
  if b < 32 then (List.range 2048).flatMap fun i => le 2 (a.map.get {} (2048 * b + i)).word
  else if b = 32 then (List.range 64).flatMap fun g => le 8 (a.counters.get 0 g).toNat
  else match a.set with
    | some c => c.bytes
    | none => []

def areaMac (s : State) (a : CounterArea) (b : Nat) : Bytes := hmac 3 (mapKey s) (a.bytes b)

/-- Block `b` is written with its HMAC. -/
def signBlock (s : State) (b : Nat) (a : CounterArea) : CounterArea :=
  { a with macs := a.macs.put none b (some (areaMac s a b)), lost := a.lost.filter (· ≠ b) }

/-- A change of block `b` goes to every available bank (R296), and to none in an inspection session (R281). -/
def writeArea (s : State) (b : Nat) (f : CounterArea → CounterArea) : State :=
  let put := fun (k : Bank) => if k.available && !sealedSession s then { k with area := signBlock s b (f k.area) } else k
  { s with srm := { s.srm with bank := s.srm.bank.map put } }

/-- Bank `h` is available and its block `b` passes its HMAC; a block that nothing has written passes (entry 82). -/
def blockGood (s : State) (h : Half) (b : Nat) : Bool :=
  let k := s.srm.bank.get h
  k.available && !k.area.lost.contains b &&
    match k.area.macs.get none b with
    | some m => m == areaMac s k.area b
    | none => true

/-- Block `b` of `src` in place of that of `dst`. -/
def copyBlock (b : Nat) (src dst : CounterArea) : CounterArea :=
  let a := { dst with macs := dst.macs.put none b (src.macs.get none b), lost := dst.lost.filter (· ≠ b) }
  if b < 32 then
    { a with map := dst.map.filter (fun e => e.1 / 2048 < b) ++ src.map.filter (fun e => e.1 / 2048 = b) ++
        dst.map.filter (fun e => b < e.1 / 2048) }
  else if b = 32 then { a with counters := src.counters }
  else { a with set := src.set }

/-- A gallery's update counter. -/
def setCounter (s : State) (g : Nat) (v : BitVec 64) : State :=
  writeArea (updGal s g fun x => { x with counter := v }) 32 fun a => { a with counters := a.counters.put 0 g v }

/-! ### Slot records (R286 to R298) -/

def mapEnt (s : State) (n : Nat) : MapEnt := s.srm.map.get {} n
def dirEnt (s : State) (n : Nat) : DirEnt := s.srm.dir.get {} n
def setDir (s : State) (n : Nat) (d : DirEnt) : State := { s with srm := { s.srm with dir := s.srm.dir.put {} n d } }

/-- An entry of the map, in the controller and in the available banks. -/
def setMap (s : State) (n : Nat) (m : MapEnt) : State :=
  writeArea { s with srm := { s.srm with map := s.srm.map.put {} n m } } (n / 2048) fun a => { a with map := a.map.put {} n m }

/-- Slot `n` lies in a wide slot. -/
def inWide (s : State) (n : Nat) : Bool := (mapEnt s n).head || (mapEnt s n).member

/-- The head of the slot that slot `n` lies in. -/
def headOf (s : State) (n : Nat) : Nat := if (mapEnt s n).member then n / 16 * 16 else n

/-- `PART` of a record at position `n`. -/
def partAt (s : State) (n : Nat) : Nat := if inWide s n then n % 16 else 0

/-- Bytes 0x00 to 0x0F of a record (R286). -/
def Rec.head (r : Rec) : Bytes :=
  le 2 r.slot ++ le 1 r.gal ++ le 1 r.alg ++ le 4 r.attr.toNat ++ le 4 (r.gen.toNat + 2 ^ 31 * b2n r.epoch) ++ le 1 r.part ++
    le 1 r.hash ++ le 2 r.keyLen

/-- Bytes 0x00 to 0x1F: the additional data. -/
def Rec.aad (r : Rec) : Bytes := r.head ++ r.iv ++ zeros 4

/-- The 128 bytes of a record. -/
def Rec.bytes (r : Rec) : Bytes := r.aad ++ r.sealed ++ r.tag

/-- The slot sealing key of an epoch register (R285). -/
def sealKey (s : State) (e : Bool) : Option Bytes := (vekOf s e).bind fun v => ladder s "QLV-SEAL" v 32

/-- `r` with `m`, zero-filled to 80 bytes, sealed under `key` with the nonce `iv`. -/
def Rec.sealWith (r : Rec) (key iv m : Bytes) : Rec :=
  let r := { r with iv }
  let c := gcmEnc key iv r.aad (padTo 80 m)
  { r with sealed := c.1, tag := c.2, corrupt := false }

/-- `r` with material `m` under the active epoch. -/
def sealRec (s : State) (r : Rec) (m iv : Bytes) : Rec :=
  { r with epoch := s.srm.epoch }.sealWith ((sealKey s s.srm.epoch).getD []) iv m

/-- The 80 bytes of material of a record whose tag verifies under the sealing key of its `EPOCH`. -/
def unsealed (s : State) (r : Rec) : Option Bytes := (sealKey s r.epoch).bind fun k => gcmDec k r.iv r.aad r.sealed r.tag

/-- The empty record of slot `n` that the first start in PRODUCTION wrote (R282). -/
def BlankRecs.record (b : BlankRecs) (n : Nat) : Rec :=
  { slot := n, epoch := b.epoch : Rec }.sealWith b.key (tabulate 12 fun i => Config.freeByte b.seed (12 * n + i)) []

/-- The copy of slot `n` in bank `h`. -/
def copyOf (s : State) (h : Half) (n : Nat) : Option Rec :=
  let b := s.srm.bank.get h
  match b.recs.get none n with
  | some r => some r
  | none => b.base.map fun b => b.record n

/-- A record's tag verifies and its `SLOT` is its position. -/
def tagOk (s : State) (n : Nat) (r : Rec) : Bool := !r.corrupt && !sealedSession s && r.slot = n && (unsealed s r).isSome

/-- Bytes 0x02 to 0x0F agree but for `PART`; the register of the sealing key, which a Reseal changes record by record, is left
out (DEDUCED, entry 82). -/
def Rec.agrees (r x : Rec) : Bool :=
  r.gal = x.gal && r.alg = x.alg && r.attr = x.attr && r.gen = x.gen && r.hash = x.hash && r.keyLen = x.keyLen

/-- The records of the wide slot of slot `n` in bank `h` that are current and verify agree with `r` (R289). -/
def wideAgrees (s : State) (h : Half) (n : Nat) (r : Rec) : Bool :=
  (List.range 16).all fun i =>
    let k := n / 16 * 16 + i
    (s.srm.bank.get h).stale.contains k || (copyOf s h k).all fun x => !tagOk s k x || r.agrees x

/-- A copy in bank `h` is good (R289). -/
def recGood (s : State) (h : Half) (n : Nat) (r : Rec) : Bool :=
  tagOk s n r && r.gal = (mapEnt s n).owner && r.part = partAt s n && (!inWide s n || wideAgrees s h n r)

/-- The good copy in bank `h` of an available bank without a stale bit for the slot (R294, R297). -/
def goodCopy (s : State) (h : Half) (n : Nat) : Option Rec :=
  let b := s.srm.bank.get h
  if b.available && !b.stale.contains n then
    match copyOf s h n with
    | some r => if recGood s h n r then some r else none
    | none => none
  else none

/-- The record that half `h` reads: its own bank's copy when good, else the other's (R294). -/
def slotRec (s : State) (h : Half) (n : Nat) : Option Rec :=
  match goodCopy s h n with
  | some r => some r
  | none => goodCopy s (other h) n

/-- Algorithms that occupy a wide slot (R287). -/
def wideAlg (a : Nat) : Bool := a = 0x20 || a = 0x21 || a = 0x22

/-- Slots of a narrow slot or of a whole wide slot. -/
def slotSpan (s : State) (n : Nat) : List Nat :=
  if (mapEnt s n).head then (List.range 16).map (n + ·) else [n]

/-- Key material of slot `n` as half `h` reads it, with its algorithm, attributes and hash binding. -/
def slotKey (s : State) (h : Half) (n : Nat) : Option WorkKey :=
  match slotRec s h n with
  | none => none
  | some r =>
    let parts := (slotSpan s n).map fun k => (slotRec s h k).bind (unsealed s)
    if r.alg = 0 || parts.any (·.isNone) then none
    else
      let m := (parts.flatMap (·.getD [])).take r.keyLen
      some { alg := r.alg, attr := r.attr, hash := r.hash, material := m, slot := some n, gen := r.gen.toNat }

/-! ### The key cache (R166, R293) -/

/-- The name of a slot key: slot number and record generation. -/
def slotName (n gen : Nat) : Bytes := [1] ++ le 2 n ++ le 4 gen

def kcTag (x : LaneHalf) (name : Bytes) : BitVec 128 := Config.cacheTag x.kcKey name

def kcFind (x : LaneHalf) (g : Nat) (name : Bytes) : Option KcLine :=
  x.kc.find? fun l => l.gal = g && l.tag = kcTag x name

/-- The key of slot `n` for gallery `g` in half `h`: that of the key-cache line on a hit, else the unsealed record's (R293). -/
def keyFor (s : State) (h : Half) (g n : Nat) : Option WorkKey :=
  match kcFind (s.lanes.half.get h) g (slotName n (dirEnt s n).gen) with
  | some l => some l.key
  | none => slotKey s h n

/-! ### Writing records (R296, R304) -/

/-- The next write generation: one above the higher of the copies' that can be read (R304). -/
def nextGen (s : State) (n : Nat) : BitVec 31 :=
  let g := fun h => if (s.srm.bank.get h).available then ((copyOf s h n).map (·.gen.toNat)).getD 0 else 0
  BitVec.ofNat 31 (Nat.max (g .cope) (g .drag) + 1)

/-- The next generation of a whole slot, the same in every record of it (R289, R304). -/
def slotGen (s : State) (n : Nat) : BitVec 31 :=
  BitVec.ofNat 31 ((slotSpan s n).foldl (fun a k => Nat.max a (nextGen s k).toNat) 0)

/-- A record for slot `n` as sealed goes into bank `h`. -/
def putRec (s : State) (h : Half) (n : Nat) (r : Rec) : State :=
  { s with srm := { s.srm with bank := s.srm.bank.upd h fun b => { b with recs := b.recs.put none n (some r), stale := b.stale.filter (· ≠ n) } } }

/-- Seal `r` with material `m` into slot `n` under the active epoch in every available bank; the number goes into the stale map of
an unavailable one (R296). -/
def writeRec (s : State) (n : Nat) (r : Rec) (m : Bytes) : State :=
  let r := sealRec s { r with slot := n } m (freeBytes s 12)
  let put := fun (b : Bank) =>
    if b.available then { b with recs := b.recs.put none n (some r), stale := b.stale.filter (· ≠ n) }
    else { b with stale := if b.stale.contains n then b.stale else b.stale ++ [n] }
  let s := bump s
  { s with srm := { s.srm with
      bank := s.srm.bank.map put
      writtenSince := if s.srm.overwrite && !s.srm.writtenSince.contains n then s.srm.writtenSince ++ [n]
        else s.srm.writtenSince } }

/-- A record written for slot `n` joins the stale map of an unavailable bank (R296). -/
def markStale (s : State) (n : Nat) : State :=
  let f := fun (b : Bank) => if b.available || b.stale.contains n then b else { b with stale := b.stale ++ [n] }
  { s with srm := { s.srm with bank := s.srm.bank.map f } }

def emptyRec (gal gen part : Nat) : Rec := { gal, gen := BitVec.ofNat 31 gen, part }

/-- Both copies of any record of the slot are bad (R295). -/
def bothBad (s : State) (n : Nat) : Bool :=
  (slotSpan s n).any fun k => (goodCopy s .cope k).isNone && (goodCopy s .drag k).isNone

/-- The lower of the pointers in the journals of the available banks. -/
def journalAt (s : State) (p : Two Nat) : Nat :=
  Nat.min (if s.srm.bank.cope.available then p.cope else 65536) (if s.srm.bank.drag.available then p.drag else 65536)

/-- A journal's pointer in the available banks. -/
def journalSet (s : State) (p : Two Nat) (n : Nat) : Two Nat :=
  ⟨if s.srm.bank.cope.available then n else p.cope, if s.srm.bank.drag.available then n else p.drag⟩

/-- Slot `n` has not been written since a quench that the overwrite has still to pass (R313). -/
def covered (s : State) (n : Nat) : Bool :=
  s.srm.quenching || s.srm.overwrite && journalAt s s.srm.overwritePos ≤ n && !s.srm.writtenSince.contains n

/-- The directory entry of slot `n` from the map and the records (R291); a slot of which a record awaits the overwrite reads
EMPTY (R313). -/
def dirOf (s : State) (n : Nat) : DirEnt :=
  let m := mapEnt s n
  let w := if m.head then 1 else if m.member then 2 else 0
  let head := headOf s n
  let st : DirState :=
    if !m.assigned then .unassigned
    else if (slotSpan s head).any (covered s) then .empty
    else if bothBad s head then .bad
    else match slotRec s .cope n with
      | some r => if r.alg = 0 then .empty else .good
      | none => .bad
  { owner := m.owner, state := st, wide := w, gen := ((slotRec s .cope n).map fun r => r.gen.toNat % 4096).getD 0 }

def refreshDir (s : State) (ns : List Nat) : State := ns.foldl (fun s n => setDir s n (dirOf s n)) s

/-- The entries of the whole slots that the numbers lie in. -/
def refreshWhole (s : State) (ns : List Nat) : State := refreshDir s (((ns.map (headOf s)).eraseDups).flatMap (slotSpan s))

/-- Slots that the map assigns. -/
def assignedSlots (s : State) : List Nat := (s.srm.map.filter (·.2.assigned)).map (·.1)

def slotsOf (s : State) (g : Nat) : List Nat :=
  (s.srm.map.filter fun e => e.2.assigned && e.2.owner = g).map (·.1)

def occupiedSlots (s : State) (ns : List Nat) : List Nat := ns.filter fun n => (dirEnt s n).state == .good

/-- Key-cache lines of a slot leave both halves (R159). -/
def dropLines (s : State) (g : Nat) (ns : List Nat) : State :=
  let f := fun (x : LaneHalf) => { x with kc := x.kc.filter fun l => !(l.gal = g && (l.key.slot.any fun n => ns.contains n)) }
  { s with lanes := { s.lanes with half := s.lanes.half.map f } }

/-- Quench, step 1 (R312): both epoch registers are overwritten; steps 2 and 3 follow at the next changes step. -/
def quenchNow (s : State) : State :=
  { s with srm := { s.srm with epoch0 := none, epoch1 := none, quenching := true } }

end Sys2Proof.Machine
end

