-- ==== Sys2Proof/Machine/Req.lean ====
section
/-!
DEFINITION. The Pattern set with its slots (R174, R175, R220, R250), the submission entry as the Patterns read it
(R113, R114, R177), the roles of its key references (R183, R224, R256).
-/
namespace Sys2Proof.Machine

/-! ### The Pattern set -/

/-- Slots of every Pattern that a chapter defines: 0 for any other number. -/
def patSlots (n : Nat) : Nat :=
  if n = 0x0F03 then 8
  else if [0x0F00, 0x0F01, 0x0F02, 0x0100, 0x0200, 0x0201, 0x0202, 0x0220, 0x0502].contains n then 1
  else if [0x0101, 0x0110, 0x0111, 0x0112, 0x0228, 0x0300, 0x0310, 0x0311, 0x0500, 0x0520, 0x0600, 0x0601, 0x0602,
      0x0603, 0x0604, 0x0610, 0x0611, 0x0800, 0x0801].contains n then 2
  else if n = 0x0312 then 3
  else if [0x0400, 0x0401, 0x0402, 0x0408, 0x0409, 0x0501, 0x0510, 0x0521, 0x0700, 0x0810, 0x0811].contains n then 4
  else if [0x0208, 0x0209, 0x020A, 0x0608, 0x0609, 0x060A, 0x060B, 0x060C, 0x0618, 0x0619, 0x0708, 0x0808,
      0x0809].contains n then 8
  else if [0x0900, 0x0901, 0x0902, 0x0903, 0x0910, 0x0911, 0x0912, 0x0920, 0x0921, 0x0922, 0x0930, 0x0931,
      0x0932].contains n then 1
  else 0

/-- Cupola Patterns (R251). -/
def cupolaPat (n : Nat) : Bool := 0x0900 ≤ n && n ≤ 0x09FF || n = 0x0510

/-- Handoff Patterns (R405). -/
def handoffPat (n : Nat) : Bool := 0x1000 ≤ n && n ≤ 0x1FFF

/-- Data-cipher Patterns by mode: 0 CBC, 1 CTR, 2 XTS, 3 GCM, 4 CCM, 5 TDES ECB, 6 TDES CBC. -/
def cipherMode (n : Nat) : Option Nat :=
  match n with
  | 0x0600 | 0x0608 => some 0
  | 0x0601 | 0x0609 => some 1
  | 0x0602 | 0x060A => some 2
  | 0x0603 | 0x060B => some 3
  | 0x0604 | 0x060C => some 4
  | 0x0610 | 0x0618 => some 5
  | 0x0611 | 0x0619 => some 6
  | _ => none

def longPat (n : Nat) : Bool := n % 16 ≥ 8

/-! ### The entry -/

/-- One submission entry with its input, as the usage checker and the Patterns read it. -/
structure Req where
  raw : Bytes
  pat : Nat
  flags : Nat
  inHost : Bool
  inLen : Nat
  outCap : Nat
  outAddr : BitVec 64
  inAddr : BitVec 64
  /-- The parameter block: 32 bytes inline, 24 bytes with host input. -/
  par : Bytes
  inp : Bytes
  refs : List Nat
  deriving DecidableEq, Repr

def Req.of (e : Bytes) (inp : Bytes) : Req :=
  let inHost := nbit (byteAt e 2) 4
  { raw := e, pat := leAt e 0 2, flags := byteAt e 2, inHost, inLen := leAt e 6 2, outCap := leAt e 8 2
    outAddr := BitVec.ofNat 64 (leAt e 0x18 8), inAddr := BitVec.ofNat 64 (leAt e 0x20 8)
    par := if inHost then slice e 0x28 24 else slice e 0x20 32
    inp, refs := [leAt e 0x0C 4, leAt e 0x10 4, leAt e 0x14 4] }

def Step.req (e : Step) : Req := Req.of e.entry e.input

def Req.first (r : Req) : Bool := nbit r.flags 0
def Req.last (r : Req) : Bool := nbit r.flags 1
def Req.batch (r : Req) : Bool := nbit r.flags 2
def Req.batchEnd (r : Req) : Bool := nbit r.flags 3

/-- Byte, little-endian field and big-endian field of the parameter block. -/
def Req.p (r : Req) (o : Nat) : Nat := byteAt r.par o
def Req.p2 (r : Req) (o : Nat) : Nat := leAt r.par o 2

/-- Parameter bytes `o` to `o + n - 1` are zero. -/
def Req.pz (r : Req) (o n : Nat) : Bool := allZero (slice r.par o n)

/-- Input bytes `o` to `o + n - 1` are zero. -/
def Req.iz (r : Req) (o n : Nat) : Bool := allZero (slice r.inp o n)

/-- The 32-byte block of a Pattern that accepts both forms (R177). -/
def Req.blk (r : Req) : Bytes := if r.inHost then slice r.par 0 16 ++ slice r.inp 0 16 else r.par

def refType (x : Nat) : Nat := x / 2 ^ 28
def refOff (x : Nat) : Nat := 16 * (x / 2 ^ 16 % 4096)
def refSlot (x : Nat) : Nat := x % 65536
def refChain (x : Nat) : Nat := x % 4

/-- Reserved bits of a reference are zero (R114). -/
def refOk (x : Nat) : Bool :=
  match refType x with
  | 0 => x = 0
  | 1 => x / 2 ^ 16 % 4096 = 0
  | 2 => true
  | 3 => x % 2 ^ 28 < 4
  | _ => false

/-! ### Roles -/

/-- What a key reference must be: slot usage bit and algorithms, key-block usage and modes, the kinds of reference
accepted, the chain-key usage. `exporting`: an export source. -/
structure KeyRole where
  usageBit : Nat
  algs : List Nat
  usage : String := ""
  modes : String := ""
  slot : Bool := true
  kb : Bool := true
  chain : Option Nat := none
  exporting : Bool := false
  inspect : Bool := false

def aesAlgs : List Nat := [3, 4, 5]
def tdesAlgs : List Nat := [1, 2]
def anyCipher : List Nat := [1, 2, 3, 4, 5]

/-- Algorithms of a PIN key by PIN-block format (R183). -/
def pinAlgs (fmt : Nat) : List Nat := if fmt = 4 then aesAlgs else tdesAlgs

def rolePinIn (fmt : Nat) : KeyRole := { usageBit := 1, algs := pinAlgs fmt, usage := "P0", modes := "BD" }
def rolePinOut (fmt : Nat) : KeyRole := { usageBit := 0, algs := pinAlgs fmt, usage := "P0", modes := "BE" }
def rolePv (gen : Bool) : KeyRole := { usageBit := if gen then 3 else 2, algs := anyCipher, usage := "V1", modes := if gen then "CG" else "CV" }
def roleMac (verify : Bool) (alg : Nat) : KeyRole :=
  { usageBit := if verify then 5 else 4, algs := if alg = 1 then tdesAlgs else if alg = 3 then [1] else anyCipher
    usage := if alg = 1 then "M1" else if alg = 3 then "M3" else "M6", modes := if verify then "CV" else "CG" }
def roleWrap : KeyRole := { usageBit := 13, algs := anyCipher, kb := false }
def roleKwWrap : KeyRole := { usageBit := 15, algs := aesAlgs, kb := false }
def roleKwUnwrap : KeyRole := { usageBit := 16, algs := aesAlgs, kb := false }
def roleData (dec : Bool) (algs : List Nat) : KeyRole :=
  { usageBit := if dec then 18 else 17, algs, usage := "D0", modes := if dec then "BD" else "BE", chain := some 0 }
def roleExport : KeyRole := { usageBit := 28, algs := [1, 2, 3, 4, 5, 6], exporting := true }

/-- Roles of KEY_A, KEY_B and KEY_C; `none` for a reference that the Pattern does not read. -/
def Req.roles (r : Req) : List (Option KeyRole) :=
  let b := r.blk
  let f := fun o => byteAt b o
  match r.pat with
  | 0x0100 | 0x0101 => [some (rolePinIn (f 0)), some (rolePinOut (f 1)), none]
  | 0x0110 => [some (rolePinIn (r.p 0)), some (rolePv false), none]
  | 0x0111 => [some (rolePinIn (r.p 0)), some (rolePv true), none]
  | 0x0112 => [some (rolePinOut (r.p 0)), some (rolePv true), none]
  | 0x0200 | 0x0208 => [some (roleMac (r.p 0 = 1) 1), none, none]
  | 0x0201 | 0x0209 => [some (roleMac (r.p 0 = 1) 3), none, none]
  | 0x0202 | 0x020A => [some (roleMac (r.p 0 = 1) 6), none, none]
  | 0x0220 => [some { usageBit := if f 0 = 1 then 7 else 6, algs := [1], usage := "C0", modes := if f 0 = 1 then "CV" else "CG" },
      none, none]
  | 0x0228 => [some { usageBit := 8, algs := [1], usage := "C0", modes := "X" }, none, none]
  | 0x0300 => [some { usageBit := 9, algs := 1 :: aesAlgs, usage := "E0", modes := "X" }, none, none]
  | 0x0310 => [some { usageBit := 10, algs := 1 :: aesAlgs, usage := "E2", modes := "X" }, none, none]
  | 0x0311 => [some { usageBit := 11, algs := 1 :: aesAlgs, usage := "E1", modes := "X" }, none, none]
  | 0x0312 => [some { usageBit := 11, algs := 1 :: aesAlgs, usage := "E1", modes := "X" }, some (rolePinIn (r.p 0)), none]
  | 0x0400 => [some { usageBit := 12, algs := aesAlgs, usage := "B0", modes := "X" }, some (rolePinOut (r.p 1)), none]
  | 0x0401 | 0x0402 => [some { usageBit := 12, algs := aesAlgs, usage := "B0", modes := "X" }, none, none]
  | 0x0408 => [some { usageBit := 12, algs := [1], usage := "B0", modes := "X" }, some (rolePinOut (r.p 1)), none]
  | 0x0409 => [some { usageBit := 12, algs := [1], usage := "B0", modes := "X" }, none, none]
  | 0x0500 => [some roleExport, some roleWrap, none]
  | 0x0501 => [some roleWrap, if nth 0 r.refs 1 = 0 then none else some roleWrap, none]
  | 0x0502 => [some { usageBit := 32, algs := [], slot := false, inspect := true }, none, none]
  | 0x0510 => [some roleExport, none, none]
  | 0x0520 => [some { roleExport with slot := false }, some roleKwWrap, none]
  | 0x0521 => [some roleKwUnwrap, some roleWrap, none]
  | 0x0700 | 0x0708 => [some (roleData (r.p 0 = 1) aesAlgs), none, none]
  | 0x0801 | 0x0809 => [some { usageBit := if r.p 0 = 1 then 20 else 19, algs := [6], usage := "M7"
                               modes := if r.p 0 = 1 then "CV" else "CG", chain := some 1 }, none, none]
  | 0x0810 | 0x0811 =>
    [some { usageBit := 21, algs := if r.pat = 0x0810 && r.p 0 = 4 then aesAlgs else [1, 2, 3, 4, 5, 6], kb := false, chain := some 2 },
      if r.p 1 = 0 then some roleWrap else none, none]
  | 0x0900 => [some { usageBit := 22, algs := [0x0F + r.p 0], kb := false }, none, none]
  | 0x0903 => [some { usageBit := 23, algs := [0x0F + r.p 0], kb := false }, some roleWrap, none]
  | 0x0910 => [some { usageBit := 22, algs := [0x1F + r.p 0], kb := false }, none, none]
  | 0x0920 => [some { usageBit := 22, algs := [0x30], kb := false }, none, none]
  | 0x0930 => [none, some roleWrap, none]
  | 0x0931 => [some { usageBit := 24, algs := [0x31], kb := false }, some roleWrap, none]
  | 0x0902 | 0x0912 | 0x0922 | 0x0932 => [some roleKwWrap, none, none]
  | n =>
    match cipherMode n with
    | some 2 => [some (roleData (r.p 0 = 1) aesAlgs), some (roleData (r.p 0 = 1) aesAlgs), none]
    | some m => [some (roleData (r.p 0 = 1) (if m ≥ 5 then tdesAlgs else aesAlgs)), none, none]
    | none => [none, none, none]

/-- A role accepts the type of a reference. -/
def KeyRole.takes (o : KeyRole) (x : Nat) : Bool :=
  match refType x with
  | 1 => o.slot
  | 2 => o.kb
  | 3 => o.chain.isSome
  | _ => false

/-- Key-block references of the entry. -/
def Req.kbRefs (r : Req) : List Nat := r.refs.filter fun x => refType x = 2

def Req.slotRefs (r : Req) : List Nat := r.refs.filter fun x => refType x = 1

/-- Slots that the entry names: slot references and the key-encryption keys of key blocks. -/
def Req.slots (r : Req) : List Nat := (r.slotRefs ++ r.kbRefs).map refSlot

end Sys2Proof.Machine
end

