-- ==== Sys2Proof/Machine/Admin.lean ====
section
/-!
DEFINITION. Admin commands: the entry, the order of its checks, its completion (R115, R116, R609, R610; issuer rules R77,
R102, R137, R316, R356, R385, R414, R467, R486, R509, R521, R551).
-/
namespace Sys2Proof.Machine

/-- Bytes of `PARAMS` that an opcode uses, its reserved parameters, the parameter bytes whose bits 7:4 are reserved, whether only the Curator issues it, and whether it
needs the Reserve pair. -/
structure AdmRow where
  len : Nat
  reserved : List (Nat × Nat) := []
  high : List Nat := []
  curator : Bool := false
  reserve : Bool := false

/-- The assigned opcodes. -/
def admRow (op : Nat) : Option AdmRow :=
  match op with
  | 0x00 => some { len := 27 }
  | 0x01 => some { len := 12 }
  | 0x02 | 0x03 | 0x04 => some { len := 1 }
  | 0x05 => some { len := 8 }
  | 0x06 => some { len := 3 }
  | 0x10 => some { len := 19, high := [1], curator := true }
  | 0x11 => some { len := 1, curator := true }
  | 0x12 => some { len := 6, curator := true }
  | 0x13 => some { len := 13, curator := true }
  | 0x14 => some { len := 2, high := [1], curator := true }
  | 0x15 => some { len := 14, curator := true, reserve := true }
  | 0x16 => some { len := 9 }
  | 0x17 => some { len := 8, curator := true }
  | 0x20 => some { len := 6, curator := true, reserve := true }
  | 0x21 => some { len := 4, curator := true, reserve := true }
  | 0x22 => some { len := 22, reserve := true }
  | 0x23 => some { len := 6, reserve := true }
  | 0x24 => some { len := 10, reserve := true }
  | 0x25 => some { len := 0, reserve := true }
  | 0x26 => some { len := 8, reserve := true }
  | 0x27 => some { len := 0, curator := true, reserve := true }
  | 0x30 => some { len := 10, reserve := true }
  | 0x31 | 0x32 => some { len := 4, reserve := true }
  | 0x33 | 0x34 => some { len := 20, curator := true, reserve := true }
  | 0x35 => some { len := 6, reserve := true }
  | 0x36 => some { len := 5, curator := true, reserve := true }
  | 0x37 => some { len := 12, curator := true, reserve := true }
  | 0x40 => some { len := 6, curator := true, reserve := true }
  | 0x41 => some { len := 14, curator := true, reserve := true }
  | 0x42 => some { len := 42, reserve := true }
  | 0x43 => some { len := 10, curator := true, reserve := true }
  | 0x44 => some { len := 11, reserve := true }
  | 0x50 => some { len := 9, curator := true }
  | 0x51 => some { len := 10, curator := true }
  | 0x52 => some { len := 0, curator := true }
  | 0x53 => some { len := 16, reserved := [(5, 1)], curator := true }
  | 0x54 | 0x55 | 0x56 => some { len := 1, curator := true }
  | 0x57 => some { len := 44 }
  | 0x58 => some { len := 8, curator := true }
  | 0x60 => some { len := 21, reserve := true }
  | 0x61 => some { len := 1, reserve := true }
  | 0x62 => some { len := 8 }
  | 0x63 => some { len := 2, curator := true, reserve := true }
  | 0x70 => some { len := 8, curator := true }
  | 0x71 => some { len := 8, curator := true }
  | 0x72 => some { len := 8, reserved := [(3, 1)], curator := true }
  | 0x73 => some { len := 2, curator := true }
  | 0x74 => some { len := 1, curator := true }
  | 0x75 => some { len := 8, reserved := [(3, 1)], curator := true }
  | 0x76 => some { len := 8, curator := true }
  | 0x77 => some { len := 8, curator := true }
  | 0x78 => some { len := 2, curator := true }
  | 0x79 => some { len := 12, curator := true }
  | 0x7A => some { len := 0, curator := true }
  | 0x7B => some { len := 12, curator := true }
  | 0x7C => some { len := 8, curator := true }
  | 0x80 => some { len := 12, curator := true, reserve := true }
  | 0x81 => some { len := 2, curator := true, reserve := true }
  | 0x82 => some { len := 1, curator := true, reserve := true }
  | 0x83 | 0x86 => some { len := 0, curator := true, reserve := true }
  | 0x84 => some { len := 8, curator := true }
  | 0x85 => some { len := 12, curator := true, reserve := true }
  | 0x90 | 0x91 => some { len := 2, curator := true }
  | 0x92 | 0x93 => some { len := 1, curator := true }
  | _ => none

def AdminCmd.op (c : AdminCmd) : Nat := byteAt c.entry 0

/-- Parameter of `n` bytes at offset `o` of `PARAMS`. -/
def AdminCmd.p (c : AdminCmd) (o n : Nat) : Nat := leAt c.entry (16 + o) n
def AdminCmd.pb (c : AdminCmd) (o n : Nat) : Bytes := slice c.entry (16 + o) n

def AdminCmd.key (c : AdminCmd) : Nat := qkey c.gal c.sq

/-- Reserved fields and unused bytes are zero (R609 step 1). -/
def AdmRow.clean (r : AdmRow) (e : Bytes) : Bool :=
  allZero (slice e 1 3) && allZero (slice e 6 10) && allZero (slice e (16 + r.len) (48 - r.len)) &&
    (r.reserved.all fun x => allZero (slice e (16 + x.1) x.2)) && r.high.all fun o => byteAt e (16 + o) < 16

/-- The confirmed command of admin queue `q` of gallery `g`. -/
def admAt (s : State) (g q : Nat) (ph : AdmPhase) : Option AdminCmd :=
  s.adm.find? fun c => c.gal = g && c.sq = q && c.phase == ph

def updAdm (s : State) (c : AdminCmd) (f : AdminCmd → AdminCmd) : State :=
  { s with adm := s.adm.map fun x => if x.seq = c.seq then f x else x }

/-- The command has begun and ends at a later step. -/
def keepRunning (s : State) (c : AdminCmd) : State := updAdm s c fun x => { x with phase := .running }

def done (s : State) (c : AdminCmd) : State := completeAdmin s c .done 0 0 []
def doneWith (s : State) (c : AdminCmd) (result : Bytes) : State := completeAdmin s c .done 0 0 result
def fails (s : State) (c : AdminCmd) (st : Status) : State := completeAdmin s c st 0 0 []

/-- A command completes after the host writes that it made (R170). -/
def doneOut (s : State) (c : AdminCmd) (outs : List (BitVec 64 × Bytes)) (result : Bytes) : State :=
  produceAdmin s c
    { cmdId := leAt c.entry 4 2, result, outs, tick := tick s + 1, index := c.index, covers := [(c.index, 1)] }

/-- One write at the address of parameter `o`, then `DONE`; a write that fails gives `DMA_ERROR` (R118, DETAIL 3). -/
def query (s : State) (c : AdminCmd) (o : Nat) (ok : Bool) (b : Bytes) (result : Bytes) : State :=
  if ok then doneOut s c [(BitVec.ofNat 64 (c.p o 8), b)] result else completeAdmin s c .dmaError 3 0 []

/-- Host data that a command reads: `DMA_ERROR` when the read fails (DETAIL 1). -/
def withRead (s : State) (c : AdminCmd) (d : Option Bytes) (f : Bytes → State) : State :=
  match d with
  | some b => f b
  | none => completeAdmin s c .dmaError 1 0 []

/-- In an inspection session the Curator's commands outside 0x00–0x0F, 0x40–0x4F and 0x70–0x7F end `RESERVE_BUSY`
(R376). -/
def sessionAllows (op : Nat) : Bool := op < 0x10 || (0x40 ≤ op && op < 0x50) || (0x70 ≤ op && op < 0x80)

/-- An admin row: the confirmed command of `(g, q)` carries `op`, passes R609 steps 1 to 3 and then runs `f`; while the
Reserve pair restarts a command that needs it waits (R18), but a Mould command in an Atrium pour ends `RESERVE_BUSY` (R78). Rows run between a parting window and the tick's end
(entry 13). -/
def runAdmin (s : State) (g : Gallery) (q : QIndex) (op : Nat) (f : State → AdminCmd → State) : State :=
  match admAt s g.toNat q.toNat .confirmed with
  | none => s
  | some c =>
    if c.op ≠ op || c.unread || !s.gen.windowDone then s
    else match admRow op with
      | none => s
      | some r =>
        if !r.clean c.entry then fails s c .badInput
        else if r.curator && c.gal ≠ 0 then fails s c .notAuthorised
        else if c.gal = 0 && s.lcs.session && !sessionAllows c.op then fails s c .reserveBusy
        else if 0x80 ≤ c.op && c.op ≤ 0x86 && s.mld.atriumPour.isSome then fails s c .reserveBusy
        else if r.reserve && s.atr.restarting then s
        else f s c

/-- UNASSIGNED_OPCODE (R609 step 2). -/
def execUnassignedOpcode (g : Gallery) (q : QIndex) (s : State) : Out :=
  .next <| match admAt s g.toNat q.toNat .confirmed with
  | none => s
  | some c => if (admRow c.op).isNone && !c.unread && s.gen.windowDone then fails s c .badInput else s

/-- A status that the spec does not name, for a command whose completion it does (entry 5). -/
def freeStatus (s : State) : Status :=
  nth .done [.done, .faultUnresolved, .reserveBusy, .notAuthorised, .badInput, .aborted]
    ((Config.freeByte s.freeCtr 0).toNat % 6)

/-- The earliest confirmed or running command among those that `p` selects (R89, R97). -/
def firstOf (s : State) (p : AdminCmd → Bool) (c : AdminCmd) : Bool :=
  !(s.adm.any fun x => x.phase != .read && p x && x.seq < c.seq)

end Sys2Proof.Machine
end

