-- ==== Sys2Proof/Machine/Fuses.lean ====
section
/-!
DEFINITION. Burning fuse fields and intent records (R362 to R368).
-/
namespace Sys2Proof.Machine

def updFuses (s : State) (f : Fuses → Fuses) : State := { s with lcs := { s.lcs with fuses := f s.lcs.fuses } }
def updLcs (s : State) (f : LifeCycle → LifeCycle) : State := { s with lcs := f s.lcs }
def updSrm (s : State) (f : Strongroom → Strongroom) : State := { s with srm := f s.srm }

def fused (s : State) : LcState := fusedState s.lcs.fuses

def LcState.code : LcState → Nat
  | .blank => 0
  | .test => 1
  | .production => 2
  | .endOfLife => 3

/-- Eight groups as a mask. -/
def bitsOf (l : List Nat) : Nat := (l.zip (List.range 8)).foldl (fun a e => if burned e.1 then a + 2 ^ e.2 else a) 0

/-- Burn the field that an intent record names (R365, R366): all three fuses of a group (R362). -/
def burnIntent (f : Fuses) (kind arg : Nat) (payload : Bytes) : Fuses :=
  match kind with
  | 2 => { f with stProd := 3 }
  | 3 => { f with stEol := 3 }
  | 4 => { f with consumed := setNth f.consumed arg 3 }
  | 5 => { f with ended := setNth f.ended arg 3 }
  | 6 => { f with secVer := Nat.max f.secVer arg }
  | 7 => { f with ownerAlg := f.ownerAlg ||| byteAt payload 0, ownerDigest := orBytes f.ownerDigest (slice payload 1 48), ownerValid := 3 }
  | _ => f

/-- A burn by boot ROM within its start (R365, R375): its intent is written and cleared within the start. -/
def burnField (s : State) (kind arg : Nat) (payload : Bytes) : State :=
  updLcs (updFuses s fun f => burnIntent f kind arg payload) fun l => { l with intentSeq := l.intentSeq + 1 }

/-- Both root fields are spoiled (R370). -/
def rootsSpoiled (f : Fuses) : Bool := f.rootASpoiled && f.rootBSpoiled

/-- A kind-1 record of an interrupted first start: the field that has no `VALID` group is spoiled (R370). -/
def spoilRoot (f : Fuses) (arg : Nat) : Fuses :=
  if arg = 0 then (if burned f.rootAValid then f else { f with rootASpoiled := true })
  else (if burned f.rootBValid then f else { f with rootBSpoiled := true })

/-- A record leaves the banks that can be written (R365). -/
def clearIntent (s : State) (i : Intent) : State :=
  let keep := fun h => if (s.pwr.feed.get h).valid then (s.lcs.intents.get h).filter fun x => x.seq ≠ i.seq else s.lcs.intents.get h
  updLcs s fun l => { l with intents := ⟨keep .cope, keep .drag⟩ }

/-- The root whose ladder a start's intent checks use: chosen by the fused state (R279, R366). -/
def intentRoot (s : State) : Option Bytes :=
  match fused s with
  | .test => some (testRootKey s)
  | .production => deviceRoot s
  | _ => none

/-- Bytes 0x00 to 0x4F of an intent record (R365). -/
def Intent.bytes (i : Intent) : Bytes :=
  le 4 0x544E5449 ++ le 1 i.kind ++ le 1 i.arg ++ zeros 2 ++ le 8 i.seq.toNat ++ padTo 64 i.payload

/-- MAC of an intent record under the map key of the ladder on `root`; of kind 1, its CRC (R365). -/
def Intent.macOf (root : Option Bytes) (i : Intent) : Bytes :=
  if i.kind = 1 then padTo 48 (le 4 (crc32 i.bytes)) else (root.map fun r => hmac 3 (ladderKdf r "QLV-MAP" [] 48) i.bytes).getD []

/-- The record's MAC verifies; a kind-1 record is valid while the fused state decodes as BLANK (R366). -/
def Intent.valid (s : State) (root : Option Bytes) (i : Intent) : Bool :=
  i.mac == i.macOf root && (i.kind ≠ 1 || fused s == .blank) && (i.kind = 1 || root.isSome)

/-- Complete one valid intent record and clear it (R366, R368, R370). -/
def completeIntent (root : Option Bytes) (s : State) (i : Intent) : State :=
  if !i.valid s root then s
  else
    let s := clearIntent (updFuses s fun f => if i.kind = 1 then spoilRoot f i.arg else burnIntent f i.kind i.arg i.payload) i
    updLcs s fun l =>
      { l with lastKind := BitVec.ofNat 8 i.kind, completed := BitVec.ofNat 8 (satInc 255 l.completed.toNat) }

/-- The records of the readable banks, each once, in `SEQ` order (R366). -/
def intentsOf (s : State) : List Intent :=
  let a := s.lcs.intents.cope
  let b := s.lcs.intents.drag.filter fun x => !(a.any fun y => y.seq = x.seq)
  sortBy (fun x y => x.seq.toNat ≤ y.seq.toNat) (a ++ b)

/-- Both banks are available (R367). -/
def bothBanks (s : State) : Bool := (s.srm.bank.get .cope).available && (s.srm.bank.get .drag).available

/-- The lowest token not consumed, 8 when none is left. -/
def nextToken (f : Fuses) : Nat := f.consumed.findIdx fun n => !burned n

/-- A token consumed and not ended (R374, R375). -/
def openToken (f : Fuses) : Option Nat :=
  (List.range 8).find? fun t => burned (nth 0 f.consumed t) && !burned (nth 0 f.ended t)

end Sys2Proof.Machine
end

