-- ==== Sys2Proof/Machine/Mould.lean ====
section
/-!
DEFINITION. The Mould as bytes: its structure, digests, signatures and section contents, checked as R57 to R64 give, and
the configuration that a pour takes from it.
-/
namespace Sys2Proof.Machine

/-! ### Header and directory -/

/-- One directory entry. -/
structure Sect where
  idx : Nat
  type : Nat
  scope : Nat
  off : Nat
  size : Nat
  digest : Bytes

def mouldCount (b : Bytes) : Nat := leAt b 6 2
def sigOff (b : Bytes) : Nat := leAt b 0x1C 4

def sects (b : Bytes) : List Sect :=
  (List.range (mouldCount b)).map fun i =>
    let o := 0x80 + 64 * i
    { idx := i, type := leAt b o 2, scope := byteAt b (o + 2), off := leAt b (o + 4) 4, size := leAt b (o + 8) 4
      digest := slice b (o + 16) 48 }

/-- The Mould digest (R59). -/
def mouldDigest (b : Bytes) : Bytes := sha384 (b.take (0x80 + 64 * mouldCount b))

def Sect.bytes (b : Bytes) (x : Sect) : Bytes := slice b x.off x.size

def atriumTypes : List Nat := [4, 6, 7, 8, 9, 10]
def halfTypes : List Nat := [1, 2, 3, 4, 5, 6, 11]

/-- The section of type `ty` for scope `sc` (0 Atrium, 1 Cope, 2 Drag). -/
def covers (sc : Nat) (x : Sect) : Bool := x.scope = sc || (sc ≠ 0 && x.scope = 3)

def sectOf (b : Bytes) (ty sc : Nat) : Sect :=
  ((sects b).find? fun x => x.type = ty && covers sc x).getD ⟨0xFF, 0, 0, 0, 0, []⟩

def sectBytes (b : Bytes) (ty sc : Nat) : Bytes := (sectOf b ty sc).bytes b

/-- A section's type may stand with its scope (R58). -/
def Sect.scopeOk (x : Sect) : Bool :=
  (x.scope = 0 && atriumTypes.contains x.type) || (1 ≤ x.scope && x.scope ≤ 3 && halfTypes.contains x.type)

/-- Two entries give one section for one scope. -/
def Sect.same (x y : Sect) : Bool := x.type = y.type && [0, 1, 2].any fun sc => covers sc x && covers sc y

/-- The fields of directory entry `x` keep the constraints of R58: reserved bytes, type and scope, its place; it neither
overlaps nor repeats an entry before it (the later of two is the offending one, entry 74). -/
def entryOk (b : Bytes) (ss : List Sect) (x : Sect) : Bool :=
  byteAt b (0x83 + 64 * x.idx) = 0 && allZero (slice b (0x8C + 64 * x.idx) 4) && x.scopeOk &&
    x.off % 16 = 0 && 0x80 + 64 * mouldCount b ≤ x.off && x.off + x.size ≤ sigOff b &&
      ss.all fun y => x.idx ≤ y.idx || ((x.off + x.size ≤ y.off || y.off + y.size ≤ x.off) && !x.same y)

/-- Each required section stands for each scope (R58). -/
def complete (ss : List Sect) : Bool :=
  let some' := fun ty sc => ss.any fun x => x.type = ty && covers sc x
  atriumTypes.all (fun t => some' t 0) && halfTypes.all fun t => some' t 1 && some' t 2

/-- The signature block's magic and reserved bytes. -/
def sigBlockOk (b : Bytes) : Bool :=
  let o := sigOff b
  leAt b o 4 = 0x47495357 && allZero (slice b (o + 6) 2) && allZero (slice b (o + 0x127B) 5) && allZero (slice b (o + 0x2EB3) 13)

def headerOk (b : Bytes) : Bool :=
  leAt b 0 4 = 0x444C4D57 && leAt b 4 2 = 1 && 1 ≤ mouldCount b && mouldCount b ≤ 32 && allZero (slice b 0x1A 2) &&
    allZero (slice b 0x40 64) && sigOff b % 16 = 0 && sigOff b + 11968 = leAt b 8 4 &&
    0x80 + 64 * mouldCount b ≤ sigOff b

/-! ### Section contents -/

def hasRange (v lo hi : Nat) : Bool := lo ≤ v && v ≤ hi

def roleOf (n : Nat) : Role := if n = 0 then .active else if n = 1 then .spare else .off

def laneConfigOk (c : Bytes) : Bool :=
  c.length = 80 && hasRange (byteAt c 0) 1 255 && allZero (slice c 1 3) && hasRange (leAt c 4 4) 1 16777215 &&
    leAt c 8 4 < 256 && allZero (slice c 12 4) && (slice c 0x10 49).all (fun x => x.toNat ≤ 2) && allZero (slice c 0x41 15) &&
    (slice c 0x10 40).any (· == 0) && (slice c 0x38 9).any (· == 0)

def libEntry (c : Bytes) (i : Nat) : LibEntry :=
  let o := 16 + 16 * i
  { pattern := leAt c o 2, slots := byteAt c (o + 2), units := byteAt c (o + 3), flags := leAt c (o + 4) 4
    code := leAt c (o + 8) 4, codeLen := leAt c (o + 12) 4 }

def libEntries (c : Bytes) : List LibEntry := (List.range (leAt c 8 2)).map (libEntry c)

/-- Numbers that only the chapters' Patterns may take (R174, R175, R220, R250). -/
def ownedNumber (n : Nat) : Bool := hasRange n 0x0100 0x09FF || hasRange n 0x0F00 0x0FFF

/-- Patterns of the chapters that check by inversion (R174, R175, R220). -/
def inversionPat (n : Nat) : Bool :=
  [0x0311, 0x0402, 0x0500, 0x0501, 0x0510, 0x0520, 0x0521, 0x0600, 0x0608, 0x0601, 0x0609, 0x0602, 0x060A, 0x0610, 0x0618,
    0x0611, 0x0619, 0x0700, 0x0708].contains n

/-- The Patterns that every library holds. -/
def chapterPats : List Nat := (List.range 0x1000).filter fun n => 0 < patSlots n

def ascending : List Nat → Bool
  | a :: b :: t => a < b && ascending (b :: t)
  | _ => true

def patternLibOk (mask : Nat) (c : Bytes) : Bool :=
  let es := libEntries c
  let code := leAt c 12 4
  16 ≤ c.length && allZero (slice c 10 2) && code ≤ 16384 && c.length = 16 + 16 * leAt c 8 2 + code &&
    ascending (es.map (·.pattern)) &&
    (es.all fun e => hasRange e.pattern 0x0100 0x0FFF && hasRange e.slots 1 8 && e.units &&& mask = e.units &&
      e.flags < 8 && e.code + e.codeLen ≤ code &&
      (if ownedNumber e.pattern then
          patSlots e.pattern = e.slots && nbit e.flags 2 == cupolaPat e.pattern && nbit e.flags 0 == inversionPat e.pattern
        else true)) &&
    chapterPats.all fun n => es.any (·.pattern = n)

def bondsOf (c : Bytes) : List Bond :=
  (List.range (c.length / 4)).map fun i => ⟨byteAt c (4 * i), byteAt c (4 * i + 1), byteAt c (4 * i + 2)⟩

def distinct : List Nat → Bool
  | [] => true
  | a :: t => !t.contains a && distinct t

/-- Span bonds of a half whose lanes begin at `base` (R8). -/
def bondsOk (base : Nat) (c : Bytes) : Bool :=
  let bs := bondsOf c
  c.length % 4 = 0 && c.length ≤ 256 && ((List.range (c.length / 4)).all fun i => byteAt c (4 * i + 3) = 0) &&
    (bs.all fun x => x.link ≤ 127 && [1, 2, 4, 8].contains x.width && x.first % x.width = 0 && base ≤ x.first &&
      x.first + x.width ≤ base + 64) &&
    distinct (bs.map (·.link)) && distinct (bs.flatMap fun x => (List.range x.width).map (x.first + ·))

def portEnableOk (atrium : Bool) (c : Bytes) : Bool :=
  c.length = 32 && allZero (slice c 12 4) && allZero (slice c 24 8) &&
    (if atrium then leAt c 0 4 = 0 && leAt c 4 4 < 65536 && leAt c 8 4 &&& 0x10F = leAt c 8 4 && allZero (slice c 16 8)
      else leAt c 0 4 ≤ 1 && leAt c 4 4 = 0 && leAt c 8 4 = 0)

def memPartitionOk (c : Bytes) : Bool :=
  let k := leAt c 0 4
  let g := leAt c 4 4
  let f := leAt c 8 4
  c.length = 16 && allZero (slice c 12 4) && k % 256 = 0 && g % 256 = 0 && f % 256 = 0 && k + g + f = 8192 &&
    hasRange k 512 2048 && hasRange g 2048 4096 && hasRange f 2048 4096

def regionDefs (c : Bytes) : List RegionDef :=
  (List.range (c.length / 16)).map fun i =>
    let o := 16 * i
    { ctrl := leAt c o 2, ix := byteAt c (o + 2), lock := byteAt c (o + 3) = 1, base := BitVec.ofNat 32 (leAt c (o + 4) 4)
      limit := BitVec.ofNat 32 (leAt c (o + 8) 4), perm := BitVec.ofNat 32 (leAt c (o + 12) 4) }

/-- Reserved bits of a PERM word are zero (R388). -/
def permOk (p : Word) : Bool := fld p 31 22 = 0 && fld p 15 10 = 0

def regionsOk (ctrls : List Nat) (c : Bytes) : Bool :=
  c.length % 16 = 0 && ((List.range (c.length / 16)).all fun i => byteAt c (16 * i + 3) ≤ 1) &&
    (regionDefs c).all fun r =>
      ctrls.contains r.ctrl && r.ix ≤ 31 && fld r.base 11 0 = 0 && fld r.limit 11 0 = 0 && r.base.toNat < r.limit.toNat &&
        permOk r.perm

def limitsOk (c : Bytes) : Bool :=
  c.length = 32 && hasRange (leAt c 0 2) 1 256 && hasRange (byteAt c 2) 1 64 && hasRange (byteAt c 3) 4 16 &&
    hasRange (leAt c 4 2) 1 4096 && hasRange (leAt c 6 2) 1 4096 && byteAt c 8 ≤ 64 && byteAt c 9 < 8 &&
    allZero (slice c 10 2) && leAt c 12 4 ≤ 65536 && allZero (slice c 16 16)

def faultRows (c : Bytes) : List FaultRow :=
  (List.range 64).map fun i => ⟨byteAt c (8 * i), byteAt c (8 * i + 1), leAt c (8 * i + 4) 4⟩

/-- A row of FAULT_TABLE for source `n`. -/
def faultRowOk (n : Nat) (r : FaultRow) : Bool :=
  hasRange r.cls (lowestClass n) 2 && hasRange r.count 1 255 && hasRange r.window 1 16777215

def faultTableOk (c : Bytes) : Bool :=
  c.length = 512 && ((List.range 64).all fun i => allZero (slice c (8 * i + 2) 2)) &&
    ((List.range 64).zip (faultRows c)).all fun e => faultRowOk e.1 e.2

def tamperRows (c : Bytes) : List TamperRow :=
  (List.range (c.length / 8)).map fun i =>
    ⟨leAt c (8 * i) 2, byteAt c (8 * i + 2), byteAt c (8 * i + 3), leAt c (8 * i + 4) 4⟩

/-- A row of TAMPER_TABLE (R489, R490). -/
def tamperRowOk (r : TamperRow) : Bool :=
  match monitorInfo r.monitor with
  | none => false
  | some i => hasRange r.response i.floor 3 && hasRange r.count 1 i.maxCount && hasRange r.window 1 16777215 &&
      !(i.dom = 0 && r.response = 1)

def tamperTableOk (c : Bytes) : Bool :=
  c.length % 8 = 0 && (tamperRows c).all tamperRowOk && distinct ((tamperRows c).map (·.monitor)) &&
    monitorNos.all fun m => (tamperRows c).any (·.monitor = m)

def fwOf (c digest : Bytes) : Firmware :=
  { version := BitVec.ofNat 16 (leAt c 0 2), load := BitVec.ofNat 32 (leAt c 4 4), entry := BitVec.ofNat 32 (leAt c 8 4)
    image := c.drop 32, zero := leAt c 16 4, digest }

/-- Image and zeroed area within `[lo, hi)`. -/
def fwOk (floor : Bool) (lo hi : Nat) (c : Bytes) : Bool :=
  32 ≤ c.length && c.length = 32 + leAt c 12 4 && allZero (slice c 2 2) && allZero (slice c 20 12) &&
    (!floor || byteAt c 1 = 0) && lo ≤ leAt c 4 4 && leAt c 4 4 + leAt c 12 4 + leAt c 16 4 ≤ hi

def floorBase (sc : Nat) : Nat := if sc = 1 then 0x01000000 else 0x01400000

/-- The content of one section, for each of the scopes `keep` that it covers. -/
def contentOk (b : Bytes) (keep : List Nat) (x : Sect) : Bool :=
  let c := x.bytes b
  let scs := if x.scope = 3 then [1, 2] else [x.scope]
  scs.all fun sc => !keep.contains sc ||
    match x.type with
    | 1 => laneConfigOk c
    | 2 => patternLibOk (leAt (sectBytes b 1 sc) 8 4) c
    | 3 => bondsOk (if sc = 1 then 0 else 64) c
    | 4 => portEnableOk (sc = 0) c
    | 5 => memPartitionOk c
    | 6 => regionsOk (if sc = 0 then [0, 1] else if sc = 1 then [0x10, 0x11] else [0x20, 0x21]) c
    | 7 => limitsOk c
    | 8 => faultTableOk c
    | 9 => tamperTableOk c
    | 10 => fwOk false 0x00100000 0x00300000 c
    | 11 => fwOk true (floorBase sc) (floorBase sc + 1024 * leAt (sectBytes b 5 sc) 8 4) c
    | _ => false

/-- At least one half enables its host port; no link belongs to both halves. -/
def mouldWhole (b : Bytes) : Bool :=
  (leAt (sectBytes b 4 1) 0 4 = 1 || leAt (sectBytes b 4 2) 0 4 = 1) &&
    (bondsOf (sectBytes b 3 1)).all fun x => !((bondsOf (sectBytes b 3 2)).any fun y => x.link = y.link)

/-! ### Signatures, version, kind (R62 to R64) -/

def sigAt (b : Bytes) (o n : Nat) : Bytes := slice b (sigOff b + o) n

def vendorOk (b : Bytes) : Bool :=
  let d := mouldDigest b
  ecVerify 2 Config.vendorEcdsa d (sigAt b 8 96) &&
    Config.mldsaVerify Config.vendorMldsa [] d (sigAt b 0x68 4627) false

def ownerPub (b : Bytes) : Bytes := if leAt b (sigOff b + 4) 2 = 1 then sigAt b 0x1280 97 else sigAt b 0x1280 2592

def ownerBound (s : State) : Bool := burned s.lcs.fuses.ownerValid

def ownerOk (s : State) (b : Bytes) : Bool :=
  let f := s.lcs.fuses
  let alg := leAt b (sigOff b + 4) 2
  let m := sha384 (mouldDigest b ++ sigAt b 0 0x1280)
  !ownerBound s ||
    (alg = f.ownerAlg && sha384 (ownerPub b) == f.ownerDigest &&
      (if alg = 1 then ecVerify 2 (ownerPub b) m (sigAt b 0x1CA0 96)
        else Config.mldsaVerify (ownerPub b) [] m (sigAt b 0x1CA0 4627) false))

def kindOk (s : State) (b : Bytes) : Bool :=
  match byteAt b 0x19 with
  | 1 => s.lcs.state == .test || s.lcs.state == .production
  | 2 => s.lcs.state == .test
  | _ => false

/-- A link that the section bonds in a half of `keep` is in use by the other half's running Mould. -/
def bondTaken (s : State) (b : Bytes) (keep : List Nat) (x : Sect) : Bool :=
  let used := fun (h : Half) => ((s.mld.runHalf.get (other h)).map fun m => (m.halves.get (other h)).bonds.map (·.link)).getD []
  let clash := fun (h : Half) => keep.contains (1 + halfNo h) && covers (1 + halfNo h) x &&
    (bondsOf (x.bytes b)).any fun y => (used h).contains y.link
  x.type = 3 && (clash .cope || clash .drag)

/-- The first check that a Mould fails: SECTION and REASON of MLD_LAST_ERR; `none` when it passes (R57). `keep`: the scopes
whose sections are checked against their digests: all of them at a staging, a domain's own at its pour (R59). -/
def mouldErrorIn (s : State) (keep : List Nat) (b : Bytes) : Option (Nat × Nat) :=
  let ss := sects b
  let mine := ss.filter fun x => keep.any fun sc => covers sc x
  if b.length < 0x80 || !headerOk b then some (0xFF, 1)
  else if leAt b 12 4 ≠ 0x47009128 then some (0xFF, 2)
  else if leAt b 8 4 ≠ b.length || 2621440 < b.length then some (0xFF, 3)
  else match ss.find? fun x => !entryOk b ss x with
  | some x => some (x.idx, 1)
  | none =>
    if !sigBlockOk b || !complete ss || 128 < byteAt b 0x18 then some (0xFF, 1)
    else if !vendorOk b then some (0xFF, 5)
    else if !ownerOk s b then some (0xFF, 6)
    else if byteAt b 0x18 < s.lcs.fuses.secVer then some (0xFF, 7)
    else if !kindOk s b then some (0xFF, 8)
    else match mine.find? fun x => !(sha384 (x.bytes b) == x.digest) with
      | some x => some (x.idx, 4)
      | none =>
        match mine.find? fun x => !contentOk b keep x || bondTaken s b keep x with
        | some x => some (x.idx, 9)
        | none => if keep.length < 3 || mouldWhole b then none else some (0xFF, 9)

/-- A Mould that is staged: every section is checked. -/
def mouldError (s : State) (b : Bytes) : Option (Nat × Nat) := mouldErrorIn s [0, 1, 2] b

/-- Status of a staging that fails with a REASON (opcode 0x80). -/
def mouldStatus (reason : Nat) : Status := if 5 ≤ reason && reason ≤ 8 then .notAuthorised else .badInput

/-! ### The configuration -/

def halfCfgOf (b : Bytes) (h : Half) : HalfCfg :=
  let sc := 1 + halfNo h
  let lc := sectBytes b 1 sc
  let lib := sectBytes b 2 sc
  let pe := sectBytes b 4 sc
  let mp := sectBytes b 5 sc
  let fw := sectOf b 11 sc
  { mismatchLimit := byteAt lc 0, mismatchWindow := leAt lc 4 4, unitMask := leAt lc 8 4
    laneRole := (slice lc 0x10 40).map fun x => roleOf x.toNat, cupolaRole := (slice lc 0x38 9).map fun x => roleOf x.toNat
    libId := BitVec.ofNat 32 (leAt lib 0 4), libVer := BitVec.ofNat 32 (leAt lib 4 4), lib := libEntries lib
    bonds := bondsOf (sectBytes b 3 sc), hostEn := leAt pe 0 4 = 1, spanEn := BitVec.ofNat 64 (leAt pe 16 8)
    keyCacheKib := leAt mp 0 4, stagingKib := leAt mp 4 4, floorKib := leAt mp 8 4
    regions := regionDefs (sectBytes b 6 sc), fw := fwOf (fw.bytes b) fw.digest }

def limitsOf (c : Bytes) : Limits :=
  { maxGalleries := leAt c 0 2, maxQueues := byteAt c 2, maxDepth := byteAt c 3, maxSq := leAt c 4 2, maxCq := leAt c 6 2
    maxExt := byteAt c 8, lendOk := nbit (byteAt c 9) 0, dualOk := nbit (byteAt c 9) 1, pairOk := nbit (byteAt c 9) 2
    maxSlots := leAt c 12 4 }

def mouldOf (b : Bytes) : Mould :=
  let pe := sectBytes b 4 0
  let fw := sectOf b 10 0
  { version := BitVec.ofNat 32 (leAt b 0x10 4), compatMin := BitVec.ofNat 32 (leAt b 0x14 4), secVer := byteAt b 0x18
    test := byteAt b 0x19 = 2, digest := mouldDigest b, header := b.take 128
    halves := ⟨halfCfgOf b .cope, halfCfgOf b .drag⟩
    atrium := {
      cusEn := BitVec.ofNat 16 (leAt pe 4 4), arcEn := BitVec.ofNat 4 (leAt pe 8 4), chainEn := nbit (leAt pe 8 4) 8
      regions := regionDefs (sectBytes b 6 0), limits := limitsOf (sectBytes b 7 0), faults := faultRows (sectBytes b 8 0)
      tamper := tamperRows (sectBytes b 9 0), fw := fwOf (fw.bytes b) fw.digest } }

/-! ### Image slots (R65 to R67) -/

/-- Image of slot `b` (`true`: B) in bank `h`. -/
def imageIn (s : State) (h : Half) (b : Bool) : Option Bytes :=
  if b then s.mld.slotB.get h else s.mld.slotA.get h

/-- A slot is valid when an available bank holds a whole image; the first available bank's copy is read. -/
def slotImage (s : State) (b : Bool) : Option Bytes :=
  match (if (s.srm.bank.get .cope).available then imageIn s .cope b else none) with
  | some i => some i
  | none => if (s.srm.bank.get .drag).available then imageIn s .drag b else none

/-- The scope of a domain's sections, and the bank that it reads first: a half its own, the Atrium bank A. -/
def PourDomain.scope : PourDomain → Nat
  | .atrium => 0
  | .half .cope => 1
  | .half .drag => 2

def PourDomain.bank : PourDomain → Half
  | .half h => h
  | .atrium => .cope

/-- What a domain refuses the copy of slot `b` in bank `h` for; none also where the bank holds no image. -/
def copyError (s : State) (d : PourDomain) (b : Bool) (h : Half) : Option (Nat × Nat) :=
  (if (s.pwr.feed.get h).valid then imageIn s h b else none).bind (mouldErrorIn s [d.scope])

/-- The image of slot `b` as domain `d` reads it: the first bank's copy when it passes the domain's checks, else the
other's, with whether the other's was needed (R59, R66, R67). -/
def goodImage (s : State) (d : PourDomain) (b : Bool) : Option (Bytes × Bool) :=
  let pass := fun h => match (if (s.pwr.feed.get h).valid then imageIn s h b else none) with
    | some i => if (copyError s d b h).isNone then some i else none
    | none => none
  match pass d.bank with
  | some i => some (i, false)
  | none => (pass (other d.bank)).map fun i => (i, true)

/-- What the copies of slot `b` are refused for, as `goodImage` tries them (R57). -/
def imageErrors (s : State) (d : PourDomain) (b : Bool) : List (Nat × Nat) :=
  match goodImage s d b with
  | some (_, false) => []
  | some (_, true) => (copyError s d b d.bank).toList
  | none => (copyError s d b d.bank).toList ++ (copyError s d b (other d.bank)).toList

/-- MLD_LAST_ERR. -/
def setErr (s : State) (sect reason : Nat) : State :=
  { s with mld := { s.mld with errSection := BitVec.ofNat 8 sect, errReason := BitVec.ofNat 8 reason } }

/-- A domain's pour refuses the copies of slot `b` that fail, and then those of the other slot (R57, R66). -/
def noteErrors (s : State) (d : PourDomain) (b : Bool) : State :=
  let es := imageErrors s d b ++ if (goodImage s d b).isNone then imageErrors s d !b else []
  es.foldl (fun s e => setErr s e.1 e.2) s

/-- A staging or a pour is in progress (R78, `POUR_BUSY`). -/
def pourBusy (s : State) : Bool :=
  s.mld.staging || s.mld.recBusy || s.mld.atriumPour.isSome || s.mld.pour.cope.isSome || s.mld.pour.drag.isSome

/-- Slots that some domain runs. -/
def slotRuns (s : State) (b : Bool) : Bool :=
  s.mld.runSlotHalf.cope == some b || s.mld.runSlotHalf.drag == some b || s.mld.runSlotAtrium == some b

/-- STAGED: the valid slot that no domain runs (A first). -/
def stagedSlot (s : State) : Option Bool :=
  if (slotImage s false).isSome && !slotRuns s false then some false
  else if (slotImage s true).isSome && !slotRuns s true then some true
  else none

/-- A Mould may run beside every other running Mould that differs from it (R74). -/
def compatOk (m : Mould) (others : List (Option Mould)) : Bool :=
  others.all fun o => match o with
    | some x => x.digest == m.digest || (x.compatMin.toNat ≤ m.version.toNat && m.compatMin.toNat ≤ x.version.toNat)
    | none => true

end Sys2Proof.Machine
end

