-- ==== Sys2Proof/Machine/Recorder.lean ====
section
/-!
DEFINITION. The event recorder: accumulation, the record's bytes, checkpoints, closing (spec/18).
-/
namespace Sys2Proof.Machine

def updRcd (s : State) (f : Recorder → Recorder) : State := { s with rcd := f s.rcd }

/-- The live record accumulates while the recorder is not full (R520). -/
def updLive (s : State) (f : LiveRec → LiveRec) : State :=
  if s.rcd.full then s else updRcd s fun r => { r with live := f r.live }

def sat32 (n : Nat) : Nat := satInc 0xFFFFFFFF n

/-- FAULT_GROUP of a source (R514). -/
def faultGroup (src : Nat) : Nat :=
  if src < 16 then 0
  else
    let i := (src - 16) % 24
    let base := if src < 40 then 1 else 4
    if i ≤ 5 then base else if i ≤ 11 then base + 1 else base + 2

/-- One event of a source, classified (R514). -/
def recFault (s : State) (src cls : Nat) : State :=
  updLive s fun l => { l with cls := updNth l.cls cls sat32, group := updNth l.group (faultGroup src) (satInc 65535) }

/-- The bin of a latency of `d` ticks (R516). -/
def latencyBin (d : Nat) : Nat :=
  if d ≤ 5 then d - 2
  else ((List.range 11).find? fun i => d ≤ nth 0 [7, 11, 15, 31, 63, 127, 255, 511, 1023, 4095, 65535] i).elim 15 (· + 4)

/-- A job or chain, of a queue or of a program, whose completion issues in tick `t` (R516); refused and rejected jobs count nowhere
(R169), nor does a partner's run. -/
def recLatency (s : State) (j : Job) (t : Nat) : State :=
  if j.accepted && j.origin != .partner then
    updLive s fun l => { l with latency := updNth l.latency (latencyBin (t - j.fetch)) (satInc (2 ^ 48 - 1)) }
  else s

/-- Operation kinds of CUPOLA_OPS by Pattern: EC, RSA (with TR34_ENVELOPE), ML-DSA-87, ML-KEM-1024. -/
def cupolaKind (pat : Nat) : Nat :=
  if pat = 0x0510 then 1 else if pat < 0x0910 then 0 else if pat < 0x0920 then 1 else if pat < 0x0930 then 2 else 3

def recCupola (s : State) (kind : Nat) : State :=
  updLive s fun l => { l with cupola := updNth l.cupola kind (satInc (2 ^ 48 - 1)) }

def recTamper (s : State) (m : Nat) : State :=
  updLive s fun l => { l with tamper := updNth l.tamper (monitorNos.findIdx (· = m)) (satInc 15) }

def recSwitchover (s : State) : State :=
  updLive s fun l => { l with switchovers := BitVec.ofNat 16 (satInc 65535 l.switchovers.toNat) }

/-- Two counts of four bits per byte, the first in the low nibble. -/
def countNibbles : List Nat → Bytes
  | [] => []
  | [a] => [BitVec.ofNat 8 a]
  | a :: b :: t => BitVec.ofNat 8 (a + 16 * b) :: countNibbles t

/-- The 512 bytes of a record (R514). -/
def LiveRec.bytes (l : LiveRec) : Bytes :=
  let b := le 4 l.seq.toNat ++ le 2 l.index.toNat ++ le 1 1 ++ zeros 1 ++ le 4 l.minStart.toNat ++ le 4 l.minEnd.toNat ++
    le 4 l.pcStart.toNat ++ le 4 l.pcEnd.toNat ++ le 2 l.switchovers.toNat ++ zeros 6 ++ l.lane.flatMap (le 4) ++
    l.latency.flatMap (le 6) ++ l.temp.flatMap (le 4) ++ l.rails.flatMap (fun e => le 2 e.1 ++ le 2 e.2) ++
    l.cupola.flatMap (le 6) ++ l.cls.flatMap (le 4) ++ l.group.flatMap (le 2) ++ padTo 68 (countNibbles l.tamper) ++ zeros 60
  b ++ le 4 (crc32 b)

/-- The live record with its end fields as they stand now. -/
def liveNow (s : State) : LiveRec :=
  { s.rcd.live with minEnd := s.rcd.minutes, pcEnd := s.tmp.powerCycles }

def bankUp (s : State) (h : Half) : Bool := (s.srm.bank.get h).available

/-- Stored records, read from bank A or from bank B while bank A is unavailable. -/
def storedRecs (s : State) : List Bytes := if bankUp s .cope then s.rcd.stored.cope else s.rcd.stored.drag

/-- `SEQ` after a change in place: odd before it, then one above (R518). -/
def nextSeq (w : Word) : Word := if w.getLsbD 0 then w + 1 else w + 2

/-- The live record closes as the next stored record in both available banks, and the next one opens (R512, R520). -/
def closeRecord (s : State) : State :=
  let l := { liveNow s with seq := nextSeq s.rcd.live.seq }
  let put := fun h => if bankUp s h then s.rcd.stored.get h ++ [l.bytes] else s.rcd.stored.get h
  let open_ : LiveRec :=
    { index := l.index + 1, minStart := s.rcd.minutes, minEnd := s.rcd.minutes, pcStart := s.tmp.powerCycles
      pcEnd := s.tmp.powerCycles }
  updRcd s fun r =>
    { r with
      stored := ⟨put .cope, put .drag⟩
      full := r.full || l.index == 4095#16
      live := if l.index == 4095#16 then {} else open_
      aperture := if l.index == 4095#16 then zeros 512 else r.aperture
      checkpoint := if l.index == 4095#16 then none else some open_ }

/-- OPERATING_MINUTE (R511, R512). -/
def execOperatingMinute (s : State) : Out :=
  .next <|
    if s.rcd.minuteTicks < 60000000 then s
    else
      let s := updRcd s fun r =>
        { r with minuteTicks := r.minuteTicks - 60000000, minutes := BitVec.ofNat 32 (sat32 r.minutes.toNat) }
      let s := if s.rcd.minutes.toNat % 1440 = 0 then { s with tmp := { s.tmp with rotate := 1 } } else s
      if !s.rcd.full && 1440 ≤ s.rcd.minutes.toNat - s.rcd.live.minStart.toNat then closeRecord s else s

/-- RECORDER_CHECKPOINT (R513). -/
def execRecorderCheckpoint (s : State) : Out :=
  .next <|
    if s.rcd.sinceCheckpoint < 60000000 then s
    else updRcd s fun r =>
      { r with sinceCheckpoint := 0, live := if r.full then r.live else liveNow s
               checkpoint := if r.full then r.checkpoint else some (liveNow s) }

/-- LIVE_REFRESH (R518, R520). -/
def execLiveRefresh (s : State) : Out :=
  .next <|
    if s.rcd.sinceRefresh < 1000000 then s
    else updRcd s fun r =>
      let l := { liveNow s with seq := nextSeq r.live.seq, minEnd := r.live.minEnd, pcEnd := r.live.pcEnd }
      { r with sinceRefresh := 0, live := if r.full then r.live else l, aperture := if r.full then zeros 512 else l.bytes }

/-- The temperature bin of R517. -/
def tempBin (t : Int) : Nat :=
  if t < -10 then 0 else if 130 ≤ t then 15 else (t + 20).toNat / 10

/-- The bin of a second in which `held` of `slots` slots held confirmed work (R515). -/
def laneBin (held slots : Nat) : Nat := Nat.min 15 (16 * held / slots)

/-- OPERATING_SECOND (R515, R517): once 1,000,000 ticks have passed. The highest readings among the temperature monitors of the
halves and among those of the Atrium come with the row. -/
def execOperatingSecond (halves atrium : Int) (s : State) : Out :=
  .next <|
    if s.rcd.sinceSecond < 1000000 then s
    else
      let r := s.rcd
      let s := updLive s fun l =>
        { l with
          lane := if r.slots = 0 then l.lane else updNth l.lane (laneBin r.slotsHeld r.slots) sat32
          temp := updNth l.temp (tempBin (max halves atrium)) sat32 }
      updRcd s fun r => { r with sinceSecond := 0, slots := 0, slotsHeld := 0 }

end Sys2Proof.Machine
end

