-- ==== Sys2Proof/Machine/Report.lean ====
section
/-!
DEFINITION. What is written down when something goes wrong: the status word, class words, syndromes and counts of the
fault collector (R469 to R479, R487), the tamper log (R505 to R508) and the cell-domain buffer (R503).
-/
namespace Sys2Proof.Machine

/-! ### Fault collector -/

/-- Bit of a half source at offset `i` (R469). -/
def halfSrc (h : Half) (i : Nat) : Nat := (match h with | .cope => 16 | .drag => 40) + i

/-- The half of a source, none for an Atrium source. -/
def srcHalf (n : Nat) : Option Half := if n < 16 then none else if n < 40 then some .cope else some .drag

def srcOff (n : Nat) : Nat := (n - 16) % 24

def fltSrc (s : State) (n : Nat) : FaultSrc := s.flt.src.get {} n
def updFlt (s : State) (f : Faults → Faults) : State := { s with flt := f s.flt }
def updSrc (s : State) (n : Nat) (f : FaultSrc → FaultSrc) : State := updFlt s fun x => { x with src := x.src.upd {} n f }

/-- An event as R470 classifies it. -/
def classify (s : State) (n native : Nat) : Nat := Nat.max native (fltSrc s n).cls.toNat

/-- Cores that interrupt line 4 reaches: the Reserve pair, Floor cores 0 and 4 (R487). -/
def faultCores : List Nat := [0, 1, 5]

/-- Latch and count one event (R469, R470, R478, R487, R514). -/
def latch (s : State) (n native unit info : Nat) : State :=
  let cls := classify s n native
  let fresh := !s.flt.status.getLsbD n
  let s := updSrc s n fun x =>
    { x with syn := word [(info % 65536, 0), (unit % 256, 16), (native, 30)], count := satInc31 x.count }
  let s := updFlt s fun x =>
    { x with
      status := setBit x.status n true
      corr := if cls = 0 then setBit x.corr n true else x.corr
      cont := if cls = 1 then setBit x.cont n true else x.cont
      fatal := if cls = 2 then setBit x.fatal n true else x.fatal }
  let s := recFault s n cls
  if fresh then setIp s faultCores 4 else s

/-- Conditions whose pin stays asserted while they last (R477). -/
def pinAsserted (s : State) (n : Nat) : Bool :=
  s.flt.pins.getLsbD n ||
  match srcHalf n with
  | none => false
  | some h =>
    match srcOff n with
    | 3 => s.lanes.half.get h |>.shortfall |> (· ≠ 0)
    | 13 => (List.range 8).any fun i => (s.rng.src.get {} (8 * halfNo h + i)).state == .excluded
    | 15 => serving s h && !(s.hst.port.get h).linkUp && (halfCfg s h).any (·.hostEn)
    | 16 => serving s h && s.spn.links.any fun e => (64 * halfNo h ≤ e.2.firstLane.toNat) && (e.2.firstLane.toNat < 64 + 64 * halfNo h) &&
        e.2.state == .down
    | 18 => !(s.pwr.feed.get h).valid
    | 20 => s.flt.hold.get h
    | _ => false

/-- Clearing of status bits (R477): refused bits stay and are counted. -/
def clearFaults (s : State) (mask : BitVec 64) : State × BitVec 64 :=
  let refused := (List.range 64).foldl
    (fun (a : BitVec 64) i => if mask.getLsbD i && s.flt.status.getLsbD i && pinAsserted s i then setBit a i true else a) 0
  let m := mask &&& ~~~refused
  (updFlt s fun x =>
    { x with
      status := x.status &&& ~~~m, corr := x.corr &&& ~~~m, cont := x.cont &&& ~~~m, fatal := x.fatal &&& ~~~m
      clearRefused := (List.range 64).foldl (fun c i => if refused.getLsbD i then satInc31 c else c) x.clearRefused }, refused)

/-! ### Tamper log -/

def updTmp (s : State) (f : Tamper → Tamper) : State := { s with tmp := f s.tmp }

/-- A log entry (R505). -/
def logEntry (s : State) (mon kind flags detail : Nat) : Bytes :=
  let b := le 4 s.tmp.lifeSeconds.toNat ++ le 4 s.tmp.powerCycles.toNat ++ le 2 mon ++ le 1 kind ++ le 1 flags ++ le 2 detail
  b ++ le 2 (crc16 b)

/-- The log as it is read: bank A, or bank B while bank A is unavailable (R507). -/
def tamperLog (s : State) : List Bytes := if bankUp s .cope then s.tmp.log.cope else s.tmp.log.drag

def logCount (s : State) : Nat := Nat.max s.tmp.log.cope.length s.tmp.log.drag.length

/-- Banks that take a log entry: the available ones, before the start has marked one those with a valid feed (R507). -/
def logBank (s : State) (h : Half) : Bool :=
  bankUp s h || (!bankUp s .cope && !bankUp s .drag && (s.pwr.feed.get h).valid)

/-- Append one entry (R506 to R508). -/
def appendLog (s : State) (e : Bytes) : State :=
  if 16384 ≤ logCount s then
    updTmp s fun t =>
      { t with overflow := BitVec.ofNat 32 (sat32 t.overflow.toNat), lastLs := BitVec.ofNat 32 (leAt e 0 4)
               lastPc := BitVec.ofNat 32 (leAt e 4 4) }
  else
    let put := fun h => if logBank s h then s.tmp.log.get h ++ [e] else s.tmp.log.get h
    updTmp s fun t => { t with log := ⟨put .cope, put .drag⟩ }

/-- The cell-domain buffer: 31 entries in order, then the most recent (R503). -/
def appendCell (s : State) (e : Bytes) : State :=
  updTmp s fun t =>
    if t.cellBuf.length < 32 then { t with cellBuf := t.cellBuf ++ [e] }
    else { t with cellBuf := t.cellBuf.dropLast ++ [e], cellOverflow := BitVec.ofNat 16 (satInc 65535 t.cellOverflow.toNat) }

/-- The domain of a monitor as a half. -/
def monHalf (m : Nat) : Option Half :=
  match monitorInfo m with
  | some i => if i.dom = 1 then some .cope else if i.dom = 2 then some .drag else none
  | none => none

end Sys2Proof.Machine
end

