-- ==== Sys2Proof/Machine/Domains.lean ====
section
/-!
DEFINITION. The domains as wholes: cores that start, programs and ceremonies that end, a half that leaves SERVING
(R142, R172, R173, R275, R480), its pour (spec/03), Reserve restart (R398), device reset (R584, R587), quench (R312).
-/
namespace Sys2Proof.Machine

def updCus (s : State) (f : Custodians → Custodians) : State := { s with cus := f s.cus }
def updArc (s : State) (f : Archive → Archive) : State := { s with arc := f s.arc }
def updWld (s : State) (f : Worlds → Worlds) : State := { s with wld := f s.wld }
def updRng (s : State) (f : Entropy → Entropy) : State := { s with rng := f s.rng }
def updMld (s : State) (f : MouldState → MouldState) : State := { s with mld := f s.mld }
def updPwr (s : State) (f : Power → Power) : State := { s with pwr := f s.pwr }
def updSpn (s : State) (f : Span → Span) : State := { s with spn := f s.spn }
def updLaneHalf (s : State) (h : Half) (f : LaneHalf → LaneHalf) : State :=
  { s with lanes := { s.lanes with half := s.lanes.half.upd h f } }

/-! ### Cores (R425, R386) -/

/-- Cores of a half: Floor cores 0 to 3 of Cope and 4 to 7 of Drag. -/
def coresOf (h : Half) : List Nat := match h with | .cope => [1, 2, 3, 4] | .drag => [5, 6, 7, 8]

/-- `WLD_WHOAMI.CORE` of a core. -/
def coreCode (c : Nat) : Nat := if c = 0 then 1 else 0x10 + (c - 1)

/-- A core starts at `ENTRY` (R425). -/
def startCore (s : State) (c : Nat) (entry : Word) : State :=
  updCore s c fun _ =>
    { bk := setNth (List.replicate 8 0) 7 (BitVec.ofNat 16 (entry.toNat / 65536)), pc := BitVec.ofNat 16 entry.toNat
      running := true }

def haltCore (s : State) (c : Nat) : State := updCore s c fun _ => {}

/-! ### Regions (R388 to R392) -/

def regionKey (ctrl ix : Nat) : Nat := 32 * ctrl + ix

def regionOf (d : RegionDef) : Region :=
  { base := BitVec.ofNat 20 (fld d.base 31 12), limit := BitVec.ofNat 20 (fld d.limit 31 12), perm := d.perm
    en := d.base.toNat < d.limit.toNat, lock := d.lock }

/-- The region registers of the controllers `cs` take the defaults of a Mould. -/
def loadRegions (s : State) (cs : List Nat) (ds : List RegionDef) : State :=
  let keep := s.wld.regions.filter fun e => !cs.contains (e.1 / 32)
  updWld s fun w => { w with regions := ds.foldl (fun t d => t.put {} (regionKey d.ctrl d.ix) (regionOf d)) keep }

/-- Registers loaded from entries with `LOCK` become read-only at the end of their domain's pour (R61). -/
def lockRegions (s : State) (ds : List RegionDef) : State :=
  let lock := fun (t : Tab Region) (d : RegionDef) => t.upd {} (regionKey d.ctrl d.ix) fun r => { r with lock := true }
  updWld s fun w => { w with regions := (ds.filter (·.lock)).foldl lock w.regions }

def halfCtrls (h : Half) : List Nat := match h with | .cope => [0x10, 0x11] | .drag => [0x20, 0x21]

/-! ### Local cipher unit (R413) -/

/-- The unit is released: key, IV, data and hash state are cleared before `OWNER` reads 0. -/
def releaseLcu (s : State) : State := { s with lcu := {} }

/-! ### Extension programs (R400, R404) -/

def progKey (h : Half) (g : Nat) : Nat := 256 * halfNo h + g
def program (s : State) (h : Half) (g : Nat) : Option Program := s.wld.programs.get none (progKey h g)
def setProgram (s : State) (h : Half) (g : Nat) (p : Option Program) : State :=
  updWld s fun w => { w with programs := w.programs.put none (progKey h g) p }
def updProgram (s : State) (h : Half) (g : Nat) (f : Program → Program) : State :=
  setProgram s h g ((program s h g).map f)

/-- Galleries with a program in half `h`. -/
def programsOf (s : State) (h : Half) : List Nat :=
  (s.wld.programs.filter fun e => e.1 / 256 = halfNo h && e.2.isSome).map fun e => e.1 % 256

/-- Bytes of a gallery's partition (spec/04: units of 64 KiB): those that its loaded program holds, else those of its grant. -/
def partBytes (s : State) (h : Half) (g : Nat) : Nat :=
  65536 * ((program s h g).map (·.units)).getD ((gal s g).parts.get h)

/-- Loaded programs: half, gallery, program. -/
def loaded (s : State) : List (Half × Nat × Program) :=
  s.wld.programs.filterMap fun e => e.2.map fun p => (halfOf (e.1 / 256), e.1 % 256, p)

/-- Index 8 of the measurements (R380). -/
def measLife (s : State) : Bytes :=
  let f := s.lcs.fuses
  le 1 s.lcs.state.code ++ le 1 (fused s).code ++ le 1 (bitsOf f.consumed) ++ le 1 (bitsOf f.ended) ++ le 1 f.secVer ++ le 1 f.ownerAlg ++
    le 1 (b2n s.lcs.debug) ++ [0]

/-- The measurements as they stand. -/
def measure (s : State) : Measured :=
  let fw := fun h => (s.mld.runHalf.get h).map fun m => (m.halves.get h).fw.digest
  { tick := tick s, boot := padTo 48 s.lcs.bootDigest, reserveFw := s.mld.runAtrium.map (·.atrium.fw.digest)
    floorFw := ⟨fw .cope, fw .drag⟩, mouldAtrium := s.mld.runAtrium.map (·.digest), moulds := s.mld.runHalf.map fun m => m.map (·.digest)
    life := measLife s, restarts := s.lcs.restarts.toNat
    programs := (loaded s).map fun e => (e.1, e.2.2.part, e.2.1, e.2.2.digest) }

/-- The measurements of the last parting window (R378); as they stand before the first one of a start. -/
def lastMeasured (s : State) : Measured := if s.gen.windowDone then measure s else s.lcs.measured.getD (measure s)

/-- A program stops (R404): its measurement goes, its partition is cleared, its unconfirmed internal jobs are dropped.
Its handoff jobs complete `FAULT_UNRESOLVED` with DETAIL 0x0E02 unless its half was lost (`fail` false, R411). -/
def stopProgram (s : State) (h : Half) (g cause : Nat) (fail : Bool) : State :=
  match program s h g with
  | none => s
  | some p =>
    let s := setProgram s h g none
    let s := updWld s fun w => { w with stopped := w.stopped.put 0 (progKey h g) cause }
    let s := { s with
      mem := { s.mem with floor := s.mem.floor.upd h fun m => m.clear p.base (65536 * p.units) }
      jobs := s.jobs.filter fun j => !(j.origin == .program && j.gal = g && j.half == h && j.unconfirmed) }
    if fail then
      (s.jobs.filter fun j => j.phase == .handoff && j.gal = g && j.half == h).foldl
        (fun s j => completeJob s j.id .faultUnresolved 0x0E02 0 [] [] j.chain (tick s + 1)) s
    else s

/-! ### Burns (R79, R361, R365) -/

/-- Commands that burn a field. -/
def burns (op : Nat) : Bool := op = 0x40 || op = 0x41 || op = 0x83 || op = 0x85

/-- A burn is in progress: its intent is written and its fuses are not yet read back. Burns run one at a time. -/
def burning (s : State) : Bool := s.adm.any fun c => c.phase == .running && burns c.op

/-- A command's burn begins: the intent record goes into both banks (R79, R365). The burn ends with the tick (entry 59). -/
def startBurn (s : State) (c : AdminCmd) (kind arg : Nat) (payload : Bytes) : State :=
  let seq := s.lcs.intentSeq + 1
  let i : Intent := { kind, arg, seq, payload }
  let i := { i with mac := i.macOf (rootKey s) }
  updAdm (updLcs s fun l => { l with intentSeq := seq, intents := l.intents.map (· ++ [i]) }) c fun x =>
    { x with phase := .running, mark := seq.toNat }

/-- A burn reads back as complete: the intent is cleared, the command completes, with the device reset that a move asks
for (R79, R361, R365). -/
def endBurn (s : State) (c : AdminCmd) : State :=
  match (intentsOf s).find? fun i => i.seq.toNat = c.mark with
  | none => s
  | some i =>
    let s := clearIntent (updFuses s fun f => burnIntent f i.kind i.arg i.payload) i
    let s := if c.op = 0x40 && nbit (c.p 1 1) 0 then updLcs s fun l => { l with resetAfter := some c.key } else s
    done s c

/-- At a tick's end the burns in progress are complete, unless the Reserve pair restarts: then the command completes from
its journal after the restart (R18). -/
def endBurns (s : State) : State :=
  if s.atr.restarting then s else (s.adm.filter fun c => c.phase == .running && burns c.op).foldl endBurn s

/-! ### Ceremonies (R336, R340) -/

/-- Shares that cards have given and no ceremony has taken go with the key of line `l`. -/
def dropShares (s : State) (l : Nat) : State :=
  updCus s fun u => { u with ports := u.ports.mapAll {} fun _ p => if p.shareLine = l then { p with share := [], setId := [], shareLine := 0 } else p }

/-- A ceremony ends: its Reliquary line, its shares and its secret are overwritten; a command that waits for it fails. -/
def endCeremony (s : State) (c : Nat) : State :=
  match nth none s.cus.cer c with
  | none => s
  | some x =>
    let s := updCus (dropShares s (24 + c)) fun u => { u with cer := setNth u.cer c none, event := u.event ||| 8 }
    let s := updSrm s fun r => { r with lines := r.lines.put [] (24 + c) [] }
    (s.adm.filter fun a => a.phase == .running && a.op = 0x31 && a.p 0 4 = x.ref.toNat).foldl
      (fun s a => fails s a .notAuthorised) s

def endCeremonies (s : State) : State := (List.range 8).foldl endCeremony s

/-! ### Pins of the custodian ports (R320, R324) -/

def emitPins (s : State) (n : Nat) (l : List CardPin) : State :=
  { s with out := { s.out with cardPins := s.out.cardPins ++ l.map fun p => (n, p) } }

/-- The order of activation, and that of deactivation. -/
def pinsUp : List CardPin := [.pwrEn true, .io true, .clk true, .rst false, .rst true]
def pinsDown : List CardPin := [.rst false, .clk false, .io false, .pwrEn false]

/-- The pins of port `n` fall when its card is active. -/
def deactivate (s : State) (n : Nat) : State := if (s.cus.ports.get {} n).power then emitPins s n pinsDown else s

/-! ### SD commands (R341) -/

def crc7Bits : Nat → Nat → Nat
  | 0, v => v
  | n + 1, v => crc7Bits n (if v ≥ 64 then ((2 * v) ^^^ 0x09) % 128 else 2 * v)

/-- CRC7 with the polynomial x^7 + x^3 + 1 over whole bytes, each entering from its top bit. -/
def crc7 (m : Bytes) : Nat :=
  m.foldl (fun v b => (List.range 8).foldl (fun v i =>
    crc7Bits 1 (v ^^^ (64 * b2n (b.getLsbD (7 - i))))) v) 0

/-- A command frame: index, argument, CRC7, end bit. -/
def sdFrame (idx arg : Nat) : Bytes := let b := le 1 (0x40 + idx) ++ be 4 arg; b ++ le 1 (2 * crc7 b + 1)

/-- CRC-16 of ITU-T V.41 over the bits of one data line. -/
def crc16Line (bits : List Bool) : Nat :=
  bits.foldl (fun v b => let t := (v / 2 ^ 15 % 2 = 1) != b
                         if t then ((2 * v) ^^^ 0x1021) % 2 ^ 16 else 2 * v % 2 ^ 16) 0

/-- A data block in 4-bit mode with the CRC16 of each line: line `l` carries bits `4 + l` and `l` of every byte. -/
def sdData (m : Bytes) : Bytes :=
  let line := fun l => crc16Line (m.flatMap fun b => [b.getLsbD (4 + l), b.getLsbD l])
  m ++ (List.range 4).flatMap fun l => be 2 (line l)

def emitSd (s : State) (n : Nat) (l : List Bytes) : State := { s with out := { s.out with sd := s.out.sd ++ l.map fun b => (n, b) } }

def writable (p : ArcPort) : Bool := !p.permWp && !p.tmpWp && !p.switchWp

/-- The CSD is read (R343): the card is deselected for CMD9 and selected again. -/
def readCsd (p : ArcPort) : List Bytes :=
  let r := 65536 * p.rca.toNat
  [sdFrame 7 0, sdFrame 9 r, sdFrame 7 r]

/-- A CSD with its protection bits and its own CRC7. -/
def csdBytes (p : ArcPort) (perm tmp : Bool) : Bytes :=
  let v := byteAt (padTo 16 p.csd) 14
  let b := (padTo 16 p.csd).take 14 ++ le 1 (v / 64 * 64 + v % 16 + 32 * b2n perm + 16 * b2n tmp)
  b ++ le 1 (2 * crc7 b + 1)

/-- CMD27 with a new CSD, which is then read again (R347, R352). -/
def programCsd (p : ArcPort) (perm tmp : Bool) : List Bytes := [sdFrame 27 0, sdData (csdBytes p perm tmp)] ++ readCsd p

/-! ### Archive media: a record that was not written (R349) -/

/-- The record that is to be written goes to its card: its port, block and 512 bytes, or the CMD27 after the last. The CSD is
read first; a protected card gets neither (R343, R347, R348). -/
def emitRecord (s : State) : State :=
  match s.arc.write with
  | some w =>
    let p := s.arc.ports.get {} w.port
    if w.waitCard || !writable p then s
    else if w.protecting then emitSd s w.port (readCsd p ++ programCsd p false true)
    else
      let r := nth [] w.records 0
      let addr := if p.type = 0 then 512 * w.block else w.block
      let s := emitSd s w.port (readCsd p ++ [sdFrame 24 addr, sdData r, sdFrame 13 (65536 * p.rca.toNat)])
      { s with out := { s.out with arc := s.out.arc ++ [(w.port, w.block, r)] } }
  | none => s

/-- The running ARCHIVE_WRITE. -/
def arcCmd (s : State) : Option AdminCmd :=
  s.arc.write.bind fun w => s.adm.find? fun c => c.phase == .running && c.op = 0x35 && c.gal = w.gal && c.sq = w.sq

def setArcPort (s : State) (n : Nat) (p : ArcPort) : State := updArc s fun a => { a with ports := a.ports.put {} n p }
def updArcPort (s : State) (n : Nat) (f : ArcPort → ArcPort) : State := updArc s fun a => { a with ports := a.ports.upd {} n f }

/-- The ARCHIVE_WRITE leaves its port; a ceremony whose last use it had ends (R340). -/
def closeArcWrite (s : State) : State :=
  match s.arc.write with
  | none => s
  | some w =>
    let s := updArc s fun a => { a with write := none }
    let s := updArcPort s w.port fun p => if p.state == .busy then { p with state := .ready } else p
    (List.range 8).foldl (fun s c => match nth none s.cus.cer c with
      | some x => if x.ref = w.ref && x.uses = 0 then endCeremony s c else s
      | none => s) s

/-- The identical record goes to the next block; after three failed attempts on one inserted card the command ends. -/
def arcNotWritten (s : State) (pulled : Bool) : State :=
  match s.arc.write with
  | none => s
  | some w =>
    let block := if w.protecting then w.block else w.block + 1
    if pulled then updArc s fun a => { a with write := some { w with block, attempts := 0, waitCard := true } }
    else if 2 ≤ w.attempts then
      let cmd := arcCmd s
      let s := closeArcWrite s
      match cmd with
      | some c => completeAdmin s c .faultUnresolved (w.seq % 65536) 0 []
      | none => s
    else emitRecord (updArc s fun a =>
      { a with rewrites := if w.protecting then a.rewrites else satInc31 a.rewrites, write := some { w with block, attempts := w.attempts + 1 } })

/-- The half that owns the custodian, archive and chain ports (R393). -/
def portHalf (s : State) : Half := if serving s .cope then .cope else .drag

/-- The port half changes: every custodian card is deactivated and activated again (R393). -/
def recycleCards (s : State) : State :=
  let s := (List.range 16).foldl (fun s n =>
    let p := s.cus.ports.get {} n
    if p.state == .empty || p.state == .disabled || !s.pwr.vcardOk then s
    else
      let p : CardPort := { state := .activating, power := true, waits := .power, present := p.present }
      updCus (emitPins (deactivate s n) n pinsUp) fun u => { u with ports := u.ports.put {} n p }) s
  if s.arc.write.any fun w => !w.waitCard then arcNotWritten s false else s

def ifPortHalf (before s : State) : State := if portHalf before == portHalf s then s else recycleCards s

/-! ### Entropy of a half -/

def sourcesOf (h : Half) : List Nat := (List.range 8).map (8 * halfNo h + ·)

def setDrbg (s : State) (i : Nat) (f : Drbg → Drbg) : State := updRng s fun r => { r with drbg := updNth r.drbg i f }

/-- The lane instance of a half. -/
def laneDrbg (h : Half) : Nat := halfNo h

def drbgReady (s : State) (i : Nat) : Bool := (nth {} s.rng.drbg i).state == .ready
def drbgNotReady (s : State) (i : Nat) : Bool := (nth {} s.rng.drbg i).state == .notReady

/-- A source enters `st` with its windows empty (R456). -/
def Source.restart (x : Source) (st : SrcState) : Source :=
  { x with state := st, last := none, run := 0, apt := [], win := [], block := none }

def srcAt (s : State) (n : Nat) : Source := s.rng.src.get {} n
def updSource (s : State) (n : Nat) (f : Source → Source) : State := updRng s fun r => { r with src := r.src.upd {} n f }

def healthy (s : State) (h : Half) : Nat := ((sourcesOf h).filter fun n => (srcAt s n).state == .healthy).length

/-- The conditioner's output flows (R457). -/
def outputFlows (s : State) (h : Half) : Bool := 2 ≤ healthy s h

/-- When the output stops flowing the conditioner discards every value that it holds (R457). -/
def checkFlow (s : State) (h : Half) : State :=
  if outputFlows s h then s else updRng s fun r => { r with held := r.held.set h [] }

/-- A half reset destroys the lane instance, and the conditioner's held values go (R457, R461). In whole-device raw mode every
powered source is RAW (R466). -/
def dropEntropy (s : State) (h : Half) (src : SrcState) : State :=
  updRng s fun r =>
    let clear := fun (x : Source) => x.restart (if src != .off && r.deviceRaw then .raw else src)
    { r with held := r.held.set h [], drbg := setNth r.drbg (laneDrbg h) {}
             src := (sourcesOf h).foldl (fun t n => t.upd {} n clear) r.src }

/-! ### Host port and Span links of a half -/

/-- The port stops (spec/20): link, functions, sessions and IDE state go; its configuration registers keep their values. -/
def stopPort (s : State) (h : Half) : State :=
  updPort s h fun p => { ideReq := p.ideReq, ideFail := p.ideFail, perstLow := p.perstLow, trainFrom := p.trainFrom }

/-- A link loses its keys, counters and messages in flight; bonding stays. -/
def Link.drop (l : Link) (st : LinkState) : Link :=
  { state := if l.state == .notBonded then .notBonded else st, width := l.width, firstLane := l.firstLane, retry := l.retry }

/-- Links whose engine lies in half `h` (spec/19). -/
def Link.inHalf (l : Link) (h : Half) : Bool := l.firstLane.toNat / 64 = halfNo h && l.state != .notBonded

def dropLinks (s : State) (h : Half) (st : LinkState) : State :=
  updSpn s fun x => { x with links := x.links.mapAll {} fun _ l => if l.inHalf h then l.drop st else l }

/-! ### Jobs of a lost half (R142, R171 to R173, R566) -/

/-- A job that starts again from its entry, fetched from the next tick on (R172, R173). -/
def Job.restart (j : Job) (t hold : Nat) : Job :=
  { id := j.id, origin := j.origin, gal := j.gal, sq := j.sq, sqGen := j.sqGen, index := j.index, half := j.half, fetch := j.fetch
    count := j.count, chain := j.chain, phase := .redo, again := true, late := j.late, hold, batch := j.batch, batchEnd := j.batchEnd
    waitFrom := t }

/-- The completion that a job has produced, and that of its batch, is taken out of the hold; their entries stay reserved, the
batch's by the job that ends it (R172). -/
def unproduce (s : State) (j : Job) : State × Nat :=
  let ck := cqKey s j.sq
  let mine := fun h : Held => h.job = some j.id || h.jobs.contains j.id
  let n := ((cq s ck).hold.filter fun h => mine h && !h.silent && !h.fBatch).length
  let batch := ((cq s ck).hold.filter fun h => mine h && h.fBatch).flatMap (·.jobs)
  let s := batch.foldl (fun s id => updJob s id fun x => if x.batchEnd then { x with hold := x.hold + 1 } else x) s
  (updCq s ck fun c => { c with hold := c.hold.filter fun h => !mine h }, n)

/-- A redone job of a batch is open again (R124, R172). -/
def reopenBatch (q : Sq) (id : Nat) : Sq :=
  { q with batches := q.batches.map fun b =>
      if b.members.any (·.job = id) then
        { b with produced := false, members := b.members.map fun m => if m.job = id then { m with ok := none } else m }
      else b }

/-- Re-execution of a confirmed job that is not delivered (R172); counted once for each confirmed attempt. -/
def redoJob (s : State) (j : Job) : State :=
  if j.unconfirmed || j.phase == .redo then updJob s j.id fun j => j.restart (tick s + 1) j.hold
  else
    let (s, n) := unproduce s j
    let s := updJob s j.id fun j => j.restart (tick s + 1) (j.hold + n)
    let s := updSq s j.sq fun q => reopenBatch q j.id
    { s with lanes := { s.lanes with reexec := satInc31 s.lanes.reexec } }

/-- Entries read but not confirmed go back to the queue: reading starts again at the first of them. -/
def rewind (s : State) (k : Nat) : State :=
  let gone := (jobsOf s k).filter fun j => j.unconfirmed && !j.again
  let q := sq s k
  let idx := gone.map (·.index) ++ (s.adm.filter fun c => c.key = k && c.phase == .read).map (·.index) ++
    (s.reads.filterMap fun r => match r.what with
      | .entry k' i => if k' = k then some i else none
      | .input _ _ _ _ _ => none)
  let redo := (jobsOf s k).filter fun j => j.unconfirmed && j.again
  let first := idx.foldl (fun a i => if ringCount q.depthLog2 i q.ci < ringCount q.depthLog2 a q.ci then i else a) q.rd
  let first := if q.chainBuf.isEmpty then first else (first + modulus q.depthLog2 - q.chainBuf.length) % modulus q.depthLog2
  let s := { s with
    reads := s.reads.filter (fun r => match r.what with
      | .entry k' _ => k' ≠ k
      | .input j _ _ _ _ => !(gone.any (·.id = j)) && !(redo.any (·.id = j)))
    jobs := s.jobs.filter (fun j => !(gone.any (·.id = j.id)))
    adm := s.adm.filter (fun c => !(c.key = k && c.phase == .read)) }
  let s := redo.foldl redoJob s
  let s := updSq s k fun q =>
    { q with rd := if q.admin then first else if gone.isEmpty && idx.isEmpty && q.chainBuf.isEmpty then q.rd else first
             chainBuf := [], busy := if (s.adm.any fun c => c.key = k) then q.busy else
               q.busy && (cq s (cqKey s k)).hold.any (fun h => h.sq = k) }
  updGv s (k / 64) fun v => { v with chainSq := v.chainSq.map fun c => if c = some (k % 64) then none else c }

/-- What queue `k` had in progress through a half or port that is lost (R172, R566). -/
def redoQueue (s : State) (k : Nat) (h : Half) : State :=
  let s := rewind s k
  let s := updCq s (cqKey s k) fun c => { c with hold := c.hold.map fun x => if x.sq = k then { x with issued := false } else x }
  ((jobsOf s k).filter fun j => j.half == h && !j.delivered && j.phase != .redo).foldl redoJob s

/-- The Cupola operations of a half end; gallery operations are re-executed with their jobs (R275, R276). -/
def dropCupola (s : State) (h : Half) : State :=
  let ops := (s.cup.waiting.get h) ++ ((s.cup.units.get h).filterMap (·.op))
  { s with cup := { s.cup with
      waiting := s.cup.waiting.set h []
      units := s.cup.units.upd h fun us => us.map fun u => { u with op := none, mask := false }
      abandoned := ops.foldl (fun c _ => satInc31 c) s.cup.abandoned } }

/-- An assay of the half ends with it; its command completes with a status that the spec does not name (entry 5). -/
def dropAssay (s : State) (h : Half) : State :=
  match (s.lanes.half.get h).assay with
  | none => s
  | some a =>
    let s := updLaneHalf s h fun x => { x with assay := none }
    match a.cmd.bind fun k => s.adm.find? fun c => c.key = k && c.phase == .running with
    | some c => bump (fails s c (freeStatus s))
    | none => s

/-- A half stops: what it held is lost and its state becomes `v` (R172, R275, R480, R576, R584). -/
def leaveServing (s : State) (h : Half) (v : HalfState) : State :=
  let s0 := s
  let s := (programsOf s h).foldl (fun s g => stopProgram s h g 5 false) s
  let s := ((s.sqs.filter (·.2.exist)).map (·.1)).foldl
    (fun s k => if (jobsOf s k).any (·.half == h) || s.adm.any (fun c => c.key = k && c.half == h) ||
        s.reads.any (fun r => r.half == h) || cqPort s0 (cqKey s k) == some h then redoQueue s k h else s) s
  let s := { s with
    jobs := s.jobs.filter fun j => !(j.half == h && j.origin != .queue)
    reads := s.reads.filter (·.half != h) }
  let s := dropAssay (dropCupola s h) h
  let s := updLaneHalf s h fun x => quenchContexts
    { x with kc := [], toRetire := [], prepSlots := [], released := [], held := [], residue := [] } fun _ => true
  let s := dropEntropy s h (if v == .off then .off else .starting)
  let s := dropLinks (stopPort s h) h .down
  let s := (coresOf h).foldl haltCore s
  let s := if (coresOf h).any fun c => coreCode c = s.lcu.owner.toNat then releaseLcu s else s
  let s := updFlt s fun f => { f with halfReset := f.halfReset.set h none }
  ifPortHalf s0 (setHalf s h v)

/-! ### Banks (R296, R297, R368, R507, R519) -/

/-- What the counter areas hold beside their protected blocks. -/
def restNow (s : State) : CounterRest :=
  { activeHalf := s.mld.activeHalf, activeAtrium := s.mld.activeAtrium, quenches := s.srm.quenches, reseals := s.srm.reseals
    prodStarted := s.lcs.prodStarted, restartsLife := s.lcs.restartsLife, chain := s.lcs.chain, request := s.lcs.request
    point := s.lcs.point, overflow := s.tmp.overflow, lastLs := s.tmp.lastLs, lastPc := s.tmp.lastPc, minutes := s.rcd.minutes
    checkpoint := s.rcd.checkpoint, full := s.rcd.full, unitValid := s.chn.valid, unitAddr := s.chn.addr, unitEpoch := s.chn.epoch, unitCount := s.chn.count }

/-- The part goes on from what bank `h` holds, which was not current; the other bank is then the one behind. -/
def takeRest (s : State) (h : Half) : State :=
  let c := (s.srm.bank.get h).area.rest
  if !(s.srm.bank.get h).behind then s
  else
    let s := updTmp s fun t => { t with overflow := c.overflow, lastLs := c.lastLs, lastPc := c.lastPc }
    let s := updRcd s fun r => { r with minutes := c.minutes, checkpoint := c.checkpoint, full := c.full, live := c.checkpoint.getD {} }
    let s := updLcs s fun l =>
      { l with prodStarted := c.prodStarted, restartsLife := c.restartsLife, chain := c.chain, request := c.request, point := c.point }
    let s := updMld s fun m => { m with activeHalf := c.activeHalf, activeAtrium := c.activeAtrium }
    { updSrm s fun r => { r with quenches := c.quenches, reseals := c.reseals } with
      chn := { s.chn with valid := c.unitValid, addr := c.unitAddr, epoch := c.unitEpoch, count := c.unitCount } }

/-- Bank `h` is not current (R296 to R298), or is so again. -/
def setBehind (s : State) (h : Half) (v : Bool) : State :=
  updSrm s fun r => { r with bank := r.bank.upd h fun b => { b with behind := v } }

/-- A bank comes back: intents that the other lacks are completed, counter area with its journals, tamper log and records are
copied, and then it is marked available; slots with a stale bit are read again (R297, R298). Without the other bank the part takes
what the bank holds. -/
def bankReturn (s : State) (h : Half) : State :=
  if bankUp s h then s
  else
    let o := other h
    let s := if bankUp s o then
        let s := ((s.lcs.intents.get h).filter fun i => !((s.lcs.intents.get o).any fun x => x.seq = i.seq)).foldl (completeIntent (rootKey s)) s
        let s := updTmp s fun t => { t with log := t.log.set h (t.log.get o) }
        let s := updRcd s fun r => { r with stored := r.stored.set h (r.stored.get o) }
        updSrm s fun r => { r with
          bank := r.bank.upd h fun b => { b with area := (r.bank.get o).area }
          resealPos := r.resealPos.set h (r.resealPos.get o), overwritePos := r.overwritePos.set h (r.overwritePos.get o) }
      else setBehind (takeRest s h) o true
    let s := updSrm (setBehind s h false) fun r => { r with bank := r.bank.upd h fun b => { b with available := true } }
    if s.srm.dirReady then refreshWhole s ((s.srm.bank.get .cope).stale ++ (s.srm.bank.get .drag).stale) else s

/-- A bank is lost. Slots with a stale bit for the other bank are BAD until it returns (R298). -/
def bankLoss (s : State) (h : Half) : State :=
  if !bankUp s h then s
  else
    let c := restNow s
    let up := bankUp s (other h)
    let s := updSrm s fun r => { r with bank := r.bank.upd h fun b => { b with available := false, behind := up, area := { b.area with rest := c } } }
    if s.srm.dirReady then refreshWhole s (s.srm.bank.get (other h)).stale else s

/-! ### The pour of a half (R65 to R72, R475, R583 step 5) -/

/-- The state and the cause of retirement of a unit with role `r` after the pour's assay, which only active and spare units
undergo; one that fails is retired (R151, R271, R482). -/
def roleState (r : Role) (passed : Bool) : UnitState × BitVec 4 :=
  match r with
  | .off => (.off, 0)
  | .active => if passed then (.active, 0) else (.retired, 2)
  | .spare => if passed then (.spare, 0) else (.retired, 2)

/-- Whether unit `k` passes the assay of a pour: a free value (entry 5). -/
def assayPasses (s : State) (k : Nat) : Bool := (Config.freeByte s.freeCtr (1024 + k)).getLsbD 0

def lanesOf (s : State) (rs : List Role) : List Lane :=
  (rs.zip (List.range rs.length)).map fun e =>
    let x := roleState e.1 (assayPasses s e.2)
    { role := e.1, state := x.1, cause := x.2 }

def unitsOf (s : State) (rs : List Role) : List CupUnit :=
  (rs.zip (List.range rs.length)).map fun e =>
    let x := roleState e.1 (assayPasses s (64 + e.2))
    { role := e.1, state := x.1, cause := x.2 }

def widthCode (w : Nat) : Nat := if w = 1 then 0 else if w = 2 then 1 else if w = 4 then 2 else 3

/-- Links that the Mould bonds in half `h`. -/
def loadBonds (s : State) (h : Half) (c : HalfCfg) : State :=
  updSpn s fun x =>
    let rest := x.links.filter fun e => !e.2.inHalf h
    { x with links := c.bonds.foldl (fun t b => t.put {} b.link
        { state := .down, width := BitVec.ofNat 2 (widthCode b.width), firstLane := BitVec.ofNat 7 b.first
          retry := (x.links.get {} b.link).retry }) rest }

/-- Step 3 of a half pour applies the sections of Mould `m`. -/
def loadHalf (s : State) (h : Half) (slotB : Bool) (m : Mould) : State :=
  let c := m.halves.get h
  let s := updMld s fun x =>
    { x with runHalf := x.runHalf.set h (some m), runSlotHalf := x.runSlotHalf.set h (some slotB)
             lastHalf := x.lastHalf.set h (some m) }
  let s := updLaneHalf s h fun x =>
    { x with lanes := lanesOf s c.laneRole, libId := c.libId, libVer := c.libVer, kc := [], kcKey := s.freeCtr, toRetire := [] }
  let s := { bump s with cup := { s.cup with units := s.cup.units.set h (unitsOf s c.cupolaRole) }
                         galv := s.galv.mapAll {} fun _ v => { v with credit := v.credit.set h 0 } }
  let s := loadRegions (loadBonds s h c) (halfCtrls h) (c.regions.map fun d => { d with lock := false })
  let s := { s with mem := { s.mem with floor := s.mem.floor.set h (Memory.writeN [] c.fw.load.toNat c.fw.image) } }
  let s := (coresOf h).foldl (fun s k => startCore s k c.fw.entry) s
  let s := dropEntropy s h .starting
  updPort s h fun p => { p with mayTrain := c.hostEn }

/-- The command that waits for a half's pour completes. -/
def endPourCmd (s : State) (cmd : Option Nat) (st : Status) : State :=
  match cmd.bind fun k => s.adm.find? fun c => c.key = k && c.phase == .running with
  | some c => fails s c st
  | none => s

/-- A half that is not poured runs no Mould: its slot, version and digest read 0 (R72). -/
def unpoured (s : State) (h : Half) : State :=
  updMld s fun m => { m with runHalf := m.runHalf.set h none, runSlotHalf := m.runSlotHalf.set h none }

/-- A bank's image slot. -/
def putImage (s : State) (h : Half) (b : Bool) (i : Option Bytes) : State :=
  updMld s fun m => if b then { m with slotB := m.slotB.set h i } else { m with slotA := m.slotA.set h i }

/-- A pour ends in a severe source or a pour failure: counted, and after three in a row the half is held (R475). The
status of a waiting command is one that the spec does not name (entry 5). -/
def countPourFailure (s : State) (h : Half) : State :=
  let n := satInc 3 (s.flt.failedPours.get h)
  let cmd := (s.mld.pour.get h).bind (·.cmd)
  let s := updFlt s fun f => { f with failedPours := f.failedPours.set h n, hold := f.hold.set h (f.hold.get h || 3 ≤ n) }
  if 3 ≤ n then
    let s := bump (endPourCmd s cmd (freeStatus s))
    setHalf (unpoured (updMld s fun m => { m with pour := m.pour.set h none }) h) h .reset
  else s

/-- The history of R474 with one more event at `t`: whether the source is severe, and the history kept. -/
def countFault (x : FaultSrc) (t : Nat) : Bool × List Nat :=
  let l := x.history ++ [t]
  if l.length < x.countN.toNat then (false, l)
  else if t - nth 0 l 0 < x.window.toNat then (true, [])
  else (false, l.drop 1)

/-- A half rewrites its own bank's copy of the slot that it pours (R67): the corrected fault of source +11 is recorded and
counted as the counting mode of a pour gives (R473, R474); a severe source ends the pour. -/
def repairCopy (s : State) (h : Half) (b : Bool) (img : Bytes) : State :=
  let n := halfSrc h 11
  let s := latch (putImage s h b (some img)) n 0 0 0
  let (severe, l) := countFault (fltSrc s n) (tick s)
  let s := updSrc s n fun x => { x with history := l }
  if severe then countPourFailure s h else s

/-- A recovery interval that is cut short counts as a failed pour (R475). -/
def cutShort (s : State) (h : Half) : State :=
  if s.flt.countHalf.get h && ((s.mld.pour.get h).isSome || (s.flt.endHalf.get h).isSome) then
    let n := satInc 3 (s.flt.failedPours.get h)
    updFlt s fun f => { f with failedPours := f.failedPours.set h n, hold := f.hold.set h (f.hold.get h || 3 ≤ n) }
  else s

/-- A half's pour from step 1 (spec/03). `slotB`: the slot to pour, which becomes the half's active slot as its pour begins
(R65); the other one is the fallback of R66. DESIGN CHOICE (entry 75): a fallback pour makes the other slot the active one,
since its pour begins from there. While the Reserve pair restarts the pour is paused (R70). -/
def beginPour (s : State) (h : Half) (slotB : Bool) (cmd : Option Nat) : State :=
  if s.flt.hold.get h || s.flt.deviceHold || !(s.pwr.feed.get h).valid then unpoured s h
  else
    let s := bankReturn s h
    let s := updFlt s fun f => { f with countHalf := f.countHalf.set h true, endHalf := f.endHalf.set h none }
    let s := updWld s fun w => { w with busKey := s.freeCtr }
    let s := updMld (bump s) fun m => { m with activeHalf := m.activeHalf.set h (some slotB) }
    let s := clearOps { s with cup := { s.cup with units := s.cup.units.upd h fun us => us.map fun u => { u with mask := false } } } h
    let d := PourDomain.half h
    let s := noteErrors s d slotB
    let found := match goodImage s d slotB with
      | some (i, o) => some (slotB, i, o, false)
      | none => (goodImage s d !slotB).map fun (i, o) => (!slotB, i, o, true)
    match found with
    | some (b, img, fromOther, fallback) =>
      let s := updMld s fun m =>
        { m with fallback := m.fallback.set h (m.fallback.get h || fallback), activeHalf := m.activeHalf.set h (some b)
                 pour := m.pour.set h (some { step := 1, slotB := b, cmd, paused := s.atr.restarting, resetEnd := tick s + 1 + fromBe (freeBytes s 2) % 20000 }) }
      let s := if fromOther then repairCopy (bump s) h b img else bump s
      if s.flt.hold.get h then s else setHalf (loadHalf s h b (mouldOf img)) h .reset
    | none =>
      let s := latch s (halfSrc h 20) 1 2 0
      let s := countPourFailure (updMld s fun m => { m with pour := m.pour.set h (some { step := 2, slotB, cmd }) }) h
      let s := bump (endPourCmd s cmd (freeStatus s))
      setHalf (unpoured (updMld s fun m => { m with pour := m.pour.set h none }) h) h .reset

/-- The slot that a half pours again: its active slot. -/
def activeSlot (s : State) (h : Half) : Bool := ((s.mld.activeHalf.get h).getD ((s.mld.activeAtrium).getD false))

/-- A half reset (R480, R584): the half leaves SERVING and pours slot `b`. -/
def halfResetTo (s : State) (h : Half) (b : Bool) (cmd : Option Nat) : State :=
  let n := satInc 255 (s.pwr.halfResets.get h).toNat
  let s := updPwr s fun p => { p with halfResets := p.halfResets.set h (BitVec.ofNat 8 n) }
  let cmd := match cmd with
    | some k => some k
    | none => (s.mld.pour.get h).bind (·.cmd)
  beginPour (leaveServing s h .reset) h b cmd

/-- A half reset that pours from the active slot. -/
def halfResetNow (s : State) (h : Half) (cmd : Option Nat) : State := halfResetTo s h (activeSlot s h) cmd

/-- A pour or recovery that ends in a severe source (R474, R475): the half pours again from step 1 unless it is held. -/
def pourAgain (s : State) (h : Half) : State :=
  let s := countPourFailure (leaveServing s h .reset) h
  if s.flt.hold.get h then s else halfResetNow s h none

/-- A half reset whose containment waits for a retirement step (R480): this tick's window before cycle 1,212, else the
next one's. A half that pours starts its pour again (R70). -/
def dueHalfReset (s : State) (h : Half) (cycle : Nat) : State :=
  if serving s h then
    let t := if cycle < 1212 && !s.gen.windowDone then tick s else tick s + 1
    updFlt s fun f => { f with halfReset := f.halfReset.set h (some ((f.halfReset.get h).getD t)) }
  else if (s.mld.pour.get h).isSome then halfResetNow s h none
  else s

/-! ### Reserve restart (R397, R398, R18) -/

/-- Running commands whose effect is not committed (R18); they cite a ceremony that they keep (R340). -/
def restartable (op : Nat) : Bool := op = 0x33 || op = 0x34 || op = 0x35

/-- The ceremony reference that a command of a set or an archive names. -/
def AdminCmd.cites (c : AdminCmd) : Nat := if c.op = 0x35 then c.p 2 4 else c.p 16 4

/-- The command that has taken a use of a ceremony and has not completed (R340). -/
def citing (s : State) (ref : Word) : Option AdminCmd :=
  s.adm.find? fun a => (a.phase == .running || a.cited) && restartable a.op && a.cites = ref.toNat

/-- A ceremony is closed: a running command keeps it until that command completes (R340). -/
def closeCer (s : State) (k : Nat) (x : Ceremony) : State :=
  if (citing s x.ref).isSome then updCus s fun u => { u with cer := setNth u.cer k (some { x with uses := 0 }) } else endCeremony s k

/-- The ceremonies end at a Reserve restart, but for those that a running command cites (R340). -/
def restartCeremonies (s : State) : State :=
  (List.range 8).foldl (fun s k => match nth none s.cus.cer k with
    | some x => closeCer s k x
    | none => s) s

/-- A running command goes back to its start (R18). The card that an archive write had is ready again. -/
def sendBack (s : State) : State :=
  let s : State := match s.arc.write with
    | some w => updArcPort (updArc s fun a => { a with write := none }) w.port
        fun p => if p.state == ArcState.busy then { p with state := .ready } else p
    | none => s
  { s with adm := s.adm.map fun c => if c.phase == .running && restartable c.op then { c with phase := .confirmed, cited := true } else c }

/-- Steps 1 to 3 of R398. The restart ends at RESERVE_RESUMED. -/
def reserveRestart (s : State) (cause : Nat) : State :=
  let s := { s with atr := { s.atr with restarting := true } }
  let s := updWld s fun w => { w with cause := BitVec.ofNat 4 cause }
  let s := haltCore s 0
  let own := fun o : CupOp => o.job.isNone
  let n := fun h => ((s.cup.waiting.get h).filter own).length + ((s.cup.units.get h).filter fun u => u.op.any own).length
  let s := { s with cup := { s.cup with
      abandoned := (List.range (n .cope + n .drag)).foldl (fun c _ => satInc31 c) s.cup.abandoned
      waiting := s.cup.waiting.map fun l => l.filter fun o => !own o
      units := s.cup.units.map fun us => us.map fun u => if u.op.any own then u.free else u
      reserve := [], resDone := [] } }
  let s := restartCeremonies s
  let s := if s.lcu.owner = 1 then releaseLcu s else s
  let s := { s with mem := { s.mem with reserve := [] } }
  let s := loadRegions s [0, 1] ((s.mld.runAtrium.map (·.atrium.regions)).getD [])
  let s := { s with galv := s.galv.mapAll {} fun _ v => { v with wide := none } }
  let s := updCus s fun u =>
    { u with run := none, ports := u.ports.mapAll {} fun _ p => { p with share := [], setId := [], shareLine := 0 } }
  let s := sendBack s
  updMld s fun m => { m with pour := m.pour.map fun p => p.map fun x => { x with paused := true } }

/-! ### Quench (R312, R313) -/

/-- Step 1: both epoch registers are overwritten; every key leaves the part's reach at once. Ceremonies end (R340). -/
def quench (s : State) : State := endCeremonies (quenchNow s)

/-- Slot commands and bindings of one gallery run one at a time in order of confirmation (R97). -/
def slotTurn (s : State) (g : Nat) (c : AdminCmd) : Bool :=
  firstOf s (fun x => (0x22 ≤ x.op && x.op ≤ 0x26 && x.gal = g) || (x.op = 0x15 && x.p 0 1 = g) ||
    (x.op = 0x35 && x.p 0 1 = g)) c

/-- A confirmed job that has something of its own left to issue. -/
def Job.unissued (s : State) (j : Job) : Bool :=
  if j.phase == .finished then
    (cq s (cqKey s j.sq)).hold.any fun h => !h.issued && (h.job = some j.id || (!h.fBatch && h.jobs.contains j.id))
  else !j.unconfirmed && j.phase != .redo

/-- A slot command in progress: one whose turn it is, or an archive write under way. -/
def slotBusy (s : State) (c : AdminCmd) : Bool :=
  if 0x20 ≤ c.op && c.op ≤ 0x27 then c.phase == .running || (c.phase == .confirmed && slotTurn s c.gal c)
  else c.op = 0x35 && c.phase == .running

/-- Steps 2 and 3 at a changes step, and R313: confirmed jobs without an issued completion end `FAULT_UNRESOLVED`, slot
commands in progress end `RESERVE_BUSY`. -/
def quenchChanges (s : State) : State :=
  let s := updSrm s fun r =>
    { r with
      quenching := false, quenched := true, overwrite := true, overwritePos := ⟨0, 0⟩, writtenSince := [], reseal := false
      resealPos := ⟨0, 0⟩
      quenches := if s.lcs.state == .production then BitVec.ofNat 16 (satInc 65535 r.quenches.toNat) else r.quenches, maskSeed := none, lines := []
      dir := r.dir.mapAll {} fun _ d => if d.state == .unassigned then d else { d with state := .empty } }
  let s := updLaneHalf (updLaneHalf s .cope fun x => { x with kc := [] }) .drag fun x => { x with kc := [] }
  let s := { s with cup := { s.cup with units := s.cup.units.map (List.map CupUnit.free), waiting := ⟨[], []⟩, reserve := [], resDone := [] } }
  let s := bump ((List.range 18).foldl fillOp s)
  let open_ := s.jobs.filter fun j => j.origin == .queue && j.unissued s
  let s : State := open_.foldl (fun (s : State) (j : Job) =>
    if j.phase == .finished then
      let (s, n) := unproduce s j
      let s := updSq (updJob s j.id fun j => { j with hold := j.hold + n }) j.sq fun q => reopenBatch q j.id
      completeJob s j.id .faultUnresolved 0 0 [] [] j.chain (tick s + 1)
    else completeJob s j.id .faultUnresolved (if j.chain then j.cur else 0) 0 [] [] j.chain (tick s + 1)) s
  let s : State := { s with jobs := s.jobs.filter fun j => !(j.origin != .queue && !j.unconfirmed && j.phase != .finished) }
  let s := closeArcWrite s
  let s := (s.adm.filter fun c => (c.phase == .running || c.cited) && (c.op = 0x33 || c.op = 0x34)).foldl (fun s c => bump (fails s c (freeStatus s)))
    (updCus (dropShares s 23) fun u => { u with run := none })
  (s.adm.filter (slotBusy s)).foldl (fun s c => fails s c .reserveBusy) s

/-! ### Device reset (R584 to R587, R93, R476, R543) -/

/-- Starts that a device reset ends before either half serves (R476). -/
def startUnserved (s : State) : Bool := s.flt.countAtrium && s.flt.endAtrium.isNone

def Monitor.afterReset (s : State) (m : Nat) (x : Monitor) : Monitor := { x with fired := (s.tmp.mon.get {} m).fired }

/-- The counts of responses fired are kept over the return to the floors (R491, R510). -/
def floorMonitors (s : State) : Tab Monitor :=
  monitorNos.foldl (fun t m => t.put {} m ((t.get {} m).afterReset s m)) resetMonitors

/-- A device reset discards the pair table (R534); a pair with slots that wait to be replicated is in RESYNC (R543, entry 50). -/
def keepPair (p : Pair) : Pair :=
  if p.state == .none || p.pending.isEmpty then {} else { p with state := .resync, pending := [], inFlight := [] }

/-- `FT_EN` high at a start latches half source +20 in both halves (R593). -/
def ftLatch (s : State) : State :=
  if s.pwr.ftEn then latch (latch s (halfSrc .cope 20) 1 0 0) (halfSrc .drag 20) 1 0 0 else s

/-- What a device reset keeps and clears (R584). -/
def resetState (s : State) (cause : Nat) : State :=
  let n := if startUnserved s then satInc 3 s.flt.failedStarts else s.flt.failedStarts
  { State.reset with
    pending := s.pending, freeCtr := s.freeCtr, gals := s.gals
    pwr := { s.pwr with
      phase := if s.pwr.sysResetLow || s.pwr.ftEn then .held else .step2
      cause := BitVec.ofNat 4 cause, watts := ⟨0, 0⟩, wattsAtrium := 0 }
    atr := { ({} : AtrRegs) with
      srcB := s.atr.srcB
      half := ⟨if s.pwr.feed.cope.valid then .reset else .off, if s.pwr.feed.drag.valid then .reset else .off⟩ }
    mld := { slotA := s.mld.slotA, slotB := s.mld.slotB, activeHalf := s.mld.activeHalf, activeAtrium := s.mld.activeAtrium }
    srm := { s.srm with
      bank := s.srm.bank.map fun b => { b with available := false, scrubDue := 0, wearDue := 0 }
      dirReady := false, dir := [], resealDue := 0, corrected := 0 }
    cus := { installed := s.cus.installed, n := s.cus.n, m := s.cus.m, point := s.cus.point, commit := s.cus.commit
             testRoot := s.cus.testRoot }
    lcs := { fuses := s.lcs.fuses, prodStarted := s.lcs.prodStarted, restartsLife := s.lcs.restartsLife, intents := s.lcs.intents, intentSeq := s.lcs.intentSeq
             chain := s.lcs.chain, request := s.lcs.request, point := s.lcs.point }
    tmp := { s.tmp with mon := floorMonitors s, defaults := true, cellCopied := false, decision := none, rotate := 0, selfRun := none }
    rcd := { minutes := s.rcd.minutes, stored := s.rcd.stored, checkpoint := s.rcd.checkpoint, full := s.rcd.full
             live := s.rcd.checkpoint.getD {} }
    chn := { valid := s.chn.valid, addr := s.chn.addr, epoch := s.chn.epoch, count := s.chn.count }
    spn := { pairs := s.spn.pairs.mapAll {} fun _ p => keepPair p }
    rng := { src := [Half.cope, .drag].foldl (fun t h => if (s.pwr.feed.get h).valid then
      (sourcesOf h).foldl (fun t n => t.upd {} n fun x => x.restart .starting) t else t) [] }
    hst := { ({} : HostPorts) with port := s.hst.port.map fun p => { perstLow := p.perstLow } }
    mem := { mram := s.mem.mram }
    cup := { mem := s.cup.mem }
    flt := { src := resetSources, failedStarts := n, deviceHold := s.flt.deviceHold || 3 ≤ n, lastValid := s.flt.lastValid
             lastSource := s.flt.lastSource, lastUnit := s.flt.lastUnit, lastNew := s.flt.lastNew } }

/-- A device reset; the start that follows latches the strap (R587, R593). -/
def deviceReset (s : State) (cause : Nat) : State := ftLatch (resetState s cause)

end Sys2Proof.Machine
end

