-- ==== Sys2Proof/Machine/Tamper.lean ====
section
/-!
DEFINITION. Tamper monitors: events, counting, responses and decisions (R492 to R497, R502, R503), stimulation (R499,
R500).
-/
namespace Sys2Proof.Machine

def monEntry (s : State) (m : Nat) : Monitor := s.tmp.mon.get {} m
def updMon (s : State) (m : Nat) (f : Monitor → Monitor) : State := updTmp s fun t => { t with mon := t.mon.upd {} m f }

/-- The domain of a monitor is powered. -/
def monPowered (s : State) (m : Nat) : Bool :=
  match monHalf m with
  | some h => (s.pwr.feed.get h).valid
  | none => true

/-- A monitor watches: in cell-only operation the marked ones, else those whose domain is powered. Monitor 0x11 raises
no event for 5 ms after `ARC_VSEL` changes (R602). -/
def monActive (s : State) (m : Nat) (i : MonitorInfo) : Bool :=
  if s.pwr.cellOnly then i.cell
  else s.pwr.phase != .off && monPowered s m &&
    !(m = 0x11 && s.arc.vselAt.any fun t => tick s < t + 5000)

/-- Time in cell-only operation: the milliseconds since the last event there are a free value (entry 5); the
life-seconds counter follows (R505). -/
def cellTime (s : State) : State :=
  let d := fromLe (freeBytes s 4)
  let ms := s.tmp.cellMs + d
  let sec := Nat.min 0xFFFFFFFF (s.tmp.lifeSeconds.toNat + (ms / 1000 - s.tmp.cellMs / 1000))
  bump (updTmp s fun t => { t with cellMs := ms, lifeSeconds := BitVec.ofNat 32 sec })

def monTime (s : State) : Nat := if s.pwr.cellOnly then s.tmp.cellMs else tick s

/-- A RESET_HALF of `h` is being carried out and `h` has not left SERVING yet: its lanes and Cupola units stand still
(R494). -/
def halfStopped (s : State) (h : Half) : Bool :=
  s.tmp.decision.any fun d => d.response = 1 && d.halves.get h

/-- The response `r` is applied (R495, R496): no decision is being carried out, or it is more severe, or it belongs to
the decision of this tick with the same severity (entry 15: the row carries no cycle). -/
def applies (s : State) (r : Nat) : Bool :=
  match s.tmp.decision with
  | none => true
  | some d => d.response < r || (d.response = r && d.tick = tick s)

/-- The effect of an applied response (R494). -/
def applyResponse (s : State) (m r : Nat) : State :=
  match r with
  | 1 =>
    match monHalf m with
    | some h =>
      if serving s h || (s.mld.pour.get h).isSome then
        let hs := match s.tmp.decision with
          | some d => if d.response = 1 then d.halves else ⟨false, false⟩
          | none => ⟨false, false⟩
        if hs.get h then s
        else dueHalfReset (updTmp s fun t => { t with decision := some ⟨1, hs.set h true, tick s⟩ }) h 0
      else s
    | none => s
  | 2 =>
    let t := tick s
    updTmp (deviceReset s 3) fun x => { x with decision := some ⟨2, ⟨false, false⟩, t⟩ }
  | 3 => quench (updTmp s fun t => { t with decision := some ⟨3, ⟨false, false⟩, tick s⟩ })
  | _ => s

/-- The quench of the cell domain: step 1, the rest at the next start (R502, R314). -/
def cellQuench (s : State) : State :=
  { s with srm := { s.srm with epoch0 := none, epoch1 := none, atStart := true } }

/-- A monitor fires its response (R493 to R496, R502, R503). -/
def fire (s : State) (m detail : Nat) (logic : Bool) : State :=
  let r := (monEntry s m).response.toNat
  let s := updMon s m fun x => { x with fired := BitVec.ofNat 8 (satInc 255 x.fired.toNat) }
  let cell := s.pwr.cellOnly
  let app := if cell then r = 3 else applies s r
  let e := logEntry s m 0 (r + 4 * b2n app + 8 * b2n cell + 16 * b2n logic) detail
  if cell then if app then cellQuench (appendCell s e) else appendCell s e
  else if app then applyResponse (appendLog s e) m r else appendLog s e

/-- One event of monitor `m` (R492, R493). -/
def monEvent (s : State) (m detail : Nat) (logic : Bool) : State :=
  match monitorInfo m with
  | none => s
  | some i =>
    if !monActive s m i then s
    else
      let s := if s.pwr.cellOnly then cellTime s else s
      let t := monTime s
      let x := monEntry s m
      if x.last = some t then s
      else
        let s := if s.pwr.cellOnly then s else recTamper s m
        let s := if m = 0xC0 && !logic then updTmp s fun y => { y with lidOpen := true } else s
        let hist := x.history ++ [t]
        let w := if s.pwr.cellOnly then (x.window.toNat + 999) / 1000 else x.window.toNat
        if hist.length < x.countN.toNat then updMon s m fun y => { y with history := hist, last := some t }
        else if t - nth 0 hist 0 < w then fire (updMon s m fun y => { y with history := [], last := some t }) m detail logic
        else updMon s m fun y => { y with history := hist.drop 1, last := some t }

/-- What the receiver of loop `m` finds in a bit: bit 0 of `d` is `_IN` in it, bit 1 `_IN` in the bit before; none when `_IN` is the
driven bit, else DETAIL 2 open, 3 short, 1 any other mismatch (R605). -/
def loopDetail (s : State) (m d : Nat) : Option Nat :=
  let n := monTime (if s.pwr.cellOnly then cellTime s else s)
  let now := Config.loopBit s.tmp.loopSeed m n
  let before := Config.loopBit s.tmp.loopSeed m (n - 1)
  if nbit d 0 = now then none
  else if n ≠ 0 && before == now && nbit d 1 != before then some (if now then 2 else 3)
  else some 1

/-- DETAIL of an event of monitor `m` (R505): what the sensor of a rail, a clock or a temperature reports, what a loop's receiver
finds; 0 for every other monitor and for a fault of the monitor logic. -/
def detailOf (s : State) (m d : Nat) (logic : Bool) : Option Nat :=
  if logic then some 0
  else if m / 16 = 0xB then loopDetail s m d
  else if m < 0x16 || (0x20 ≤ m && m ≤ 0x24) then some (if d = 2 then 2 else 1)
  else if 0x30 ≤ m && m ≤ 0x43 then some d
  else some 0

/-- MONITOR_EVENT (R492 to R497, R605). -/
def execMonitorEvent (m : Byte) (detail : BitVec 16) (logicFault : Bool) (s : State) : Out :=
  .next <| match detailOf s m.toNat detail.toNat logicFault with
  | some d => monEvent s m.toNat d logicFault
  | none => s

/-- A decision of a half reset has been carried out when none of its halves is still reset or pouring (R496). -/
def endDecision (s : State) : State :=
  let busy := fun (d : Decision) h => d.halves.get h && ((s.mld.pour.get h).isSome || (s.flt.halfReset.get h).isSome)
  match s.tmp.decision with
  | some d => if d.response = 1 && !busy d .cope && !busy d .drag then updTmp s fun t => { t with decision := none } else s
  | none => s

/-- One stimulation of monitor `m` (R499, R500): its result; `kind3`: a detection by request is logged (R509). -/
def stimulate (s : State) (m : Nat) (detected kind3 : Bool) : State :=
  let s := updMon s m fun x =>
    { x with stimPass := detected, failed := !detected, last := some (tick s) }
  if detected && !kind3 then s
  else appendLog s (logEntry s m (if detected then 3 else 2) ((monEntry s m).response.toNat) 0)

/-! ### Registers (R510) -/

def tmpStatus (s : State) : Word :=
  word [(b2n s.tmp.lidOpen, 0), (b2n s.tmp.defaults, 1), (b2n (16384 ≤ logCount s), 2),
    (b2n (s.tmp.mon.any fun e => e.2.failed), 3), (b2n s.tmp.cellCopied, 4)]

def tmpMon (s : State) (m : Nat) : Word :=
  if (monitorInfo m).isNone then 0
  else
    let x := monEntry s m
    word [(x.fired.toNat, 0), (x.history.length, 8), (x.countN.toNat, 16), (x.response.toNat, 28), (b2n x.stimPass, 30),
      (b2n x.failed, 31)]

def tmpWin (s : State) (m : Nat) : Word :=
  if (monitorInfo m).isNone then 0 else word [((monEntry s m).window.toNat, 0)]

/-- Registers 0x0000 to 0x003F of the TMP window. -/
def tmpWord (s : State) (i : Nat) : Word :=
  match i with
  | 0 => tmpStatus s
  | 1 => BitVec.ofNat 32 (logCount s)
  | 2 => s.tmp.overflow
  | 3 => s.tmp.lastLs
  | 4 => s.tmp.lastPc
  | 5 => s.tmp.lifeSeconds
  | 6 => s.tmp.powerCycles
  | _ => 0

end Sys2Proof.Machine
end

