-- ==== Sys2Proof/Machine/Faults.lean ====
section
/-!
DEFINITION. What a fault does: counting mode (R473, R474), classification (R470), containment actions (R469), port loss
(R565, R566), retirements (R150, R270).
-/
namespace Sys2Proof.Machine

/-- Native classes that a source reports (R469). -/
def nativeOk (n native : Nat) : Bool :=
  if n < 16 then
    match n with
    | 0 | 15 => native = 2
    | 2 | 3 | 10 | 11 => native ≤ 1
    | 12 => native = 0 || native = 2
    | 6 | 8 | 9 => native = 0
    | _ => native = 1
  else
    match srcOff n with
    | 0 | 2 | 4 => native = 0
    | 6 | 7 | 8 | 9 | 10 | 11 | 15 | 16 | 17 => native ≤ 1
    | 1 | 3 | 5 | 12 | 13 | 14 | 18 | 19 | 20 => native = 1
    | _ => false

/-! ### Containment actions -/

/-- A lane to retire in the next retirement step (R150, R151). -/
def wantRetire (s : State) (h : Half) (lane cause : Nat) : State :=
  updLaneHalf s h fun x => { x with toRetire := x.toRetire ++ [(lane, cause)] }

/-- A Cupola unit to retire in the next retirement step (R270). -/
def wantRetireUnit (s : State) (h : Half) (u cause : Nat) : State :=
  { s with cup := { s.cup with toRetire := s.cup.toRetire.upd h fun l => l ++ [(u, cause)] } }

/-- A completion queue goes to ERROR (R130). -/
def cqToError (s : State) (k : Nat) : State := updCq s k fun c => if c.exist then { c with error := true } else c

/-- A Reserve restart whose cause the table of `WLD_RESTART` does not name (entry 5). -/
def restartFree (s : State) : State := reserveRestart (bump s) ((Config.freeByte s.freeCtr 0).toNat % 16)

/-- An entropy source becomes EXCLUDED (R456). -/
def excludeSource (s : State) (n cause : Nat) : State :=
  checkFlow (updSource s n fun x => { x with state := .excluded, cause := BitVec.ofNat 3 cause, block := none }) (if n < 8 then .cope else .drag)

/-- The element of a list that an array line holds, if it holds one. -/
def picked {α : Type} (l : List α) (n info : Nat) : Option α := l[Config.arrayLine n info % (l.length + 1)]?

/-- The jobs that hold a block of staging SRAM (UNIT 0xFF) or a context of the lane UNIT (R145, R469). -/
def stagedJobs (s : State) (h : Half) (unit : Nat) : List Job :=
  s.jobs.filter fun j => j.half == h && j.origin == .queue &&
    (j.phase == .confirmed || j.phase == .ran || (j.phase == .cupola && unit % 256 = 255)) && (unit % 256 = 255 || j.book.isSome && laneOf s j = unit % 256)

/-- A beat of initiator `unit` whose code failed: its access is discarded when it comes (R13, entry 72). -/
def badBeat (s : State) (unit : Nat) : State := updWld s fun w => { w with badBeats := w.badBeats ++ [unit] }

/-- The value that a fault destroys (R13, R469): an access on a bus, a Reliquary line, both
copies of a record, a message, a key-cache line, a job in staging, one copy. -/
def lose (s : State) (n unit info : Nat) : State :=
  match srcHalf n with
  | none =>
    match n with
    | 4 => badBeat s unit
    | 5 => if unit < 2 then s else updSrm s fun r => { r with lines := r.lines.put [] unit [], maskSeed := if unit = 2 then none else r.maskSeed }
    | 7 =>
      let k := Config.arrayLine n info % 65536
      let spoil := fun h (b : Bank) => { b with recs := b.recs.put none k ((copyOf s h k).map fun r => { r with corrupt := true }) }
      refreshWhole (updSrm s fun x => { x with bank := ⟨spoil .cope x.bank.cope, spoil .drag x.bank.drag⟩ }) [headOf s k]
    | 11 => match picked s.spn.outbox n info with
      | some m => updSpn s fun x => { x with outbox := x.outbox.filter (· ≠ m) }
      | none => s
    | _ => s
  | some h =>
    match srcOff n with
    | 6 => match picked (s.lanes.half.get h).kc n info with
      | some l => updLaneHalf s h fun x => { x with kc := x.kc.filter (· ≠ l) }
      | none => s
    | 7 =>
      match picked (stagedJobs s h unit) n info with
      | some j => completeJob s j.id .faultUnresolved (if j.chain then j.cur else 0) 0 [] [] j.chain (tick s + 1)
      | none => s
    | 12 => badBeat s unit
    | 11 =>
      let k := Config.arrayLine n info % (65536 + 34)
      if 65536 ≤ k then
        updSrm s fun x => { x with bank := x.bank.upd h fun b => { b with area := { b.area with lost := b.area.lost ++ [k - 65536] } } }
      else match copyOf s h k with
      | some r => updSrm s fun x => { x with bank := x.bank.upd h fun b => { b with recs := b.recs.put none k (some { r with corrupt := true }) } }
      | none => s
    | _ => s

/-- The containment action of a source (R469). -/
def contain (s : State) (n unit info cycle : Nat) : State :=
  let s := lose s n unit info
  match srcHalf n with
  | none =>
    match n with
    | 1 => reserveRestart s unit
    | 2 => reserveRestart s 3
    | 3 => restartFree s
    | 5 => if unit < 2 then quench s else restartFree s
    | 10 => match picked ((s.cqs.filter (·.2.exist)).map (·.1)) n info with
      | some k => cqToError s k
      | none => s
    | 13 => if info = 0 then monEvent s unit 0 true else s
    | 14 => if unit = 2 || unit = 3 then setDrbg s unit fun d => { d with state := .notReady } else s
    | _ => s
  | some h =>
    match srcOff n with
    | 0 | 1 | 8 => wantRetire s h (unit % 40) 3
    | 5 => wantRetireUnit s h (unit % 9) 3
    | 9 | 17 | 19 => dueHalfReset s h cycle
    | 10 =>
      let c := unit - 0x10
      let s := updCore s (c + 1) fun x => { x with running := false, stopped := true }
      if c % 4 < 2 then dueHalfReset s h cycle else s
    | 13 => bump (excludeSource s (8 * halfNo h + unit % 8) ((Config.freeByte s.freeCtr 0).toNat % 8))
    | 14 => setDrbg s (laneDrbg h) fun d => { d with state := .notReady }
    | 18 => leaveServing s h .off
    | 20 => if (s.mld.pour.get h).isSome then pourAgain s h else s
    | _ => s

/-! ### Port loss (R565, R566) and links down -/

/-- What a lost port takes with it: queues of galleries that are not dual-homed are destroyed; what it served of the
others is re-executed through the other port. In `s` the port's link is down, or a required IDE stream
is not Secure; `before` is the state that still served. -/
def losePort (before s : State) (h : Half) : State :=
  let gs := galleries s
  let served := ((s.sqs.filter (·.2.exist)).map (·.1)).filter fun k => sqPort before k == some h && (gal s (k / 64)).dual
  let s := gs.foldl (fun s g => if (gal s g).dual then s else killPortQueues s g h) s
  let s := served.foldl (fun s k => redoQueue s k h) s
  { s with hst := { s.hst with loss := s.hst.loss.map satInc31 } }

/-- A port whose link is down: rate, width, sessions and IDE state are gone. -/
def Port.down (p : Port) : Port :=
  { p with linkUp := false, rate := 0, width := 0, flit := false, sessions := [], ideSecure := 0, ideKeys := [], spdm := 0
           transcript := [] }

/-- The port leaves DL_Active. -/
def linkLost (s : State) (h : Half) : State := losePort s (updPort s h Port.down) h

/-- A Span link is down: its keys, counters and messages in flight are gone; it trains again (R527). -/
def linkDown (s : State) (l : Nat) (st : LinkState) : State :=
  updSpn s fun x => { x with links := x.links.upd {} l fun k => if k.state == .notBonded then k else k.drop st }

/-! ### Classification -/

/-- FLT_LAST_FATAL, then the device reset (R470, R479, R587). -/
def fatalReset (s : State) (n unit : Nat) : State :=
  let s := updFlt s fun f =>
    { f with lastValid := true, lastSource := BitVec.ofNat 6 n, lastUnit := BitVec.ofNat 8 unit, lastNew := true }
  deviceReset s (if n = 15 then 7 else 2)

/-- The unit under assay that an event names (R473). -/
def assayHit (s : State) (n unit : Nat) : Option Half :=
  match srcHalf n with
  | none => none
  | some h =>
    match (s.lanes.half.get h).assay with
    | some a =>
      let lane := srcOff n ≤ 2 || srcOff n = 8
      let cup := srcOff n = 4 || srcOff n = 5
      if (lane && !a.cupola && unit % 40 = a.unit) || (cup && a.cupola && unit % 9 = a.unit) then some h else none
    | none => none

/-- The domain of a source is in counting mode (R473). -/
def counting (s : State) (n : Nat) : Bool :=
  match srcHalf n with
  | none => s.flt.countAtrium
  | some h => s.flt.countHalf.get h && (serving s h || (s.mld.pour.get h).isSome)

/-- An assay ends: the unit keeps or loses its role; a waiting command completes (R482). -/
def finishAssay (s : State) (h : Half) (passed : Bool) : State :=
  match (s.lanes.half.get h).assay with
  | none => s
  | some a =>
    let st : UnitState := if passed then (if a.inPlace then .active else .spare) else .retired
    let cause : BitVec 4 := if passed then 0 else 2
    let s := updLaneHalf s h fun x =>
      { x with assay := none
               lanes := if a.cupola then x.lanes else updNth x.lanes a.unit fun l => { l with state := st, cause } }
    let s := if a.cupola then { s with cup := { s.cup with
        units := s.cup.units.upd h fun us => updNth us a.unit fun u => { u with state := st, cause } } } else s
    match a.cmd.bind fun k => s.adm.find? fun c => c.key = k && c.phase == .running && c.op = 0x73 with
    | some c => doneWith s c [if passed then 0 else 1]
    | none => s

/-- A severe source (R474). -/
def severe (s : State) (n unit cycle : Nat) : State :=
  match assayHit s n unit with
  | some h => finishAssay s h false
  | none =>
    match srcHalf n with
    | none => deviceReset s 6
    | some h => if serving s h then dueHalfReset s h cycle else pourAgain s h

/-- One event of source `n` (R469 to R474, R479). `act`: the containment action is taken here. `cycle` is the cycle of
the tick in which the pin latched. -/
def report (s : State) (n native unit info cycle : Nat) (act : Bool) : State :=
  if !nativeOk n native || s.pwr.phase == .off then s
  else
    let cls := classify s n native
    let s := latch s n native unit info
    if native = 2 then fatalReset s n unit
    else if counting s n || (assayHit s n unit).isSome then
      let s := if native = 1 then lose s n unit info else s
      let (sev, l) := countFault (fltSrc s n) (tick s)
      let s := updSrc s n fun x => { x with history := l }
      if sev then severe s n unit cycle else s
    else if cls = 2 then fatalReset s n unit
    else if cls = 1 then
      if !act then s
      else match srcHalf n with
        | some h =>
          match srcOff n with
          | 15 => if serving s h then linkLost s h else s
          | 16 => linkDown s unit .training
          | _ => contain s n unit info cycle
        | none => contain s n unit info cycle
    else s

/-- A report of an event whose effect the caller brings about. -/
def reportOnly (s : State) (n native unit info : Nat) : State := report s n native unit info (if s.gen.windowDone then 1249 else 0) false

/-- A bad copy of slot `n` in bank `h` is rewritten from the good copy of the other bank, and counted. -/
def rewriteFrom (s : State) (h : Half) (n : Nat) (r : Rec) : State :=
  let s := updSrm (putRec s h n r) fun x => { x with corrected := satInc31 x.corrected }
  reportOnly s 6 0 (halfNo h) 0

/-- What a serving half loses at a port loss, and its source +15 (R565, R566). -/
def portLost (before s : State) (h : Half) : State := reportOnly (losePort before s h) (halfSrc h 15) 1 0 0

/-- The port leaves DL_Active: a port loss while its half serves (R565). -/
def portDown (s : State) (h : Half) : State :=
  let t := updPort s h Port.down
  if serving s h then portLost s t h else t

/-- FAULT_EVENT (R469 to R480); sources 6 and 7 report no position (R472). A pin that stays asserted is a clock out of lock; the other conditions of R477 are read
from the state. -/
def execFaultEvent (source : BitVec 6) (native : FaultClass) (unit : Byte) (info : BitVec 16) (cycle : Nat) (held : Bool)
    (s : State) : Out :=
  let nat := match native with
    | .corrected => 0
    | .contained => 1
    | .fatal => 2
  let n := source.toNat
  let info := if n = 6 || n = 7 then 0 else info
  let s := if held && 16 ≤ n && srcOff n = 19 && s.pwr.phase != .off then updFlt s fun f => { f with pins := setBit f.pins n true } else s
  .next (report s n nat unit.toNat info.toNat cycle true)

/-- COUNTING_MODE_END (R473, R475): the interval has run out; a recovery interval that completes clears the count. -/
def execCountingModeEnd (d : Domain) (s : State) : Out :=
  .next <| match d with
  | .atrium =>
    match s.flt.endAtrium with
    | some t => if t ≤ tick s then updFlt s fun f => { f with countAtrium := false, endAtrium := none } else s
    | none => s
  | .half h =>
    match s.flt.endHalf.get h with
    | some t =>
      if t ≤ tick s then
        updFlt s fun f =>
          { f with countHalf := f.countHalf.set h false, endHalf := f.endHalf.set h none, failedPours := f.failedPours.set h 0 }
      else s
    | none => s

/-- FLT_STATUS_CLEAR (R477, R478). -/
def execFltStatusClear (mask : BitVec 64) (s : State) : Out := .next (clearFaults s mask).1

/-- TICK_COMPARE_MISMATCH (R52): a fatal event of source 0. -/
def execTickCompareMismatch (s : State) : Out := .next (reportOnly s 0 2 0 0)

/-! ### Registers (R488) -/

def fltMode (s : State) : Word :=
  let f := s.flt
  word [(b2n f.countAtrium, 0), (b2n f.countHalf.cope, 1), (b2n f.countHalf.drag, 2), (b2n f.hold.cope, 3),
    (b2n f.hold.drag, 4), (b2n f.deviceHold, 5), (f.failedPours.cope, 6), (f.failedPours.drag, 8), (f.failedStarts, 10)]

def fltLastFatal (s : State) : Word :=
  word [(s.flt.lastUnit.toNat, 0), (s.flt.lastSource.toNat, 8), (b2n s.flt.lastValid, 31)]

end Sys2Proof.Machine
end

