-- ==== Sys2Proof/Machine/Checks.lean ====
section
/-!
DEFINITION. What the usage checker asks of an entry's fields: check 2 (form, references, reserved fields, values) and
check 3 (lengths) of R158 for every Pattern (spec/06 to spec/09, R405, R611).
-/
namespace Sys2Proof.Machine

/-! ### Fields shared by the Patterns -/

/-- Nibble `i` from the high nibble of byte `o`. -/
def nib (b : Bytes) (o i : Nat) : Nat :=
  let x := byteAt b (o + i / 2)
  if i % 2 = 0 then x / 16 else x % 16

def nibs (b : Bytes) (o n : Nat) : List Nat := (List.range n).map (nib b o)

/-- `n` packed decimal digits (R612). -/
def digitsOk (b : Bytes) (o n : Nat) : Bool := (nibs b o n).all (· ≤ 9)

/-- `n` digits, then 0xF up to `m` nibbles. -/
def packedOk (b : Bytes) (o n m : Nat) : Bool :=
  digitsOk b o n && ((List.range (m - n)).all fun i => nib b o (n + i) = 15)

def panLen (b : Bytes) (o : Nat) : Nat := byteAt b o

/-- The digits of a PAN field at `o` (R181). -/
def panDigits (b : Bytes) (o : Nat) : List Nat := nibs b (o + 1) (panLen b o)

/-- A PAN field of 12 to 19 digits. -/
def panOk (b : Bytes) (o : Nat) : Bool := 12 ≤ panLen b o && panLen b o ≤ 19 && packedOk b (o + 1) (panLen b o) 20

/-- A PAN field of `PAN_LEN` 0 with zero digit bytes, when no format binds a PAN (R189). -/
def panNone (b : Bytes) (o : Nat) : Bool := allZero (slice b o 11)

def fmtOk (f : Nat) : Bool := f = 0 || f = 1 || f = 3 || f = 4

/-- The PAN field of a translation or of an offset job (R189, R192). -/
def panFor (b : Bytes) (fmts : List Nat) : Bool :=
  if fmts.all (· = 1) then panNone b 4 else panOk b 4

def lens412 (mn mx : Nat) : Bool := 4 ≤ mn && mn ≤ mx && mx ≤ 12

/-- Format pair of a translation (R190): Pattern 0x0101 or a DUKPT translation (`any`) also takes format 4. -/
def fmtPair (i o : Nat) : Bool := fmtOk i && fmtOk o && (o ≠ 1 || i = 1)

/-- A MAC field at `o`: zero after `n` bytes, zero throughout on generation. -/
def macField (b : Bytes) (o n w : Nat) (verify : Bool) : Bool :=
  if verify then allZero (slice b (o + n) (w - n)) else allZero (slice b o w)

/-- A header area in the input: `n` bytes, zeros to 80 (R228). -/
def hdrArea (r : Req) (n : Nat) : Bool := r.iz n (80 - n)

def hdrLenOk (n : Nat) : Bool := 16 ≤ n && n ≤ 80

/-! ### Length of the input fields -/

/-- End of the input fields of a host-form entry (R178, R236, R255). -/
def Req.fieldsEnd (r : Req) : Nat :=
  let el := nth 0 [0, 32, 48, 66] (r.p 0)
  let k := nth 0 [0, 256, 384, 512] (r.p 0)
  let h := nth 0 [0, 28, 32, 48, 64, 28, 32, 48, 64] (r.p 2)
  let md := if r.p 1 = 1 then 64 else r.p 6 + r.p2 4
  match r.pat with
  | 0x0100 | 0x0101 | 0x0220 | 0x0228 => 16
  | 0x0110 | 0x0111 | 0x0112 => 48
  | 0x0200 | 0x0201 | 0x0202 | 0x0208 | 0x0209 | 0x020A => r.p2 4
  | 0x0300 => 0x18 + r.p2 0x12
  | 0x0310 | 0x0311 => 8 + r.p2 0x12
  | 0x0312 => 32
  | 0x0400 | 0x0408 => 32
  | 0x0401 | 0x0409 => 16 + r.p2 4
  | 0x0402 => 32 + r.p2 4
  | 0x0500 | 0x0501 | 0x0502 | 0x0520 => 80
  | 0x0510 => 0x1B0
  | 0x0521 => 80 + r.p 2
  | 0x0708 => 96
  | 0x0800 | 0x0808 => r.p2 2
  | 0x0801 | 0x0809 => 64 + r.p2 2
  | 0x0810 | 0x0811 => 0x110
  | 0x0900 | 0x0910 => h
  | 0x0901 => 1 + 4 * el + h
  | 0x0903 => 209 + 2 * el
  | 0x0911 => if r.p 1 = 0 then 2 * k + 4 else 2 * k + 4 + h
  | 0x0920 => md
  | 0x0921 => 7219 + md
  | 0x0930 | 0x0931 => 1776
  | n => if (cipherMode n).isSome then 32 + r.p2 4 + r.p2 6 else 0

/-- The input bytes that are read before any key block: the input fields, or all of them for ECHO and for a Pattern whose
fields the spec does not give (R178). -/
def Req.fieldSpan (r : Req) : Nat :=
  if r.pat = 0x0F00 || patSlots r.pat = 0 then r.inLen else Nat.min r.fieldsEnd r.inLen

/-- `n` packed digits at input offset `o`, then 0xF up to `m` nibbles; a byte that the input does not reach is no field's (the
entry then fails check 3, R178). -/
def Req.packedIn (r : Req) (o n m : Nat) : Bool :=
  (List.range m).all fun i => r.inLen ≤ o + i / 2 || (if i < n then nib r.inp o i ≤ 9 else nib r.inp o i = 15)

/-- The same at offset `o` of the 32-byte block, in either form. -/
def Req.packedBlk (r : Req) (o n m : Nat) : Bool :=
  if r.inHost then r.packedIn (o - 16) n m else packedOk r.blk o n m

/-- A form that returns its result only in RESULT or in its status, so that OUT_CAP and OUT_ADDR must be 0 (R611). A GCM or CCM
decipher of no data and the entries of a HASH or HMAC chain before `LAST` are not such forms: their Patterns write an output
buffer, of no bytes there, so OUT_CAP may be any (DESIGN CHOICE, entry 77). -/
def Req.noOutput (r : Req) : Bool :=
  match r.pat with
  | 0x0F00 => !r.inHost
  | 0x0F01 | 0x0F02 | 0x0F03 | 0x0100 | 0x0101 | 0x0110 | 0x0111 | 0x0200 | 0x0201 | 0x0202 | 0x0208 | 0x0209 | 0x020A
  | 0x0220 | 0x0228 | 0x0300 | 0x0310 | 0x0312 | 0x0400 | 0x0401 | 0x0408 | 0x0409 | 0x0502 | 0x0700 | 0x0901
  | 0x0921 => true
  | 0x0801 | 0x0809 => r.p 0 = 1
  | 0x0810 | 0x0811 => r.p 1 ≠ 0
  | 0x0911 => r.p 1 ≠ 0
  | _ => false

/-- A Pattern accepts the entry's form. -/
def Req.formOk (r : Req) : Bool :=
  match r.pat with
  | 0x0F00 | 0x0100 | 0x0101 | 0x0220 | 0x0228 => true
  | 0x0F01 | 0x0F02 | 0x0F03 | 0x0700 => !r.inHost
  | n => handoffPat n || r.inHost

/-! ### Values of the fields (check 2) -/

/-- Data ciphers (R235 to R237): ranges, reserved bytes, IV and TAG fields. -/
def dataFieldsOk (r : Req) (m : Nat) : Bool :=
  let aead := m = 3 || m = 4
  let dec := r.p 0 = 1
  let nl := r.p 8
  let tl := r.p 3
  r.p 0 ≤ 1 && r.p 1 ≤ 1 && r.p 2 ≤ 2 && r.pz 9 3 && r.pz 16 8 &&
    (if m = 3 then 12 ≤ tl && tl ≤ 16 else if m = 4 then 4 ≤ tl && tl ≤ 16 && tl % 2 = 0 else tl = 0) &&
    (match m with
      | 0 | 1 => nl = 16
      | 6 => nl = 8
      | 3 => nl = 12
      | 4 => 7 ≤ nl && nl ≤ 13
      | _ => nl = 0) &&
    (aead || r.p2 4 = 0) && (m = 4 || r.pz 12 4) &&
    (if r.first && r.p 1 = 0 then (m = 2 || r.iz nl (16 - nl)) else r.iz 0 16) &&
    (if r.last && aead && dec then r.iz (16 + tl) (16 - tl) else r.iz 16 16)

/-- FF1 (R244, R245); numerals and tweak as bytes. -/
def ff1FieldsOk (r : Req) (nMax tMax : Nat) (tweak nums : Bytes) : Bool :=
  let radix := r.p 1
  let n := r.p 2
  let t := r.p 3
  r.p 0 ≤ 1 && 2 ≤ radix && radix ≤ 64 && 2 ≤ n && n ≤ nMax && t ≤ tMax && allZero (tweak.drop t) &&
    ((nums.take n).all fun d => d.toNat < radix) && allZero (nums.drop n) && 1000000 ≤ radix ^ n

def Req.valuesOk (r : Req) : Bool :=
  let b := r.blk
  let f := fun o => byteAt b o
  let z := fun o n => allZero (slice b o n)
  let dual := !r.inHost || r.pz 16 8
  match r.pat with
  | 0x0F00 => if r.inHost then r.pz 0 24 else r.pz 16 16
  | 0x0F01 | 0x0F02 | 0x0F03 => r.pz 0 32
  | 0x0100 | 0x0101 =>
    dual && fmtPair (f 0) (f 1) && ((f 0 = 4 || f 1 = 4) == (r.pat == 0x0101)) && lens412 (f 2) (f 3) &&
      panFor b [f 0, f 1] && f 0x0F = 0 && (f 0 = 4 || z 0x18 8)
  | 0x0110 | 0x0111 =>
    fmtOk (r.p 0) && 4 ≤ r.p 1 && r.p 1 ≤ 12 && lens412 (r.p 2) (r.p 3) && panFor r.par [r.p 0] && r.p 0x0F = 0 &&
      ((List.range 10).all fun d => (nibs r.par 0x10 16).contains d) && digitsOk r.par 0x10 16 &&
      (r.p 0 = 4 || r.iz 8 8) && r.iz 0x28 8 &&
      (if r.pat = 0x0110 then r.packedIn 0x20 (r.p 1) 16 else r.iz 0x20 8)
  | 0x0112 =>
    fmtOk (r.p 0) && 4 ≤ r.p 1 && r.p 1 ≤ 12 && r.p 1 ≤ r.p 2 && r.p 2 ≤ 12 && r.p 3 = 0 && panFor r.par [r.p 0] &&
      r.p 0x0F = 0 && ((List.range 10).all fun d => (nibs r.par 0x10 16).contains d) && digitsOk r.par 0x10 16 &&
      r.iz 0 16 && r.iz 0x20 16
  | 0x0200 | 0x0201 | 0x0202 | 0x0208 | 0x0209 | 0x020A =>
    let cm := r.pat % 8 = 2
    r.p 0 ≤ 1 && (if cm then r.p 1 = 0 else r.p 1 = 1 || r.p 1 = 2) && 4 ≤ r.p 2 && r.p 2 ≤ (if cm then 16 else 8) &&
      r.p 3 = 0 && r.pz 6 2 && macField r.par 8 (r.p 2) 16 (r.p 0 = 1)
  | 0x0220 =>
    dual && f 0 ≤ 1 && 3 ≤ f 1 && f 1 ≤ 5 && z 2 2 && panOk b 4 && f 0x0F = 0 && digitsOk b 0x10 4 && nib b 0x12 0 = 0 &&
      digitsOk b 0x12 4 && (if f 0 = 1 then r.packedBlk 0x14 (f 1) 6 else z 0x14 3) && z 0x17 9
  | 0x0228 =>
    dual && f 0 ≤ 1 && 3 ≤ f 1 && f 1 ≤ 5 && digitsOk b 2 2 && f 3 ≤ 1 && panOk b 4 && f 0x0F = 0 &&
      digitsOk b 0x10 8 && (if f 0 = 1 then r.packedBlk 0x16 (f 1) 6 else z 0x16 3) && z 0x19 7
  | 0x0300 =>
    r.p 0 ≤ 2 && r.p 1 ≤ 3 && digitsOk r.par 2 2 && r.p 3 ≤ 8 && (r.p 3 = 0 || r.p 0 = 2) && panOk r.par 4 && r.p 0x0F = 0 &&
      (r.pz 0x14 2 || r.p 0 = 1) && r.pz 0x16 2 && (r.iz 8 4 || r.p 0 = 2) && r.iz 12 4 && r.iz (16 + r.p 3) (8 - r.p 3)
  | 0x0310 =>
    r.p 0 = 0 && r.p 1 ≤ 3 && digitsOk r.par 2 2 && 4 ≤ r.p 3 && r.p 3 ≤ 8 && panOk r.par 4 && r.p 0x0F = 0 && r.pz 0x14 4
  | 0x0311 =>
    r.p 0 = 0 && r.p 1 ≤ 3 && digitsOk r.par 2 2 && r.p 3 = 0 && panOk r.par 4 && r.p 0x0F = 0 && r.pz 0x14 4
  | 0x0312 =>
    fmtOk (r.p 0) && r.p 1 ≤ 3 && digitsOk r.par 2 2 && r.p 3 = 0 && panOk r.par 4 && r.p 0x0F = 0 &&
      lens412 (r.p 0x12) (r.p 0x13) && r.pz 0x14 4 && r.iz 8 8 && (r.p 0 = 4 || r.iz 24 8)
  | 0x0400 =>
    fmtPair (r.p 0) (r.p 1) && r.p 0x0F ≤ 4 && (r.p 0 = 4) == (r.p 0x0F ≤ 2) && lens412 (r.p 2) (r.p 3) &&
      panFor r.par [r.p 0, r.p 1] && r.pz 0x10 8 && r.iz 12 4 && (r.p 0 = 4 || r.iz 24 8)
  | 0x0408 =>
    fmtPair (r.p 0) (r.p 1) && r.p 0 ≠ 4 && lens412 (r.p 2) (r.p 3) && panFor r.par [r.p 0, r.p 1] && r.p 0x0F = 0 &&
      r.pz 0x10 8 && r.iz 10 6 && r.iz 24 8
  | 0x0401 =>
    r.p 0 ≤ 1 && r.p 1 = 0 && r.p 2 ≤ 4 && 4 ≤ r.p 3 && r.p 3 ≤ (if r.p 2 ≤ 2 then 16 else 8) &&
      r.p 6 = 0x20 && r.p 7 ≤ 2 && macField r.par 8 (r.p 3) 16 (r.p 0 = 1) && r.iz 12 4
  | 0x0409 =>
    r.p 0 ≤ 1 && (r.p 1 = 1 || r.p 1 = 2) && r.p 2 ≤ 1 && 4 ≤ r.p 3 && r.p 3 ≤ 8 && r.pz 6 2 &&
      macField r.par 8 (r.p 3) 16 (r.p 0 = 1) && r.iz 10 6
  | 0x0402 => r.p 0 ≤ 1 && r.p 1 ≤ 2 && r.p 2 = 0x30 && r.p 3 ≤ 2 && r.pz 6 18 && r.iz 12 4
  | 0x0500 => hdrLenOk (r.p 0) && r.pz 1 23 && hdrArea r (r.p 0)
  | 0x0501 =>
    hdrLenOk (r.p 0) && r.p 1 = 0 && 64 ≤ r.p2 2 && r.p2 2 ≤ 512 && r.p2 2 % 8 = 0 && r.pz 4 20 && hdrArea r (r.p 0)
  | 0x0502 => r.pz 0 24 && r.iz 0 80
  | 0x0510 =>
    hdrLenOk (r.p 0) && 1 ≤ r.p 1 && r.p 1 ≤ 96 && r.pz 2 22 && hdrArea r (r.p 0) && r.iz (0x150 + r.p 1) (96 - r.p 1)
  | 0x0520 => r.p 0 ≤ 1 && r.pz 1 23 && r.iz 0 80
  | 0x0521 =>
    r.p 0 ≤ 1 && hdrLenOk (r.p 1) && 24 ≤ r.p 2 && r.p 2 ≤ 72 && r.p 2 % 8 = 0 && r.pz 3 21 && hdrArea r (r.p 1)
  | 0x0700 => r.pz 4 4 && ff1FieldsOk r 16 8 (slice r.par 8 8) (slice r.par 16 16)
  | 0x0708 => r.pz 4 20 && ff1FieldsOk r 64 32 (slice r.inp 0 32) (slice r.inp 32 64)
  | 0x0800 | 0x0808 => 1 ≤ r.p 0 && r.p 0 ≤ 8 && r.p 1 = 0 && r.pz 4 20
  | 0x0801 | 0x0809 =>
    r.p 0 ≤ 1 && [2, 3, 4, 6, 7, 8].contains (r.p 1) && 4 ≤ r.p 4 && r.p 4 ≤ hashLen (r.p 1) && r.pz 5 19 &&
      (if r.p 0 = 1 && r.last then r.iz (r.p 4) (64 - r.p 4) else r.iz 0 64)
  | 0x0810 | 0x0811 =>
    let chained := 1 ≤ r.p 1
    1 ≤ r.p 0 && r.p 0 ≤ (if r.pat = 0x0810 then 4 else 3) && r.p 1 ≤ 4 && r.p 2 ≤ 7 && r.p 3 ≤ 2 &&
      (chained || r.p 3 = 0) && (if chained then r.p 4 = 0 else hdrLenOk (r.p 4)) &&
      r.p 5 ≤ (if r.pat = 0x0810 then 64 else 0) && r.p 6 ≤ 128 && r.pz 7 17 && hdrArea r (r.p 4) &&
      r.iz (0x50 + r.p 5) (64 - r.p 5) && r.iz (0x90 + r.p 6) (128 - r.p 6) && !(chained && r.last)
  | n =>
    if 0x0900 ≤ n && n ≤ 0x0932 then
      let kb := n = 0x0903 || n = 0x0930 || n = 0x0931
      let pq := 0x0920 ≤ n
      let mlSig := n = 0x0920 || n = 0x0921
      let h := r.p 2
      1 ≤ r.p 0 && r.p 0 ≤ (if pq then 1 else 3) &&
        (match n with
          | 0x0910 => r.p 1 = 1 || r.p 1 = 2
          | 0x0911 => r.p 1 ≤ 2
          | 0x0920 | 0x0921 => r.p 1 ≤ 1
          | _ => r.p 1 = 0) &&
        (if n = 0x0900 || n = 0x0901 then 1 ≤ h && h ≤ 8
          else if n = 0x0910 || (n = 0x0911 && r.p 1 ≠ 0) || kb then 2 ≤ h && h ≤ 4 else h = 0) &&
        (if kb then hdrLenOk (r.p 3) else r.p 3 = 0) &&
        (if mlSig && r.p 1 = 0 then r.p2 4 ≤ 4096 else r.p2 4 = 0) &&
        (if mlSig && r.p 1 = 0 then true else if kb then r.p 6 ≤ 128 else r.p 6 = 0) &&
        (if kb then r.p 7 ≤ 7 else r.p 7 = 0) && r.pz 8 16 &&
        (!kb || (hdrArea r (r.p 3) && r.iz (80 + r.p 6) (128 - r.p 6))) && (r.inLen ≠ 0 || r.inAddr = 0)
    else
      match cipherMode n with
      | some m => dataFieldsOk r m
      | none => true

/-- Check 2 of R158: reserved fields, form, references, batch flags, values. -/
def Req.inputOk (r : Req) (inChain : Bool) : Bool :=
  r.flags < 32 && byteAt r.raw 3 = 0 && leAt r.raw 0x0A 2 = 0 && r.formOk && r.refs.all refOk &&
    ((r.refs.zip r.roles).all fun e => match e.2 with
      | none => e.1 = 0
      | some o => o.takes e.1) &&
    (r.inHost || r.kbRefs.isEmpty) && (inChain || !(r.refs.any fun x => refType x = 3)) &&
    ((r.kbRefs).all fun x => r.fieldsEnd ≤ refOff x) &&
    !(r.last && r.first && r.batchEnd && !r.batch) && !(inChain && cupolaPat r.pat) && r.valuesOk &&
    !(r.pat = 0x0810 && r.p 1 ≠ 0 && !inChain) && !(r.pat = 0x0811 && r.p 1 ≠ 0 && !inChain)

/-- DETAIL of a BAD_INPUT of check 2: 3 for a PAN too long without PAN_OPT (R182, R205). -/
def Req.panTooLong (r : Req) : Bool :=
  match r.pat with
  | 0x0228 => 17 ≤ panLen r.blk 4 && !nbit (byteAt r.blk 3) 0
  | 0x0300 | 0x0310 | 0x0311 | 0x0312 => 17 ≤ panLen r.par 4 && !nbit (r.p 1) 0
  | _ => false

/-! ### Lengths (check 3) -/

/-- Limits of R237 for data-cipher mode `m`. -/
def dataLengthsOk (r : Req) (m : Nat) : Bool :=
  let long := longPat r.pat
  let lim := if m = 4 then (if long then 512 else 64) else if m ≥ 5 then (if long then 128 else 32) else if long then 1024 else 128
  let u := if m ≥ 5 then 8 else 16
  let enc := r.p 0 = 0
  let n := r.p2 6
  let padded := m = 0 || m ≥ 5
  r.p2 4 + n ≤ lim && (r.p2 4 = 0 || r.first) &&
    (if !r.last then n % u = 0
      else if padded then (n % u = 0 || (enc && r.p 2 ≠ 0))
      else if m = 1 then 1 ≤ n
      else if m = 2 then 16 ≤ n else true) &&
    (if padded && enc then true else r.p 2 = 0) &&
    (if m = 3 || m = 4 then (r.p 1 = 1) == enc
      else if m = 2 || m = 5 then r.p 1 = 0
      else enc || r.p 1 = 0)

/-- Check 3 of R158. -/
def Req.lengthsOk (r : Req) : Bool :=
  (r.inHost || r.inLen = 0) && (r.outCap ≠ 0 || r.outAddr = 0) && (!r.noOutput || (r.outCap = 0 && r.outAddr = 0)) &&
    (if !r.inHost then true
      else if handoffPat r.pat then true
      else if r.pat = 0x0F00 then 1 ≤ r.inLen && r.inLen ≤ 1024
      else if 0x0900 ≤ r.pat && r.pat ≤ 0x09FF then r.inLen = r.fieldsEnd
      else r.fieldsEnd ≤ r.inLen && r.inLen ≤ 2048) &&
    (!handoffPat r.pat || (r.inLen ≤ 1024 && r.outCap ≤ 1024)) &&
    (match r.pat with
      | 0x0200 | 0x0201 | 0x0202 | 0x0401 | 0x0409 => 1 ≤ r.p2 4 && r.p2 4 ≤ 64
      | 0x0208 | 0x0209 | 0x020A => 1 ≤ r.p2 4 && r.p2 4 ≤ 512
      | 0x0300 => 1 ≤ r.p2 0x12 && r.p2 0x12 ≤ 256
      | 0x0310 => 1 ≤ r.p2 0x12 && r.p2 0x12 ≤ 248
      | 0x0311 => 1 ≤ r.p2 0x12 && r.p2 0x12 ≤ 240
      | 0x0402 => 16 ≤ r.p2 4 && r.p2 4 ≤ 256 && r.p2 4 % 16 = 0
      | 0x0800 | 0x0808 => r.p2 2 ≤ (if longPat r.pat then 1024 else 128) && (r.last || r.p2 2 % hashBlock (r.p 0) = 0)
      | 0x0801 | 0x0809 => r.p2 2 ≤ (if longPat r.pat then 1024 else 128) && (r.last || r.p2 2 % hashBlock (r.p 1) = 0)
      | n => match cipherMode n with
        | some m => dataLengthsOk r m
        | none => true)

/-! ### Roles of slots (check 7) -/

/-- The algorithm that a DUKPT working key needs of its BDK (R215). -/
def wkStrength (a : Nat) : Nat := nth 0 [1, 2, 3, 0, 1] a
def algStrength (a : Nat) : Nat := nth 0 [0, 0, 1, 1, 2, 3] a

/-- Combinations of a key's algorithm with the parameters that the chapters forbid: `false` when forbidden. -/
def Req.comboOk (r : Req) (a b : Option WorkKey) : Bool :=
  let alg := (a.map (·.alg)).getD 0
  match r.pat with
  | 0x0202 | 0x020A => a.isNone || !isTdes alg || r.p 2 ≤ 8
  | 0x0300 => a.isNone || isTdes alg || r.p 0 ≠ 1
  | 0x0400 => a.isNone || wkStrength (r.p 0x0F) ≤ algStrength alg
  | 0x0401 => a.isNone || wkStrength (r.p 2) ≤ algStrength alg
  | 0x0402 => a.isNone || wkStrength (r.p 1) ≤ algStrength alg
  | 0x0602 | 0x060A =>
    match a, b with
    | some x, some y => x.alg = y.alg
    | _, _ => true
  | _ => true
where isTdes (n : Nat) : Bool := n = 1 || n = 2

/-- The hash that an HMAC slot's binding must name (R286, R614): 0 for any. -/
def Req.hashNeed (r : Req) : Option Nat :=
  match r.pat with
  | 0x0801 | 0x0809 => some (r.p 1)
  | 0x0810 => if r.p 0 = 4 then none else some (r.p 0 + 1)
  | 0x0811 => some (r.p 0 + 1)
  | _ => none

/-- A slot key fits a role (check 7). -/
def KeyRole.fits (o : KeyRole) (r : Req) (k : WorkKey) : Bool :=
  Machine.bit k.attr o.usageBit && (o.algs.contains k.alg) && !(o.exporting && Machine.bit k.attr 30) &&
    (match r.hashNeed with
      | some h => k.alg ≠ 6 || k.hash = 0 || k.hash = h || o.usageBit = 13
      | none => true)

end Sys2Proof.Machine
end

