-- ==== Sys2Proof/Machine/KeyBlock.lean ====
section
/-!
DEFINITION. ANSI X9.143 key blocks, versions B and D: unwrapping with the checks of R226, building under R228, export
policy of R229. Field places and derivation data are the standard's (log entry 14).
-/
namespace Sys2Proof.Machine

def chr (s : String) : Byte := nth 0 (ascii s) 0

def hexDigit (b : Byte) : Option Nat :=
  let n := b.toNat
  if 0x30 ≤ n && n ≤ 0x39 then some (n - 0x30) else if 0x41 ≤ n && n ≤ 0x46 then some (n - 0x37) else none

/-- The number that hexadecimal characters spell. -/
def hexNum (m : Bytes) : Option Nat :=
  m.foldl (fun a b => match a, hexDigit b with | some x, some d => some (16 * x + d) | _, _ => none) (some 0)

def decNum (m : Bytes) : Option Nat :=
  m.foldl (fun a b => match a, hexDigit b with
    | some x, some d => if d ≤ 9 then some (10 * x + d) else none
    | _, _ => none) (some 0)

def unhexGo : Bytes → Option Bytes
  | [] => some []
  | [_] => none
  | a :: b :: t =>
    match hexDigit a, hexDigit b, unhexGo t with
    | some x, some y, some r => some (BitVec.ofNat 8 (16 * x + y) :: r)
    | _, _, _ => none

def hexChar (n : Nat) : Byte := BitVec.ofNat 8 (if n < 10 then 0x30 + n else 0x37 + n)
def hexOf (m : Bytes) : Bytes := m.flatMap fun b => [hexChar (b.toNat / 16), hexChar (b.toNat % 16)]

def decOf (n v : Nat) : Bytes := (strRadix 10 n v).map fun d => BitVec.ofNat 8 (0x30 + d)

/-- The policy part of a header that a key keeps: usage, mode, algorithm, first character of the key version,
exportability, and the hash that an `HM` block names. -/
structure Hdr where
  len : Nat := 0
  ver : Byte := 0
  total : Nat := 0
  usage : Bytes := []
  alg : Byte := 0
  mode : Byte := 0
  kv : Byte := 0
  exp : Byte := 0
  hm : Option Nat := none
  deriving DecidableEq, Repr

/-- The optional blocks from offset `o`: how many header bytes there are and what `HM` names; `none` when the
structure fails. -/
def optBlocks (b : Bytes) : Nat → Nat → Option Nat → Option (Nat × Option Nat)
  | 0, o, hm => some (o, hm)
  | n + 1, o, hm =>
    let short := hexNum (slice b (o + 2) 2)
    let ln := match short with
      | some 0 =>
        match hexNum (slice b (o + 4) 2) with
        | some w => hexNum (slice b (o + 6) (2 * w))
        | none => none
      | x => x
    match ln with
    | some l =>
      if l < 4 || b.length < o + l then none
      else
        let h := if slice b o 2 == ascii "HM" then hexNum (slice b (o + 4) 2) else hm
        optBlocks b n (o + l) h
    | none => none

/-- The header at the front of `b` (check 3 of R226): `none` when it is malformed. -/
def parseHdr (b : Bytes) : Option Hdr :=
  match decNum (slice b 12 2), optBlocks b ((decNum (slice b 12 2)).getD 0) 16 none with
  | some _, some (n, hm) =>
    if n ≤ 80 && n ≤ b.length && (b.take n).all (fun x => 0x20 ≤ x.toNat && x.toNat ≤ 0x7E) then
      some { len := n, ver := nth 0 b 0, total := (decNum (slice b 1 4)).getD 0, usage := slice b 5 2, alg := nth 0 b 7
             mode := nth 0 b 8, kv := nth 0 b 9, exp := nth 0 b 11, hm }
    else none
  | _, _ => none

/-- Encryption (`mac` false) or MAC key of a key block by the CMAC derivation of the standard. -/
def kbDerive (kek : WorkKey) (mac : Bool) : Bytes :=
  let code := nth 0 [0, 0, 1, 2, 3, 4] kek.alg
  let n := nth 16 [16, 16, 24, 16, 24, 32] kek.alg
  let b := blockLen kek.alg
  ((List.range ((n + b - 1) / b)).flatMap fun i =>
    cmac kek.alg kek.material (le 1 (i + 1) ++ be 2 (b2n mac) ++ [0] ++ be 2 code ++ be 2 (8 * n))).take n

/-- The working key that a block or header describes. -/
def Hdr.key (h : Hdr) (material : Bytes) : WorkKey :=
  let n := material.length
  { alg := if h.alg == chr "T" then (if n = 16 then 1 else 2)
      else if h.alg == chr "A" then (if n = 16 then 3 else if n = 24 then 4 else 5) else 6
    hash := 0, material
    usage := h.usage ++ [h.mode, h.alg, h.kv, h.exp, BitVec.ofNat 8 (h.hm.getD 0)] }

/-- Key lengths that check 5 accepts for an algorithm letter. -/
def kbLenOk (alg : Byte) (bits : Nat) : Bool :=
  if alg == chr "T" then bits = 128 || bits = 192
  else if alg == chr "A" then bits = 128 || bits = 192 || bits = 256
  else if alg == chr "H" then 64 ≤ bits && bits ≤ 512 && bits % 8 = 0 else false

/-- Checks 1 to 5 of R226 on the block at input offset `o`: the first that fails, or the key. -/
def kbOpen (kek : WorkKey) (inp : Bytes) (inLen o : Nat) : Nat × WorkKey :=
  let tdes := isTdes kek.alg
  let ver := nth 0 inp o
  let unit := if tdes then 8 else 16
  match decNum (slice inp (o + 1) 4) with
  | none => (if ver == chr (if tdes then "B" else "D") then 2 else 1, {})
  | some total =>
    let blk := slice inp o total
    if !(ver == chr (if tdes then "B" else "D")) then (1, {})
    else if 256 < total || total % unit ≠ 0 || inLen < o + total || total < 16 then (2, {})
    else match parseHdr blk with
      | none => (3, {})
      | some h =>
        let body := total - h.len
        match unhexGo (slice blk h.len (body - 2 * unit)), unhexGo (slice blk (total - 2 * unit) (2 * unit)) with
        | some ct, some mac =>
          if body < 4 * unit || ct.length % unit ≠ 0 then (4, {}) else
          let pt := cbcDec (cipher false kek.alg (kbDerive kek false)) unit mac ct
          let bits := beAt pt 0 2
          if !(cmac kek.alg (kbDerive kek true) (blk.take h.len ++ pt) == mac) then (4, {})
          else if !(kbLenOk h.alg bits && bits / 8 + 2 ≤ pt.length) then (5, {})
          else (0, h.key (slice pt 2 (bits / 8)))
        | _, _ => (4, {})

/-! ### Policy of an unwrapped key -/

def WorkKey.kbUsage (k : WorkKey) : Bytes := k.usage.take 2
def WorkKey.kbMode (k : WorkKey) : Byte := nth 0 k.usage 2
def WorkKey.kbAlg (k : WorkKey) : Byte := nth 0 k.usage 3
def WorkKey.kbKv (k : WorkKey) : Byte := nth 0 k.usage 4
def WorkKey.kbExp (k : WorkKey) : Byte := nth 0 k.usage 5
def WorkKey.kbHm (k : WorkKey) : Nat := byteAt k.usage 6

/-- The hash that an `HM` value names (R226 check 9). -/
def hmHash (v : Nat) : Nat :=
  match v with
  | 0x21 => 2 | 0x22 => 3 | 0x23 => 4 | 0x31 => 6 | 0x32 => 7 | 0x33 => 8 | _ => 0

/-- Checks 6 to 9 of R226 for a role: 0 when all pass. -/
def kbPolicy (r : Req) (o : KeyRole) (k : WorkKey) : Nat :=
  if k.kbKv == chr "c" then 6
  else if o.inspect then 0
  else if o.exporting then
    (if k.kbExp == chr "S" || (r.pat ≠ 0x0520 && k.kbExp == chr "E") then 0 else 8)
  else if !(k.kbUsage == ascii o.usage && (ascii o.modes).contains k.kbMode && o.algs.contains k.alg) then 7
  else match r.hashNeed with
    | some h => if k.alg = 6 && hmHash k.kbHm ≠ h then 9 else 0
    | none => 0

/-- The key of reference `i` (1 KEY_A) at a block: status and DETAIL on failure (R222). -/
def kbResolve (kek : WorkKey) (r : Req) (o : KeyRole) (i x : Nat) : Option (Status × Nat) × WorkKey :=
  let (f, k) := kbOpen kek r.inp r.inLen (refOff x)
  let pay := r.pat < 0x0500
  let d := fun c => if pay then 0 else 4096 * i + c
  if f ≠ 0 then (some (.keyblockInvalid, d f), k)
  else
    let p := kbPolicy r o k
    let k := { k with slot := some (refSlot x) }
    if p ≠ 0 then (some (.keyblockRefused, d p), k)
    else if !(r.comboOk (if i = 1 then some k else none) none) then (some (.keyblockRefused, d 7), k)
    else (none, k)

/-! ### Building (R228, R229) -/

/-- The header in the header area, against the key that it will carry and its wrap key: `none` when R228 rejects. -/
def headerFor (area : Bytes) (n : Nat) (wrap : WorkKey) (keyLen : Nat) : Option Hdr :=
  match parseHdr (area.take n) with
  | none => none
  | some h =>
    if h.len = n && h.ver == chr (if isTdes wrap.alg then "B" else "D") && kbLenOk h.alg (8 * keyLen) &&
        !(h.kv == chr "c") then some h else none

/-- Length of the block that header length `n` and a key of `m` bytes make. -/
def kbTotal (wrap : WorkKey) (n m : Nat) : Nat :=
  let u := if isTdes wrap.alg then 8 else 16
  n + 2 * ((m + 2 + u - 1) / u * u) + 2 * u

/-- The key block, or none when R228 refuses it; `rnd` fills the padding. -/
def kbBuild (area : Bytes) (n : Nat) (wrap : WorkKey) (key rnd : Bytes) : Option Bytes :=
  match headerFor area n wrap key.length with
  | none => none
  | some _ =>
    let u := if isTdes wrap.alg then 8 else 16
    let total := kbTotal wrap n key.length
    if 256 < total || total % u ≠ 0 then none
    else
      let hdr := area.take 1 ++ decOf 4 total ++ slice area 5 (n - 5)
      let field := be 2 (8 * key.length) ++ key
      let pt := field ++ rnd.take ((u - field.length % u) % u)
      let mac := cmac wrap.alg (kbDerive wrap true) (hdr ++ pt)
      some (hdr ++ hexOf (cbcEnc (cipher true wrap.alg (kbDerive wrap false)) u mac pt) ++ hexOf mac)

/-- Modes of use that a mode includes. -/
def modeIncludes (src out : Byte) : Bool :=
  src == out ||
    (src == chr "B" && (out == chr "E" || out == chr "D")) || (src == chr "C" && (out == chr "G" || out == chr "V"))

/-- Strength of an exportability: N 3, E 2, S 1. -/
def expRank (e : Byte) : Nat := if e == chr "N" then 3 else if e == chr "E" then 2 else if e == chr "S" then 1 else 0

/-- Slot usage bits that a key-block usage and mode stand for, so that an export of a slot does not widen them. -/
def slotAllows (attr : Word) (alg : Nat) (u : Bytes) (m : Byte) : Bool :=
  let has := fun (e d : Nat) =>
    (m == chr "E" && bit attr e) || (m == chr "D" && bit attr d) || (m == chr "B" && bit attr e && bit attr d)
  let gen := fun (g v : Nat) =>
    (m == chr "G" && bit attr g) || (m == chr "V" && bit attr v) || (m == chr "C" && bit attr g && bit attr v)
  let x := fun (b : Nat) => m == chr "X" && bit attr b
  if u == ascii "P0" then has 0 1
  else if u == ascii "V1" then gen 3 2
  else if u == ascii "M1" || u == ascii "M3" || u == ascii "M6" then gen 4 5
  else if u == ascii "C0" then gen 6 7 || x 8
  else if u == ascii "E0" then x 9
  else if u == ascii "E1" then x 11
  else if u == ascii "E2" then x 10
  else if u == ascii "B0" then x 12
  else if u == ascii "K1" then has 13 14
  else if u == ascii "K0" then has 15 16
  else if u == ascii "D0" then has 17 18
  else if u == ascii "M7" then alg = 6 && gen 19 20
  else false

/-- Letter of an algorithm code. -/
def algLetter (a : Nat) : Byte := if isTdes a then chr "T" else if a = 6 then chr "H" else chr "A"

/-- R229 for an export of `k` under header `h`: 0, or the number of the failing check. `toBlock`: the exportability of
the header is checked (not for TR-34 with a slot source, R231). -/
def exportCheck (k : WorkKey) (h : Hdr) (toBlock : Bool) : Nat :=
  if k.usage.isEmpty then
    if !(h.alg == algLetter k.alg && slotAllows k.attr k.alg h.usage h.mode) then 7
    else if !(if toBlock then h.exp == chr "E" || h.exp == chr "N" else 1 ≤ expRank h.exp) then 8 else 0
  else
    if !(h.usage == k.kbUsage && h.alg == k.kbAlg && modeIncludes k.kbMode h.mode) then 7
    else if !(1 ≤ expRank h.exp && expRank k.kbExp ≤ expRank h.exp && (expRank k.kbExp = 1 || expRank k.kbExp = 2)) then 8
    else 0

end Sys2Proof.Machine
end

