-- ==== Sys2Proof/Machine/PatPay.lean ====
section
/-!
DEFINITION. What the diagnostic and payment Patterns compute (R174, R188 to R219).
-/
namespace Sys2Proof.Machine

/-- One execution of a step: the state (for free values), the entry and the `FIRST` entry of its job, the keys of KEY_A
and KEY_B, the chain context, the step's index and whether it belongs to a chain. -/
structure Px where
  s : State
  r : Req
  /-- The entry that begins the chain's message: `FIRST`, or the first one behind the derivations that a chain begins with
  (R249). -/
  r0 : Req
  /-- Its index. -/
  lead : Nat
  a : WorkKey
  b : WorkKey
  ctx : ChainCtx
  idx : Nat
  chain : Bool

/-- The step begins a message. -/
def Px.begins (x : Px) : Bool := x.idx = x.lead

/-- `n` bytes drawn for this execution; `k` tells several draws apart. -/
def Px.rnd (x : Px) (k n : Nat) : Bytes := freeBytesAt x.s k n

def Px.fail (x : Px) (st : Status) (detail : Nat) : JobResult := { status := st, detail, ctx := x.ctx }

/-- DONE with a result in RESULT. -/
def Px.res (x : Px) (b : Bytes) : JobResult := { result := padTo 16 b, ctx := x.ctx }

def Px.done (x : Px) : JobResult := { ctx := x.ctx }

/-- DONE with an output, or OUTPUT_SHORT (R180). -/
def Px.out (x : Px) (b : Bytes) : JobResult :=
  if x.r.outCap < b.length then { status := .outputShort, need := b.length, ctx := x.ctx }
  else { output := b, ctx := x.ctx }

/-- A verification (R187, R204). -/
def Px.verify (x : Px) (ok : Bool) (st : Status) : JobResult := if ok then x.done else x.fail st 0

/-! ### Diagnostic Patterns (R174) -/

def patEcho (x : Px) : JobResult :=
  if x.r.inHost then x.out (slice x.r.inp 0 x.r.inLen) else x.res (slice x.r.par 0 16)

def patNull (x : Px) : JobResult := x.res []

/-- RESULT of TICK_STAMP in the slots of booking `bk` on global lane `lane`. -/
def patTickStamp (x : Px) (bk : Booking) (lane : Nat) : JobResult :=
  x.res (le 7 (tick x.s) ++ le 1 bk.first ++ le 2 lane)

/-- The function units that a lane's half enables (`UNIT_MASK`). -/
def unitMask (s : State) (lane : Nat) : Nat := ((halfCfg s (if lane < 40 then .cope else .drag)).map (·.unitMask)).getD 0

/-- RESULT of LANE_CHECK when the units `unitsOk` pass. -/
def patLaneCheck (unitsOk : Byte) (x : Px) (_ : Booking) (lane : Nat) : JobResult :=
  x.res (le 2 lane ++ le 1 (unitsOk.toNat &&& unitMask x.s lane))

/-! ### PIN blocks (R188) -/

def packNibs : List Nat → Bytes
  | [] => []
  | [a] => [BitVec.ofNat 8 (16 * a)]
  | a :: b :: t => BitVec.ofNat 8 (16 * a + b) :: packNibs t

def toNibs (b : Bytes) : List Nat := b.flatMap fun x => [x.toNat / 16, x.toNat % 16]

/-- Nibbles padded with `d` to `n`. -/
def fillTo (n d : Nat) (l : List Nat) : List Nat := (l ++ List.replicate n d).take n

/-- The PAN block of formats 0 and 3. -/
def panBlock (pan : List Nat) : Bytes :=
  let d := List.replicate 12 0 ++ pan.dropLast
  packNibs (List.replicate 4 0 ++ d.drop (d.length - 12))

/-- The PAN field of format 4. -/
def pan4 (pan : List Nat) : Bytes := packNibs (fillTo 32 0 ((pan.length - 12) :: pan))

/-- The PIN of a clear field of 8 bytes, when its checks pass. -/
def pinParse (fmt : Nat) (p : Bytes) : Option (List Nat) :=
  let n := toNibs p
  let len := nth 0 n 1
  let pin := (n.drop 2).take len
  let fill := (n.drop (2 + len)).take (14 - len)
  let ok := nth 0 n 0 = fmt && 4 ≤ len && len ≤ 12 && pin.all (· ≤ 9) &&
    (match fmt with
      | 0 => fill.all (· = 15)
      | 3 => fill.all (10 ≤ ·)
      | 4 => fill.all (· = 10)
      | _ => true)
  if ok then some pin else none

def pinDecode (fmt alg : Nat) (key blk : Bytes) (pan : List Nat) : Option (List Nat) :=
  if fmt = 4 then
    let p := aes false key (xorBytes (aes false key (slice blk 0 16)) (pan4 pan))
    pinParse 4 (p.take 8)
  else
    let p := cipher false alg key (slice blk 0 8)
    pinParse fmt (if fmt = 1 then p else xorBytes p (panBlock pan))

/-- The enciphered block in `fmt`; `rnd` supplies the fill. -/
def pinEncode (fmt alg : Nat) (key : Bytes) (pin pan : List Nat) (rnd : Bytes) : Bytes :=
  let n := pin.length
  let head := fmt :: n :: pin
  if fmt = 4 then
    let p := packNibs (fillTo 16 10 head) ++ padTo 8 rnd
    aes true key (xorBytes (aes true key p) (pan4 pan))
  else
    let fill : List Nat := (List.range (14 - n)).map fun i =>
      if fmt = 0 then 15 else if fmt = 1 then byteAt rnd i % 16 else 10 + byteAt rnd i % 6
    let p := packNibs (head ++ fill)
    cipher true alg key (if fmt = 1 then p else xorBytes p (panBlock pan))

/-- A PIN within the lengths accepted. -/
def pinOk (pin : Option (List Nat)) (mn mx : Nat) : Option (List Nat) :=
  match pin with
  | some p => if mn ≤ p.length && p.length ≤ mx then some p else none
  | none => none

/-- Translation (R191) of `blk` from format `i` under key `ka` into `o` under `kb`. -/
def translate (x : Px) (ka kb : WorkKey) (i o mn mx : Nat) (blk : Bytes) (pan : List Nat) : JobResult :=
  match pinOk (pinDecode i ka.alg ka.material blk pan) mn mx with
  | none => x.fail .badInput 1
  | some pin => x.res (pinEncode o kb.alg kb.material pin pan (x.rnd 0 16))

def patPinXlate (x : Px) : JobResult :=
  let b := x.r.blk
  translate x x.a x.b (byteAt b 0) (byteAt b 1) (byteAt b 2) (byteAt b 3) (slice b 0x10 16) (panDigits b 4)

/-! ### The offset method (R192 to R197) -/

/-- Natural PIN of `n` digits (R195). -/
def naturalPin (x : Px) (n : Nat) : List Nat :=
  let len := blockLen x.b.alg
  let v := cipher true x.b.alg x.b.material (slice x.r.inp 0x10 len)
  ((toNibs v).take n).map fun h => nib x.r.par 0x10 h

/-- VALIDATION bytes beyond a TDES block must be zero once the key is known (R193). -/
def validationOk (x : Px) : Bool := !isTdes x.b.alg || x.r.iz 0x18 8

def offsetPin (x : Px) : Option (List Nat) :=
  pinOk (pinDecode (x.r.p 0) x.a.alg x.a.material (slice x.r.inp 0 16) (panDigits x.r.par 4)) (x.r.p 2) (x.r.p 3)

def offsetOf (n : Nat) (pin nat : List Nat) : Bytes :=
  packNibs (fillTo 16 15 ((List.range n).map fun i => (nth 0 pin i + 10 - nth 0 nat i) % 10))

def patPinVerifyOffset (x : Px) : JobResult :=
  let n := x.r.p 1
  if !validationOk x then x.fail .badInput 0
  else match offsetPin x with
    | none => x.fail .verifyFail 0
    | some pin =>
      let nat := naturalPin x n
      x.verify (n ≤ pin.length && (List.range n).all fun i =>
        nth 0 pin i = (nth 0 nat i + nib x.r.inp 0x20 i) % 10) .verifyFail

def patPinOffsetCalc (x : Px) : JobResult :=
  let n := x.r.p 1
  if !validationOk x then x.fail .badInput 0
  else match offsetPin x with
    | none => x.fail .badInput 1
    | some pin => if pin.length < n then x.fail .badInput 1 else x.res ((offsetOf n pin (naturalPin x n)).take 6)

def patPinGenerate (x : Px) : JobResult :=
  let n := x.r.p 1
  if !validationOk x then x.fail .badInput 0
  else
    let pin := (x.rnd 1 (x.r.p 2)).map fun b => b.toNat % 10
    let blk := pinEncode (x.r.p 0) x.a.alg x.a.material pin (panDigits x.r.par 4) (x.rnd 0 16)
    x.out (padTo 16 blk ++ offsetOf n pin (naturalPin x n))

/-! ### MACs (R198 to R200) -/

/-- Generation returns the MAC in RESULT; verification compares it with the field at parameter offset 8. -/
def macResult (x : Px) (op n : Nat) (m : Bytes) : JobResult :=
  let mac := m.take n
  if op = 0 then x.res mac else x.verify (mac == slice x.r.par 8 n) .tagMismatch

def patMac1 (x : Px) : JobResult :=
  macResult x (x.r.p 0) (x.r.p 2) (macAlg1 x.a.material (x.r.p 1) (slice x.r.inp 0 (x.r.p2 4)))

def patMac3 (x : Px) : JobResult :=
  macResult x (x.r.p 0) (x.r.p 2) (macAlg3 x.a.material (x.r.p 1) (slice x.r.inp 0 (x.r.p2 4)))

def patMacCmac (x : Px) : JobResult :=
  macResult x (x.r.p 0) (x.r.p 2) (cmac x.a.alg x.a.material (slice x.r.inp 0 (x.r.p2 4)))

/-! ### Card verification values (R201 to R204) -/

/-- The value of `n` digits over 32 digits (R202). -/
def cardDigits (key : Bytes) (s : List Nat) (n : Nat) : List Nat :=
  let d := packNibs (fillTo 32 0 s)
  let k1 := slice key 0 8
  let k2 := slice key 8 8
  let x := xorBytes (desE k1 (slice d 0 8)) (slice d 8 8)
  let h := toNibs (desE k1 (desD k2 (desE k1 x)))
  ((h.filter (· ≤ 9)) ++ ((h.filter (10 ≤ ·)).map (· - 10))).take n

def cardResult (x : Px) (b : Bytes) (o : Nat) (d : List Nat) : JobResult :=
  let v := packNibs (fillTo 6 15 d)
  if byteAt b 0 = 0 then x.res v else x.verify (v == slice b o 3) .verifyFail

def patCardValue (x : Px) : JobResult :=
  let b := x.r.blk
  let s := panDigits b 4 ++ nibs b 0x10 4 ++ (nibs b 0x12 4).drop 1
  cardResult x b 0x14 (cardDigits x.a.material s (byteAt b 1))

/-- Option A's digits: the PAN then the PSN (R205). -/
def emvDigits (b : Bytes) (psn : Nat) : List Nat := panDigits b 4 ++ nibs b psn 2

def patCardValueDyn (x : Px) : JobResult :=
  let b := x.r.blk
  let ck := iccMaster x.a.alg x.a.material (emvDigits b 2)
  let pan := List.replicate 19 0 ++ panDigits b 4
  let s := nibs b 0x10 8 ++ strRadix 10 5 (beAt b 0x14 2) ++ pan.drop (pan.length - 19)
  cardResult x b 0x16 (cardDigits ck s (byteAt b 1))

/-! ### EMV (R208 to R212) -/

def emvMk (x : Px) : Bytes := iccMaster x.a.alg x.a.material (emvDigits x.r.par 2)

def emvPadding (x : Px) : Nat := if nbit (x.r.p 1) 1 then 1 else 2

def patArqc (x : Px) : JobResult :=
  let sk := emvSession x.a.alg (emvMk x) (slice x.r.par 0x10 2 ++ zeros 6)
  let ac := emvMac x.a.alg sk (emvPadding x) (slice x.r.inp 0x18 (x.r.p2 0x12))
  let arqc := slice x.r.inp 0 8
  if !(ac == arqc) then x.fail .verifyFail 0
  else match x.r.p 0 with
    | 1 => x.res (tdes true sk (xorBytes arqc (slice x.r.par 0x14 2 ++ zeros 6)))
    | 2 => x.res ((emvMac x.a.alg sk 2 (arqc ++ slice x.r.inp 8 4 ++ slice x.r.inp 16 (x.r.p 3))).take 4)
    | _ => x.done

def scriptKey (x : Px) : Bytes := emvSession x.a.alg (emvMk x) (slice x.r.inp 0 8)

def patScriptMac (x : Px) : JobResult :=
  x.res ((emvMac x.a.alg (scriptKey x) (emvPadding x) (slice x.r.inp 8 (x.r.p2 0x12))).take (x.r.p 3))

/-- Padding method 2 and CBC with a zero initial value under the confidentiality key. -/
def scriptCbc (x : Px) (m : Bytes) : Bytes :=
  let u := blockLen x.a.alg
  cbcEnc (cipher true x.a.alg (scriptKey x)) u (zeros u) (pad 2 u m)

def patScriptEnc (x : Px) : JobResult := x.out (scriptCbc x (slice x.r.inp 8 (x.r.p2 0x12)))

def patScriptPin (x : Px) : JobResult :=
  match pinOk (pinDecode (x.r.p 0) x.b.alg x.b.material (slice x.r.inp 16 16) (panDigits x.r.par 4))
      (x.r.p 0x12) (x.r.p 0x13) with
  | none => x.fail .badInput 1
  | some pin => x.res (scriptCbc x (packNibs (fillTo 16 15 (2 :: pin.length :: pin))))

/-! ### DUKPT (R213 to R219) -/

def dukptAesOk (ksn : Bytes) : Bool := let n := popCount 32 (beAt ksn 8 4); 1 ≤ n && n ≤ 16
def dukptTdesOk (ksn : Bytes) : Bool := let n := popCount 21 (fromBe ksn); 1 ≤ n && n ≤ 10

/-- The working key of an AES DUKPT job. -/
def wkAes (x : Px) (usage wk : Nat) : WorkKey :=
  { alg := nth 3 [3, 4, 5, 1, 2] wk, material := dukptAes x.a.material (slice x.r.inp 0 12) usage wk }

def wkTdes (x : Px) (variant : Nat) : WorkKey :=
  { alg := 1, material := dukptTdes x.a.material (slice x.r.inp 0 10) (be 8 variant ++ be 8 variant) }

def patDukptAesPin (x : Px) : JobResult :=
  if !dukptAesOk (slice x.r.inp 0 12) then x.fail .badInput 2
  else translate x (wkAes x 0x1000 (x.r.p 0x0F)) x.b (x.r.p 0) (x.r.p 1) (x.r.p 2) (x.r.p 3) (slice x.r.inp 16 16)
    (panDigits x.r.par 4)

def patDukptTdesPin (x : Px) : JobResult :=
  if !dukptTdesOk (slice x.r.inp 0 10) then x.fail .badInput 2
  else translate x (wkTdes x 0xFF) x.b (x.r.p 0) (x.r.p 1) (x.r.p 2) (x.r.p 3) (slice x.r.inp 16 16)
    (panDigits x.r.par 4)

def patDukptAesMac (x : Px) : JobResult :=
  if !dukptAesOk (slice x.r.inp 0 12) then x.fail .badInput 2
  else
    let k := wkAes x (beAt x.r.par 6 2) (x.r.p 2)
    macResult x (x.r.p 0) (x.r.p 3) (cmac k.alg k.material (slice x.r.inp 16 (x.r.p2 4)))

def patDukptTdesMac (x : Px) : JobResult :=
  if !dukptTdesOk (slice x.r.inp 0 10) then x.fail .badInput 2
  else
    let k := wkTdes x (if x.r.p 2 = 0 then 0xFF00 else 0xFF000000)
    macResult x (x.r.p 0) (x.r.p 3) (macAlg3 k.material (x.r.p 1) (slice x.r.inp 16 (x.r.p2 4)))

def patDukptAesData (x : Px) : JobResult :=
  if !dukptAesOk (slice x.r.inp 0 12) then x.fail .badInput 2
  else
    let k := wkAes x (beAt x.r.par 2 2) (x.r.p 1)
    let m := slice x.r.inp 32 (x.r.p2 4)
    let iv := slice x.r.inp 16 16
    x.out (if x.r.p 0 = 0 then cbcEnc (aes true k.material) 16 iv m else cbcDec (aes false k.material) 16 iv m)

end Sys2Proof.Machine
end

