-- ==== Sys2Proof/Machine/PatData.lean ====
section
/-!
DEFINITION. What the key-block, data, tokenisation, hash and derivation Patterns compute (R220 to R249, R614).
-/
namespace Sys2Proof.Machine

/-- DONE with an output and a changed chain context, or OUTPUT_SHORT (R180). -/
def Px.outC (x : Px) (b : Bytes) (c : ChainCtx) : JobResult :=
  if x.r.outCap < b.length then { status := .outputShort, need := b.length, ctx := x.ctx } else { output := b, ctx := c }

/-! ### Key blocks (R228 to R230) -/

def headerArea (x : Px) : Bytes := slice x.r.inp 0 80

/-- The check value of a key (R230): 8 bytes. -/
def checkValue (k : WorkKey) : Bytes :=
  if k.alg = 6 then zeros 8
  else if isTdes k.alg then padTo 8 ((tdes true k.material (zeros 8)).take 3)
  else padTo 8 ((cmac k.alg k.material (zeros 16)).take 5)

/-- Build the block of `key` under `wrap` from the header area; `more` receives it. -/
def buildInto (x : Px) (n : Nat) (wrap : WorkKey) (key : Bytes) (draw : Nat) (more : Bytes → JobResult) : JobResult :=
  match kbBuild (headerArea x) n wrap key (x.rnd draw 16) with
  | none => x.fail .badInput 0
  | some b => more b

def patKbExport (x : Px) : JobResult :=
  buildInto x (x.r.p 0) x.b x.a.material 0 fun blk =>
    match headerFor (headerArea x) (x.r.p 0) x.b x.a.material.length with
    | none => x.fail .badInput 0
    | some h => let c := exportCheck x.a h true; if c ≠ 0 then x.fail .keyblockRefused c else x.out blk

/-- The key is drawn from the key-generation DRBG (R223); a TDES key gets odd parity. -/
def patKbGenerate (x : Px) : JobResult :=
  let bits := x.r.p2 2
  let raw := x.rnd 2 (bits / 8)
  match parseHdr ((headerArea x).take (x.r.p 0)) with
  | none => x.fail .badInput 0
  | some h =>
    if !kbLenOk h.alg bits then x.fail .badInput 0 else
    let key := if h.alg == chr "T" then oddParity raw else raw
    buildInto x (x.r.p 0) x.a key 0 fun ba =>
      let head := checkValue (h.key key) ++ ba
      if nth 0 x.r.refs 1 = 0 then x.out head
      else buildInto x (x.r.p 0) x.b key 1 fun bb => x.out (head ++ bb)

def patKbInspect (x : Px) : JobResult :=
  x.res (checkValue x.a ++ le 2 (8 * x.a.material.length) ++ le 1 (if isTdes x.a.alg then 0 else if x.a.alg = 6 then 2 else 1))

/-! ### AES key wrap (R233, R234) -/

def patKwExport (x : Px) : JobResult :=
  let kwp := x.r.p 0 = 1
  let n := x.a.material.length
  if !kwp && (n < 16 || n % 8 ≠ 0) then x.fail .badInput 0 else x.out (kwWrap kwp x.b.material x.a.material)

def patKwImport (x : Px) : JobResult :=
  match kwUnwrap (x.r.p 0 = 1) x.a.material (slice x.r.inp 80 (x.r.p 2)) with
  | none => x.fail .tagMismatch 0
  | some key => buildInto x (x.r.p 1) x.b key 0 fun b => x.out b

/-! ### Data ciphers (R235 to R243) -/

/-- A step agrees with the entry that begins the message of its chain (R242): its `FIRST` entry, or the first one behind the
derivations of a chain that derives a key and enciphers under it (R249). -/
def cipherStepOk (x : Px) : Bool :=
  x.begins || (cipherMode x.r.pat == cipherMode x.r0.pat && [0, 1, 2, 3, 8].all (fun o => x.r.p o == x.r0.p o) &&
    x.r.refs == x.r0.refs && x.r.p2 4 = 0 && allZero (slice x.r.par 12 4))

def cipherData (x : Px) : Bytes :=
  let d := slice x.r.inp (32 + x.r.p2 4) (x.r.p2 6)
  if x.r.p 0 = 0 && x.r.last && x.r.p 2 ≠ 0 then
    pad (if x.r.p 2 = 1 then 2 else 7) (if isTdes x.a.alg then 8 else 16) d
  else d

/-- The last `n` bytes, or `d` when there are fewer. -/
def lastBytes (n : Nat) (d b : Bytes) : Bytes := if b.length < n then d else b.drop (b.length - n)

/-- The initial value, counter block, tweak or nonce of `n` bytes with which a message begins: drawn, or the leftmost of `IV` in
a `FIRST` entry. Behind a derivation `IV` must be zero (R236) and the spec names no other source: a free value, which no output
holds (DESIGN CHOICE, entry 78). -/
def Px.initial (x : Px) (drawn : Bool) (n : Nat) : Bytes :=
  if drawn then x.rnd 0 n else if x.r.first then slice x.r.inp 0 n else x.rnd 2 n

/-- CBC with AES or TDES. -/
def patCbc (x : Px) : JobResult :=
  let u := blockLen x.a.alg
  let drawn := x.r.p 1 = 1
  let iv := if x.begins then x.initial drawn u else x.ctx.run
  let d := cipherData x
  let enc := x.r.p 0 = 0
  let o := if enc then cbcEnc (cipher true x.a.alg x.a.material) u iv d else cbcDec (cipher false x.a.alg x.a.material) u iv d
  let run := lastBytes u iv (if enc then o else d)
  x.outC ((if x.r.first && drawn then iv else []) ++ o) { x.ctx with run }

/-- The context holds the counter block, and 1 once its counter has wrapped behind the last block (R237). -/
def patCtr (x : Px) : JobResult :=
  let drawn := x.r.p 1 = 1
  let c := if x.begins then (if drawn then x.rnd 0 12 ++ be 4 1 else x.initial false 16) else x.ctx.run
  let d := cipherData x
  let wrapped := !x.begins && nth 0 x.ctx.lens 0 = 1
  if ctrWraps c d.length || (wrapped && !d.isEmpty) then x.fail .badInput 0
  else x.outC ((if x.r.first && drawn then c else []) ++ ctr32 (aes true x.a.material) c d)
    { x.ctx with run := inc32 c (d.length / 16), lens := [b2n (wrapped || 2 ^ 32 = beAt c 12 4 + (d.length + 15) / 16)] }

def patXts (x : Px) : JobResult :=
  if x.a.material.length ≠ x.b.material.length || x.a.material == x.b.material then x.fail .badInput 0
  else
    let t := if x.begins then aes true x.b.material (x.initial false 16) else x.ctx.run
    let d := cipherData x
    let enc := x.r.p 0 = 0
    x.outC (xts enc (aes enc x.a.material) t d) { x.ctx with run := xtsPow (d.length / 16) t }

def patTdesEcb (x : Px) : JobResult :=
  let enc := x.r.p 0 = 0
  x.outC (ecb (cipher enc x.a.alg x.a.material) 8 (cipherData x)) x.ctx

/-- Keystream of the release key over a message that begins at byte `done` (R241). -/
def releaseStream (key : Bytes) (done : Nat) (m : Bytes) : Bytes := ctr (aes true key) (be 16 (done / 16)) m

/-- The end of an authenticated decipher or encipher step: `pt` or `ct` is `o`, the computed tag `tag`, the new context
`c`, the release key `rel`, the bytes before this step `before`. -/
def aeadEnd (x : Px) (nonce o tag rel : Bytes) (before : Nat) (c : ChainCtx) : JobResult :=
  let tl := x.r.p 3
  if x.r.p 0 = 0 then
    x.outC ((if x.r.first then nonce else []) ++ o ++ (if x.r.last then tag.take tl else [])) c
  else if !x.chain then
    if tag.take tl == slice x.r.inp 16 tl then x.outC o c else x.fail .tagMismatch 0
  else
    let m := releaseStream rel before o
    if !x.r.last then x.outC m c
    else if tag.take tl == slice x.r.inp 16 tl then { x.outC m c with result := if x.r.outCap < m.length then [] else rel }
    else x.fail .tagMismatch 0

/-- GCM: the context holds J0, the GHASH accumulator and the release key, and the lengths of the additional data and of
the data so far. -/
def patGcm (x : Px) : JobResult :=
  let f := aes true x.a.material
  let h := fromBe (f (zeros 16))
  let first := x.begins
  let nonce := x.initial (x.r.p 1 = 1) 12
  let j0 := if first then nonce ++ be 4 1 else slice x.ctx.run 0 16
  let rel := if first then x.rnd 1 16 else slice x.ctx.run 32 16
  let aad := slice x.r.inp 32 (x.r.p2 4)
  let y0 := if first then ghash h 0 aad else beAt x.ctx.run 16 16
  let aadLen := if first then aad.length else nth 0 x.ctx.lens 0
  let before := if first then 0 else nth 0 x.ctx.lens 1
  let d := cipherData x
  let c := inc32 j0 (1 + before / 16)
  if ctrWraps c d.length then x.fail .badInput 0
  else
    let o := ctr32 f c d
    let y := ghash h y0 (if x.r.p 0 = 0 then o else d)
    let total := before + d.length
    let tag := xorBytes (be 16 (ghash h y (be 8 (8 * aadLen) ++ be 8 (8 * total)))) (f j0)
    aeadEnd x nonce o tag rel before { x.ctx with run := j0 ++ be 16 y ++ rel, lens := [aadLen, total] }

/-- CCM: the context holds the CBC-MAC value, the nonce and the release key, and the data bytes so far. -/
def patCcm (x : Px) : JobResult :=
  let f := aes true x.a.material
  let first := x.begins
  let nl := x.r.p 8
  let nonce := if first then x.initial (x.r.p 1 = 1) nl else slice x.ctx.run 16 nl
  let rel := if first then x.rnd 1 16 else slice x.ctx.run 31 16
  let total := leAt x.r0.par 12 4
  let before := if first then 0 else nth 0 x.ctx.lens 0
  let d := cipherData x
  let sum := before + d.length
  if total < sum || (x.r.last && sum ≠ total) || 2 ^ (8 * (15 - nl)) ≤ total then x.fail .badInput 0
  else
    let x0 := if first then ccmStart f nonce (slice x.r.inp 32 (x.r.p2 4)) (x.r.p 3) total else slice x.ctx.run 0 16
    let o := ccmCrypt f nonce (1 + before / 16) d
    let y := cbcMac f x0 (if x.r.p 0 = 0 then d else o)
    let tag := xorBytes y (f (ccmCtr nonce 0))
    aeadEnd x nonce o tag rel before { x.ctx with run := y ++ padTo 15 nonce ++ rel, lens := [sum] }

/-- A data-cipher step after the check of R242. -/
def cipherStep (f : Px → JobResult) (x : Px) : JobResult := if cipherStepOk x then f x else x.fail .badInput 0

/-! ### FF1 (R244, R245) -/

def ff1Run (x : Px) (tweak nums : Bytes) : Bytes :=
  (ff1 (x.r.p 0 = 0) x.a.material (tweak.take (x.r.p 3)) (x.r.p 1) ((nums.take (x.r.p 2)).map (·.toNat))).map
    fun d => BitVec.ofNat 8 d

def patFf1 (x : Px) : JobResult := x.res (ff1Run x (slice x.r.par 8 8) (slice x.r.par 16 16))

def patFf1Long (x : Px) : JobResult := x.out (ff1Run x (slice x.r.inp 0 32) (slice x.r.inp 32 64))

/-! ### Hashes and HMAC (R246, R247); the context accumulates the message -/

def patHash (x : Px) : JobResult :=
  let m := (if x.begins then [] else x.ctx.run) ++ slice x.r.inp 0 (x.r.p2 2)
  if !(x.begins || (x.r.pat / 16 = x.r0.pat / 16 && x.r.pat % 8 = x.r0.pat % 8 && x.r.p 0 = x.r0.p 0)) then
    x.fail .badInput 0
  else if x.r.last then x.out (digest (x.r.p 0) m) else { ctx := { x.ctx with run := m } }

def patHmac (x : Px) : JobResult :=
  let m := (if x.begins then [] else x.ctx.run) ++ slice x.r.inp 64 (x.r.p2 2)
  let n := x.r.p 4
  if !(x.begins || (x.r.pat % 8 = x.r0.pat % 8 && [0, 1, 4].all fun o => x.r.p o = x.r0.p o)) then x.fail .badInput 0
  else if !x.r.last then { ctx := { x.ctx with run := m } }
  else
    let t := (hmac (x.r.p 1) x.a.material m).take n
    if x.r.p 0 = 0 then x.out t else x.verify (t == slice x.r.inp 0 n) .tagMismatch

/-! ### Key derivation (R248, R249, R614) -/

/-- Algorithm code, letter and length of a `KEY_ALG`. -/
def kdfAlg (n : Nat) : Nat := nth 6 [3, 4, 5, 1, 2] n
def kdfLen (n : Nat) : Nat := nth 0 [16, 24, 32, 16, 24, 32, 48, 64] n

def kdfEnd (x : Px) (key : Bytes) : JobResult :=
  let a := kdfAlg (x.r.p 2)
  let dest := x.r.p 1
  if dest = 0 then
    match headerFor (headerArea x) (x.r.p 4) x.b key.length with
    | none => x.fail .badInput 0
    | some h => if h.alg == algLetter a then buildInto x (x.r.p 4) x.b key 0 fun b => x.out b else x.fail .badInput 0
  else
    let k : WorkKey := { alg := a, attr := BitVec.ofNat 32 (x.r.p 3), material := key }
    { ctx := { x.ctx with keys := setNth x.ctx.keys (dest - 1) (some k) } }

def patKdf108 (x : Px) : JobResult :=
  let n := kdfLen (x.r.p 2)
  let prf := fun m => if x.r.p 0 = 4 then cmac x.a.alg x.a.material m else hmac (x.r.p 0 + 1) x.a.material m
  let fixed := slice x.r.inp 0x50 (x.r.p 5) ++ [0] ++ slice x.r.inp 0x90 (x.r.p 6) ++ be 4 (8 * n)
  kdfEnd x (padTo n (kdfCounter prf fixed n 64 1))

def patKdfX963 (x : Px) : JobResult :=
  kdfEnd x (x963 (x.r.p 0 + 1) x.a.material (slice x.r.inp 0x90 (x.r.p 6)) (kdfLen (x.r.p 2)))

end Sys2Proof.Machine
end

