-- ==== Sys2Proof/Machine/PatPk.lean ====
section
/-!
DEFINITION. What the Cupola operations check at intake and compute (R250 to R263), and the lane part and the hand-off
of TR34_ENVELOPE (R231, R232).
-/
namespace Sys2Proof.Machine

/-- One operation: its entry, the keys of KEY_A and KEY_B, the free value that its intake drew (R259). -/
structure Cx where
  r : Req
  a : WorkKey
  b : WorkKey
  draw : Nat
  /-- The free value that the lane part drew (R232). -/
  lane : Nat

/-- Draw `k` of the operation. -/
def Cx.rnd (x : Cx) (k n : Nat) : Bytes := tabulate n fun i => Config.freeByte x.draw (65536 * k + i)

/-- Draw `k` of the lane part. -/
def Cx.laneRnd (x : Cx) (k n : Nat) : Bytes := tabulate n fun i => Config.freeByte x.lane (65536 * k + i)

/-! ### Lengths (R254, R255, R258) -/

def rsaLen (set : Nat) : Nat := nth 0 [0, 256, 384, 512] set

/-- Envelope length for `m` bytes of private material. -/
def envLen (m : Nat) : Nat := 8 * ((16 + m + 7) / 8) + 8

def setLen (r : Req) : Nat := ecLen (r.p 0)

/-- Length of a key-block output. -/
def kbOutLen (r : Req) (b : WorkKey) : Nat := kbTotal b (r.p 3) (kdfLen (r.p 7))

/-! ### TR-34 (R231, R232) -/

def derLen (n : Nat) : Bytes :=
  if n < 128 then le 1 n else if n < 256 then 0x81 :: le 1 n else 0x82 :: be 2 n

def der (tag : Byte) (c : Bytes) : Bytes := tag :: derLen c.length ++ c

def oidPkcs (a b : Byte) : Bytes := [0x06, 0x09, 0x2A, 0x86, 0x48, 0x86, 0xF7, 0x0D, 0x01, a, b]
def oidNist (a b : Byte) : Bytes := [0x06, 0x09, 0x60, 0x86, 0x48, 0x01, 0x65, 0x03, 0x04, a, b]

def derSha256 : Bytes := der 0x30 (oidNist 2 1 ++ [0x05, 0x00])

/-- CMS EnvelopedData with one key-transport recipient (entry 14). -/
def envelopedData (rid encKey iv ct : Bytes) : Bytes :=
  let oaep := der 0x30 (oidPkcs 1 7 ++ der 0x30 (der 0xA0 derSha256 ++ der 0xA1 (der 0x30 (oidPkcs 1 8 ++ derSha256))))
  let recip := der 0x30 ([0x02, 0x01, 0x00] ++ rid ++ oaep ++ der 0x04 encKey)
  let content := der 0x30 (oidPkcs 7 1 ++ der 0x30 (oidNist 1 2 ++ der 0x04 iv) ++ der 0x80 ct)
  der 0x30 ([0x02, 0x01, 0x00] ++ der 0x31 recip ++ content)

def tr34Modulus (r : Req) : Bytes := slice r.inp 0x50 256

/-- Output of TR34_ENVELOPE. -/
def tr34Out (x : Cx) : Bytes :=
  let ck := x.laneRnd 0 16
  let iv := x.laneRnd 1 16
  let key := x.a.material
  let m := x.r.inp.take (x.r.p 0) ++ be 2 (8 * key.length) ++ key
  let ct := cbcEnc (aes true ck) 16 iv (pad 7 16 m)
  let em := oaepEncode 2 256 ck (x.laneRnd 2 32)
  let enc := be 256 (modPow 17 (fromBe em) 65537 (fromBe (tr34Modulus x.r)))
  let ed := envelopedData (slice x.r.inp 0x150 (x.r.p 1)) enc iv ct
  digest 2 ed ++ ed

/-- The lane part of TR34_ENVELOPE: what ends the job before the hand-off. -/
def tr34Lane (r : Req) (a : WorkKey) : Option (Status × Nat) :=
  match parseHdr (r.inp.take (r.p 0)) with
  | none => some (.badInput, 0)
  | some h =>
    if h.len ≠ r.p 0 || h.kv == chr "c" || !kbLenOk h.alg (8 * a.material.length) then some (.badInput, 0)
    else
      let c := exportCheck a h false
      if c ≠ 0 then some (.keyblockRefused, c) else none

/-! ### Output length and ticks -/

/-- Bytes that the output buffer receives; `none` for an operation without one. -/
def cupOutLen (x : Cx) : Option Nat :=
  let r := x.r
  let l := setLen r
  let k := rsaLen (r.p 0)
  match r.pat with
  | 0x0900 => some (2 * l)
  | 0x0902 => some (1 + 2 * l + envLen l)
  | 0x0903 | 0x0931 => some (kbOutLen r x.b)
  | 0x0910 => some k
  | 0x0911 => if r.p 1 = 0 then some k else none
  | 0x0912 => some (k + 4 + envLen (5 * (k / 2)))
  | 0x0920 => some 4627
  | 0x0922 => some (2592 + envLen 32)
  | 0x0930 => some (1568 + kbOutLen r x.b)
  | 0x0932 => some (1568 + envLen 64)
  | 0x0510 => some (tr34Out x).length
  | _ => none

/-- Context, message and form of an ML-DSA operation whose message fields begin at `o`. -/
def mldsaCtx (r : Req) (o : Nat) : Bytes := if r.p 1 = 1 then [] else slice r.inp o (r.p 6)
def mldsaMsg (r : Req) (o : Nat) : Bytes := if r.p 1 = 1 then slice r.inp o 64 else slice r.inp (o + r.p 6) (r.p2 4)

/-- Attempts of an ML-DSA-87 signature under the operation's draw; at least one. -/
def mldsaTries (x : Cx) : Nat :=
  Nat.max 1 (Config.mldsaAttempts x.a.material (mldsaCtx x.r 0) (mldsaMsg x.r 0) (x.r.p 1 = 1) (x.rnd 0 32))

/-- Exponent of an RSA_PUBLIC operation. -/
def rsaE (r : Req) : Nat := beAt r.inp (rsaLen (r.p 0)) 4

/-- Ticks of the operation (R252), its first two being intake; a rejection loop adds its attempts (R253). -/
def cupTicks (x : Cx) : Nat :=
  let i := x.r.p 0
  match x.r.pat with
  | 0x0900 => nth 0 [0, 40, 80, 170] i
  | 0x0901 => nth 0 [0, 70, 140, 300] i
  | 0x0903 => nth 0 [0, 38, 75, 160] i
  | 0x0902 => nth 0 [0, 40, 78, 165] i
  | 0x0910 => nth 0 [0, 260, 780, 1700] i
  | 0x0911 => if rsaE x.r = 3 then nth 0 [0, 4, 5, 7] i else nth 0 [0, 12, 25, 42] i
  | 0x0912 => 2 + Config.rsaTicks (8 * rsaLen i) (x.rnd 0 64)
  | 0x0920 => 48 + 42 * Nat.min 814 (mldsaTries x)
  | 0x0921 => 60
  | 0x0922 => 70
  | 0x0930 => 30
  | 0x0931 => 36
  | 0x0932 => 24
  | 0x0510 => 12
  | _ => 2

/-! ### Intake (R262) -/

def scalarOk (set : Nat) (d : Nat) : Bool := 1 ≤ d && d < ecOrder set

/-- Parts of an RSA slot key: p, q, dP, dQ, qInv. -/
def rsaPart (m : Bytes) (k i : Nat) : Nat := beAt m (i * (k / 2)) (k / 2)

def rsaKeyOk (m : Bytes) (k : Nat) : Bool :=
  let p := rsaPart m k 0
  let q := rsaPart m k 1
  p % 2 = 1 && q % 2 = 1 && 2 ^ (4 * k - 1) ≤ p && 2 ^ (4 * k - 1) ≤ q && rsaPart m k 2 < p && rsaPart m k 3 < q &&
    rsaPart m k 4 < p

def modulusOk (n k : Nat) : Bool := n % 2 = 1 && 2 ^ (8 * k - 1) ≤ n

/-- Rows of R262 in order, each with whether it fails. -/
def intakeRows (x : Cx) : List (Nat × Bool × Status) :=
  let r := x.r
  let pat := r.pat
  let set := r.p 0
  let l := setLen r
  let k := rsaLen set
  let h := hashLen (r.p 2)
  let q := if pat = 0x0901 then slice r.inp 0 (1 + 2 * l) else slice r.inp 208 (1 + 2 * l)
  let n := beAt r.inp 0 k
  let e := rsaE r
  [ (1, (pat = 0x0900 || pat = 0x0903) && !scalarOk set (fromBe x.a.material), .badInput),
    (2, (pat = 0x0901 || pat = 0x0903) && !pointOk set q, .badInput),
    (3, pat = 0x0910 && !rsaKeyOk x.a.material k, .badInput),
    (4, (pat = 0x0911 && !(modulusOk n k && (e = 3 || e = 65537))) ||
        (pat = 0x0510 && !modulusOk (fromBe (tr34Modulus r)) 256), .badInput),
    (5, pat = 0x0911 && r.p 1 = 0 && n ≤ beAt r.inp (k + 4) k, .badInput),
    (6, pat = 0x0930 && !Config.mlkemModulusOk (slice r.inp 208 1568), .badInput),
    (7, pat = 0x0901 &&
        !(scalarOk set (beAt r.inp (1 + 2 * l + h) l) && scalarOk set (beAt r.inp (1 + 3 * l + h) l)), .verifyFail),
    (8, pat = 0x0911 && r.p 1 ≠ 0 && n ≤ beAt r.inp (k + 4 + h) k, .verifyFail),
    (9, pat = 0x0921 && !Config.mldsaDecodes (slice r.inp 2592 4627), .verifyFail),
    (10, (match cupOutLen x with
        | some m => r.outCap < m
        | none => false), .outputShort) ]

/-- The verdict of intake, with OUT_COUNT; `none` when every check passes. DETAIL is the number of the failing row (R260), row 10
included: R118 leaves it 0 for `OUTPUT_SHORT`, and R260 speaks of every verdict given at intake (DEDUCED, entry 79).
`TR34_ENVELOPE` keeps the 0 of R222. -/
def intakeVerdict (x : Cx) : Option JobResult :=
  match (intakeRows x).find? (·.2.1) with
  | none => none
  | some (row, _, st) =>
    let detail := if x.r.pat = 0x0510 then 0 else row
    some (if st == .outputShort then { status := st, detail, need := (cupOutLen x).getD 0 } else { status := st, detail })

/-! ### RSA (PKCS #1 v2.2) -/

/-- Modular inverse by Euclid's algorithm. -/
def invGo : Nat → Int → Int → Int → Int → Int
  | 0, _, _, t, _ => t
  | f + 1, r0, r1, t0, t1 => if r1 = 0 then t0 else invGo f r1 (r0 % r1) t1 (t0 - r0 / r1 * t1)

def invMod (a m : Nat) : Nat := (invGo 6000 m (a % m) 0 1 % m).toNat

/-- DigestInfo prefix of a SHA-2 hash code. -/
def digestInfo (h : Nat) : Bytes :=
  let n := BitVec.ofNat 8 (hashLen h)
  [0x30, n + 17, 0x30, 0x0D, 0x06, 0x09, 0x60, 0x86, 0x48, 0x01, 0x65, 0x03, 0x04, 0x02, BitVec.ofNat 8 (h - 1), 0x05, 0x00,
    0x04, n]

def emsaPkcs1 (h k : Nat) (dg : Bytes) : Bytes :=
  let t := digestInfo h ++ dg
  [0x00, 0x01] ++ List.replicate (k - t.length - 3) 0xFF ++ [0x00] ++ t

/-- EMSA-PSS of `k` bytes: 8k - 1 bits. -/
def emsaPss (h k : Nat) (dg salt : Bytes) : Bytes :=
  let hl := hashLen h
  let hh := digest h (zeros 8 ++ dg ++ salt)
  let db := zeros (k - salt.length - hl - 2) ++ [0x01] ++ salt
  let m := xorBytes db (mgf1 h hh (k - hl - 1))
  (nth 0 m 0 &&& 0x7F) :: m.drop 1 ++ hh ++ [0xBC]

/-- EMSA-PSS verification; the salt has whatever length the encoding carries. -/
def pssOk (h k : Nat) (dg em : Bytes) : Bool :=
  let hl := hashLen h
  let hh := slice em (k - hl - 1) hl
  let db := xorBytes (em.take (k - hl - 1)) (mgf1 h hh (k - hl - 1))
  let db := (nth 0 db 0 &&& 0x7F) :: db.drop 1
  let rest := db.dropWhile (· == 0)
  em.getLast? == some 0xBC && nth 0 em 0 &&& 0x80 == 0 && rest.head? == some 0x01 &&
    digest h (zeros 8 ++ dg ++ rest.drop 1) == hh

def rsaPrivate (m : Bytes) (k : Nat) (em : Nat) : Nat :=
  let p := rsaPart m k 0
  let q := rsaPart m k 1
  let m1 := modPow (4 * k) em (rsaPart m k 2) p
  let m2 := modPow (4 * k) em (rsaPart m k 3) q
  m2 + q * ((rsaPart m k 4 * ((m1 + p) - m2 % p)) % p)

/-! ### Results -/

/-- An envelope under KEY_A (R258). -/
def envelope (x : Cx) (alg : Nat) (pub priv : Bytes) : Bytes :=
  kwWrap true x.a.material
    (le 1 alg ++ le 1 (x.r.p 0) ++ le 2 priv.length ++ (sha384 pub).take 12 ++ priv)

/-- A key block of the X9.63 derivation of `z` (R257), after `front`. -/
def kbOutput (x : Cx) (z front : Bytes) : JobResult :=
  let r := x.r
  let key := x963 (r.p 2) z (slice r.inp 80 (r.p 6)) (kdfLen (r.p 7))
  let area := slice r.inp 0 80
  match headerFor area (r.p 3) x.b key.length, kbBuild area (r.p 3) x.b key (x.rnd 7 16) with
  | some h, some blk =>
    if h.alg == algLetter (kdfAlg (r.p 7)) then { output := front ++ blk } else { status := .badInput }
  | _, _ => { status := .badInput }

def verdict (ok : Bool) : JobResult := if ok then {} else { status := .verifyFail }

/-- EC private scalar drawn with 64 extra bits (FIPS 186-5, A.2.1). -/
def ecDraw (x : Cx) : Bytes :=
  be (setLen x.r) (fromBe (x.rnd 0 (setLen x.r + 8)) % (ecOrder (x.r.p 0) - 1) + 1)

/-- The result of the operation at its full time; `none` when EC_SIGN draws a new k (R253). -/
def cupResult (x : Cx) : Option JobResult :=
  let r := x.r
  let set := r.p 0
  let l := setLen r
  let k := rsaLen set
  let h := hashLen (r.p 2)
  match r.pat with
  | 0x0900 =>
    (Config.ecdsaSign set x.a.material (slice r.inp 0 h) (x.rnd 0 l)).map fun e => { output := padTo l e.1 ++ padTo l e.2 }
  | 0x0901 => some (verdict (ecVerify set (slice r.inp 0 (1 + 2 * l)) (slice r.inp (1 + 2 * l) h)
      (slice r.inp (1 + 2 * l + h) (2 * l))))
  | 0x0902 => let d := ecDraw x; let q := ecPub set d; some { output := q ++ envelope x 1 q d }
  | 0x0903 => some (kbOutput x (ecdh set x.a.material (slice r.inp 208 (1 + 2 * l))) [])
  | 0x0910 =>
    let dg := slice r.inp 0 h
    let em := if r.p 1 = 1 then emsaPkcs1 (r.p 2) k dg
      else emsaPss (r.p 2) k dg (x.rnd 0 (Nat.min (Config.pssSaltLen (r.p 2)) (k - h - 2)))
    some { output := be k (rsaPrivate x.a.material k (fromBe em)) }
  | 0x0911 =>
    let n := beAt r.inp 0 k
    if r.p 1 = 0 then some { output := be k (modPow 17 (beAt r.inp (k + 4) k) (rsaE r) n) }
    else
      let dg := slice r.inp (k + 4) h
      let em := be k (modPow 17 (beAt r.inp (k + 4 + h) k) (rsaE r) n)
      some (verdict (if r.p 1 = 1 then em == emsaPkcs1 (r.p 2) k dg else pssOk (r.p 2) k dg em))
  | 0x0912 =>
    let (p, q) := Config.rsaPrimes (8 * k) (x.rnd 0 64)
    let pub := be k (p * q) ++ be 4 65537
    let f := be (k / 2)
    let priv := f p ++ f q ++ f (invMod 65537 (p - 1)) ++ f (invMod 65537 (q - 1)) ++ f (invMod q p)
    some { output := pub ++ envelope x 2 pub priv }
  | 0x0920 =>
    if 814 < mldsaTries x then some { status := .faultUnresolved }
    else
      let sig := Config.mldsaSign x.a.material (mldsaCtx r 0) (mldsaMsg r 0) (r.p 1 = 1) (x.rnd 0 32)
      some { output := padTo 4627 sig }
  | 0x0921 => some (verdict (Config.mldsaVerify (slice r.inp 0 2592) (mldsaCtx r 7219) (mldsaMsg r 7219)
      (slice r.inp 2592 4627) (r.p 1 = 1)))
  | 0x0922 =>
    let seed := x.rnd 0 32
    let pub := padTo 2592 (Config.mldsaPub seed)
    some { output := pub ++ envelope x 3 pub seed }
  | 0x0930 =>
    let (ct, z) := Config.mlkemEncaps (slice r.inp 208 1568) (x.rnd 0 32)
    some (kbOutput x (padTo 32 z) (padTo 1568 ct))
  | 0x0931 => some (kbOutput x (padTo 32 (Config.mlkemDecaps x.a.material (slice r.inp 208 1568))) [])
  | 0x0932 =>
    let seeds := x.rnd 0 64
    let ek := padTo 1568 (Config.mlkemPub seeds)
    some { output := ek ++ envelope x 4 ek seeds }
  | 0x0510 => some { output := tr34Out x }
  | _ => some {}

end Sys2Proof.Machine
end

