-- ==== Sys2Proof/Machine/PatRun.lean ====
section
/-!
DEFINITION. The key of each reference of a step (R30, R163, R183, R224, R243, R249), and what a step of a job computes
in its slots (R147, R174, R187, R220).
-/
namespace Sys2Proof.Machine

/-- The key that the job's confirmation fixed for slot `n` (R30). -/
def Job.keyOf (j : Job) (n : Nat) : Option WorkKey :=
  j.keys.findSome? fun k => match k with
    | some w => if w.slot = some n then some w else none
    | none => none

/-- EMPTY or another slot's state as a status (R158 checks 5 and 6): not the gallery's or empty, or without a good copy. -/
def slotStatus (s : State) (g n : Nat) : Status :=
  let d := dirEnt s n
  if d.state == .bad && d.owner = g then .slotBad else .slotEmpty

/-- The key of slot `n` for the job's current step: the first step runs under the records of its confirmation, a later
one reads afresh and ends when the slot has changed (R243). -/
def slotFor (s : State) (j : Job) (n : Nat) : Sum Status WorkKey :=
  if j.cur = 0 then
    match j.keyOf n with
    | some k => .inr k
    | none => .inl (slotStatus s j.gal n)
  else
    match keyFor s j.half j.gal n, j.keyOf n with
    | some k, some k0 => if k.gen = k0.gen && (mapEnt s n).owner = j.gal then .inr k else .inl .keyRefused
    | some _, none => .inl .keyRefused
    | none, _ => .inl (slotStatus s j.gal n)

/-- The key of reference `i` (1 for KEY_A) of the current step. -/
def resolveKey (s : State) (j : Job) (r : Req) (i x : Nat) (role : Option KeyRole) : Option (Status × Nat) × WorkKey :=
  match role with
  | none => (none, {})
  | some o =>
    match refType x with
    | 1 =>
      match slotFor s j (refSlot x) with
      | .inl st => (some (st, 0), {})
      | .inr k => (none, k)
    | 2 =>
      match j.ctx.unwrapped.find? (·.1 == x) with
      | some (_, k) =>
        let p := kbPolicy r o k
        (if p ≠ 0 then some (.keyblockRefused, if r.pat < 0x0500 then 0 else 4096 * i + p)
          else if !(r.comboOk (if i = 1 then some k else none) none) then
            some (.keyblockRefused, if r.pat < 0x0500 then 0 else 4096 * i + 7)
          else none, k)
      | none =>
        match slotFor s j (refSlot x) with
        | .inl st => (some (st, 0), {})
        | .inr kek => kbResolve kek r o i x
    | 3 =>
      match nth none j.ctx.keys (refChain x) with
      | some k =>
        if o.chain = some k.attr.toNat && o.algs.contains k.alg then (none, k) else (some (.keyRefused, 0), k)
      | none => (some (.badInput, 0), {})
    | _ => (none, {})

/-- The step that the job executes now. -/
def Job.step (j : Job) : Step := nth {} j.steps j.cur
def Job.req (j : Job) : Req := j.step.req
def Job.pat (j : Job) : Nat := leAt j.step.entry 0 2

/-- The step that begins the job's message: the first one that is no derivation (R249). -/
def Job.lead (j : Job) : Nat := j.steps.findIdx fun e => !(e.req.pat = 0x0810 || e.req.pat = 0x0811)

/-- A step of a data-cipher chain that is no data cipher (R242). -/
def Job.alien (j : Job) : Bool :=
  j.lead < j.cur && (cipherMode (nth {} j.steps j.lead).req.pat).isSome && (cipherMode j.pat).isNone

/-- What Pattern `n` computes; Cupola and handoff Patterns have only their lane part here. A number from 0x0A00 to
0x0EFF that a Mould's library adds computes what its microcode gives: a free value (entry 5). -/
def patFn (n : Nat) (x : Px) (bk : Booking) (lane : Nat) : JobResult :=
  match n with
  | 0x0F00 => patEcho x
  | 0x0F01 => patNull x
  | 0x0F02 => patTickStamp x bk lane
  | 0x0F03 => patLaneCheck (nth 0 (x.rnd 0 1) 0) x bk lane
  | 0x0100 | 0x0101 => patPinXlate x
  | 0x0110 => patPinVerifyOffset x
  | 0x0111 => patPinOffsetCalc x
  | 0x0112 => patPinGenerate x
  | 0x0200 | 0x0208 => patMac1 x
  | 0x0201 | 0x0209 => patMac3 x
  | 0x0202 | 0x020A => patMacCmac x
  | 0x0220 => patCardValue x
  | 0x0228 => patCardValueDyn x
  | 0x0300 => patArqc x
  | 0x0310 => patScriptMac x
  | 0x0311 => patScriptEnc x
  | 0x0312 => patScriptPin x
  | 0x0400 => patDukptAesPin x
  | 0x0401 => patDukptAesMac x
  | 0x0402 => patDukptAesData x
  | 0x0408 => patDukptTdesPin x
  | 0x0409 => patDukptTdesMac x
  | 0x0500 => patKbExport x
  | 0x0501 => patKbGenerate x
  | 0x0502 => patKbInspect x
  | 0x0510 =>
    match tr34Lane x.r x.a with
    | some (st, d) => x.fail st d
    | none => x.done
  | 0x0520 => patKwExport x
  | 0x0521 => patKwImport x
  | 0x0600 | 0x0608 | 0x0611 | 0x0619 => cipherStep patCbc x
  | 0x0601 | 0x0609 => cipherStep patCtr x
  | 0x0602 | 0x060A => cipherStep patXts x
  | 0x0603 | 0x060B => cipherStep patGcm x
  | 0x0604 | 0x060C => cipherStep patCcm x
  | 0x0610 | 0x0618 => cipherStep patTdesEcb x
  | 0x0700 => patFf1 x
  | 0x0708 => patFf1Long x
  | 0x0800 | 0x0808 => patHash x
  | 0x0801 | 0x0809 => patHmac x
  | 0x0810 => patKdf108 x
  | 0x0811 => patKdfX963 x
  | n => if cupolaPat n || handoffPat n then x.done else x.res (x.rnd 0 16)

/-- The keys of the current step: a failure with its DETAIL, or KEY_A and KEY_B. -/
def stepKeys (s : State) (j : Job) (r : Req) : Option (Status × Nat) × WorkKey × WorkKey :=
  let roles := r.roles
  let (fa, a) := resolveKey s j r 1 (nth 0 r.refs 0) (nth none roles 0)
  let (fb, b) := resolveKey s j r 2 (nth 0 r.refs 1) (nth none roles 1)
  ((match fa with
    | some e => some e
    | none => fb), a, b)

/-- The current step of a job with the function `f` of its Pattern: a verdict of the usage checker or a key that fails
ends it first (R123, R226, R243). -/
def stepWith (s : State) (j : Job) (f : Px → Booking → Nat → JobResult) : JobResult :=
  let e := j.step
  match e.verdict with
  | some st => { status := st, detail := e.detail, ctx := j.ctx }
  | none =>
    let r := e.req
    let (fail, a, b) := stepKeys s j r
    match fail with
    | some (st, d) => { status := st, detail := d, ctx := j.ctx }
    | none =>
      if j.alien then { status := .badInput, ctx := j.ctx }
      else f { s, r, r0 := (nth {} j.steps j.lead).req, lead := j.lead, a, b, ctx := j.ctx, idx := j.cur, chain := j.chain }
        (j.book.getD { tick := 0, len := 0 }) (laneOf s j)

def runStep (s : State) (j : Job) : JobResult := stepWith s j (patFn j.pat)

/-- A Pattern row: the job's current step carries Pattern number `n`, is confirmed and holds its slots in this tick. -/
def computes (s : State) (j : Job) (n : Nat) : Bool :=
  j.phase == .confirmed && j.pat = n && (match j.book with
    | some b => b.tick = tick s && !s.gen.windowDone
    | none => false)

/-- The Pattern's computation of a job, held until LANE_EXECUTE takes it (R147). -/
def computePat (s : State) (id n : Nat) (f : Px → Booking → Nat → JobResult) : State :=
  match job s id with
  | none => s
  | some j =>
    if computes s j n then bump (updJob s id fun j' => { j' with computed := some (stepWith s j f) }) else s

/-- The operation of a Cupola job (R255) with its keys. -/
def cxOf (s : State) (j : Job) (draw lane : Nat) : Cx :=
  let r := j.req
  let (_, a, b) := stepKeys s j r
  { r, a, b, draw, lane }

end Sys2Proof.Machine
end

