-- ==== Sys2Proof/Machine/Links.lean ====
section
/-!
DEFINITION. Span links and the header of a message: flits, fragments, retry, keys (R523 to R527, R531, R537).
-/
namespace Sys2Proof.Machine

/-! ### The header of a message (R537) -/

def msgClass (m : Bytes) : Nat := byteAt m 0
def msgLen (m : Bytes) : Nat := leAt m 2 2
def msgSrc (m : Bytes) : Nat := leAt m 4 2 % 1024
def msgDst (m : Bytes) : Nat := leAt m 6 2 % 1024
def msgEpoch (m : Bytes) : Nat := leAt m 8 2
def msgHops (m : Bytes) : Nat := byteAt m 10
def msgTseq (m : Bytes) : Nat := leAt m 12 2
def msgSrcGal (m : Bytes) : Nat := byteAt m 14
def msgDstGal (m : Bytes) : Nat := byteAt m 15
def msgBody (m : Bytes) : Bytes := (m.take (msgLen m)).drop 16

/-- A message from this unit. -/
def spanMsg (s : State) (cls dst tseq srcGal dstGal : Nat) (body : Bytes) : Bytes :=
  le 1 cls ++ [1] ++ le 2 (16 + body.length) ++ le 2 s.chn.addr.toNat ++ le 2 dst ++ le 2 s.chn.epoch.toNat ++ [0, 0] ++
    le 2 tseq ++ le 1 srcGal ++ le 1 dstGal ++ body

/-- Every one of the 192 message buffers is taken. -/
def spanBuffersFull (s : State) : Bool := 192 ≤ s.spn.outbox.length + s.spn.inbox.length

/-! ### Links -/

def link (s : State) (l : Nat) : Link := s.spn.links.get {} l
def updLink (s : State) (l : Nat) (f : Link → Link) : State :=
  updSpn s fun x => { x with links := x.links.upd {} l f }

def linkUp (s : State) (l : Nat) : Bool := (link s l).state == .up

def Link.half (x : Link) : Half := halfOf (x.firstLane.toNat / 64)

/-- A retrain with a new hello and new keys, latched in half source +16 (R527). -/
def retrain (s : State) (l : Nat) : State :=
  reportOnly (linkDown s l .training) (halfSrc (link s l).half 16) 0 l 0

/-! ### Flits (R523) -/

/-- CRC-64 of ECMA-182. -/
def crc64Bits : Nat → Nat → Nat
  | 0, v => v
  | n + 1, v => crc64Bits n (if v ≥ 2 ^ 63 then ((2 * v) ^^^ 0x42F0E1EBA9EA3693) % 2 ^ 64 else 2 * v)

def crc64 (m : Bytes) : Nat := m.foldl (fun v b => crc64Bits 8 (v ^^^ (b.toNat * 2 ^ 56))) 0

def emitFlit (s : State) (l : Nat) (b : Bytes) : State :=
  let c := b ++ le 8 (crc64 b)
  { s with out := { s.out with flits := s.out.flits ++ [(l, c ++ padTo 16 (Config.flitFec c))] } }

/-- Bytes 0x00 to 0x07 of a flit of type `ty`. -/
def Link.head (x : Link) (ty seq : Nat) (nak : Bool) : Bytes :=
  le 2 (seq % 1024 + 1024 * ty) ++ le 2 ((x.seqRx + 1023) % 1024 + 32768 * b2n nak) ++ le 1 x.ratchetTx ++ zeros 3

/-- An idle flit with the current `ACK`. -/
def sendAck (s : State) (l : Nat) (nak : Bool) : State := emitFlit s l ((link s l).head 0 0 nak ++ zeros 224)

/-- Payloads of the fragments of a message, numbered from `id` (R524). -/
def fragments (id : Nat) (m : Bytes) : List Bytes :=
  let cs := chunks 200 m
  tabulate cs.length fun i =>
    let c := nth [] cs i
    padTo 208 (le 2 (id + i) ++ le 2 (200 * i) ++ le 1 c.length ++ le 1 (b2n (i + 1 = cs.length)) ++ zeros 2 ++ c)

/-! ### Keys in use (R531) -/

def ratchetKey (k : Bytes) (count : Nat) : Bytes := ladderKdf k "QLV-SPAN-RATCHET" (be 8 count) 32

/-- The key of a direction is replaced at every nonzero multiple of 2^32 of its flit counter. -/
def ratchetDue (count ratchets : Nat) : Bool := count ≠ 0 && count % 2 ^ 32 = 0 && ratchets < count / 2 ^ 32

def Link.ratchetOut (x : Link) : Link :=
  if ratchetDue x.countTx x.ratchetTx then { x with keyTx := ratchetKey x.keyTx x.countTx, ratchetTx := x.ratchetTx + 1 } else x

def Link.ratchetIn (x : Link) : Link :=
  if ratchetDue x.countRx x.ratchetRx then { x with keyRx := ratchetKey x.keyRx x.countRx, ratchetRx := x.ratchetRx + 1 } else x

/-! ### Sending (R525) -/

/-- Flits that the replay buffer holds. -/
def Link.replayRoom (x : Link) : Nat := 16 * 2 ^ x.width.toNat

/-- Fragments of `q` leave while the replay buffer has room: the link and the flits sent. -/
def pumpGo (t : Nat) : List Bytes → Link → Link × List Bytes
  | [], x => ({ x with txq := [] }, [])
  | p :: q, x =>
    if x.replayRoom ≤ x.replay.length then ({ x with txq := p :: q }, [])
    else
      let x := x.ratchetOut
      let h := x.head 1 x.seqTx false
      let (ct, tag) := gcmEnc x.keyTx (x.saltTx ++ be 8 x.countTx) h p
      let f := h ++ ct ++ tag
      let (y, fs) := pumpGo t q
        { x with seqTx := (x.seqTx + 1) % 1024, countTx := x.countTx + 1, replay := x.replay ++ [(x.seqTx, f)]
                 sinceAck := if x.replay.isEmpty then t else x.sinceAck }
      (y, f :: fs)

def pumpLink (s : State) (l : Nat) : State :=
  let x := link s l
  if x.state != .up then s
  else
    let (y, fs) := pumpGo (tick s) x.txq x
    fs.foldl (fun s f => emitFlit s l f) (updLink s l fun _ => y)

/-- A message joins the fragments that wait on a link. -/
def queueMsg (s : State) (l : Nat) (m : Bytes) : State :=
  updLink s l fun x =>
    let fs := fragments x.fragTx m
    { x with txq := x.txq ++ fs, fragTx := (x.fragTx + fs.length) % 65536 }

/-- A hello message in hello flits (R529). -/
def sendHello (s : State) (l : Nat) (body : Bytes) : State :=
  let x := link s l
  let fs := fragments x.fragTx (spanMsg s 9 (((s.spn.topo.get none l).map (·.unit)).getD 0) 0 0 0 body)
  let s := updLink s l fun x => { x with fragTx := (x.fragTx + fs.length) % 65536 }
  fs.foldl (fun s p => emitFlit s l (x.head 2 0 false ++ p ++ zeros 16)) s

/-! ### Acknowledgement and resending (R526, R527) -/

/-- Every outstanding flit is sent again; the ninth attempt in a row retrains the link instead. -/
def resendAll (s : State) (l : Nat) : State :=
  let x := link s l
  if x.replay.isEmpty then s
  else if 8 ≤ x.resends then retrain s l
  else
    let s := x.replay.foldl (fun s e => emitFlit s l e.2) s
    updLink s l fun x =>
      { x with resends := x.resends + 1, sinceAck := tick s, retry := BitVec.ofNat 31 (Nat.min 2147483647 (x.retry.toNat + x.replay.length)) }

/-- `ACK_SEQ` `a` arrives, with or without `NAK`. -/
def takeAck (s : State) (l a : Nat) (nak : Bool) : State :=
  let x := link s l
  let again := fun s : State => if nak then resendAll s l else s
  match x.replay.findIdx? (·.1 = a) with
  | some i =>
    let s := updLink s l fun x => { x with replay := x.replay.drop (i + 1), resends := 0, sinceAck := tick s }
    pumpLink (again s) l
  | none =>
    let last := ((x.replay.head?.map (·.1)).getD x.seqTx + 1023) % 1024
    if a = last then again s else if nak then retrain s l else s

/-! ### Receiving (R524, R526) -/

/-- A fragment joins the message being rebuilt: the state, and the message when this is its last fragment. -/
def takeFragment (s : State) (l : Nat) (p : Bytes) : State × Option Bytes :=
  let o := leAt p 2 2
  let n := byteAt p 4
  let f := (link s l).frag
  let keep := fun b => updLink s l fun x => { x with frag := b }
  if n = 0 || 200 < n || (o ≠ 0 && o ≠ f.length) || 8192 < o + n then (keep [], none)
  else
    let b := (if o = 0 then [] else f) ++ slice p 8 n
    if nbit (byteAt p 5) 0 then (keep [], some b) else (keep b, none)

end Sys2Proof.Machine
end

