-- ==== Sys2Proof/Machine/Finish.lean ====
section
/-!
DEFINITION. How a job ends by its origin: a queue's completion, a partner's PAIR_RESULT (R548), a program's completion
ring (R410); messages of the part on Span (R536 to R538) and the words of a partition (R406).
-/
namespace Sys2Proof.Machine

/-! ### Span messages -/

/-- The link that carries a message to unit `d` (R536). -/
def routeTo (s : State) (d : Nat) : Option Nat :=
  match s.spn.routes.get none d with
  | some r => if linkUp s r.link0 then some r.link0 else if r.link1 ≠ 255 && linkUp s r.link1 then some r.link1 else none
  | none => none

/-- Send a message now: on a link, or discarded and counted (R536, R538). -/
def sendNow (s : State) (m : Bytes) : State :=
  if !s.chn.valid then s
  else match routeTo s (msgDst m) with
    | some l => pumpLink (queueMsg { s with out := { s.out with span := s.out.span ++ [m] } } l m) l
    | none => updSpn s fun x => { x with dropRoute := satInc31 x.dropRoute }

/-- A message that leaves in slot 0 of tick `t`; it needs one of the 192 message buffers (R537). -/
def sendAt (s : State) (t : Nat) (m : Bytes) : State :=
  if spanBuffersFull s then updSpn s fun x => { x with dropBuffer := satInc31 x.dropBuffer }
  else updSpn s fun x => { x with outbox := x.outbox ++ [⟨t, m⟩] }

/-- The messages due in this tick leave. -/
def flushOutbox (s : State) : State :=
  let due := s.spn.outbox.filter fun m => m.tick ≤ tick s
  due.foldl (fun s m => sendNow s m.bytes) (updSpn s fun x => { x with outbox := x.outbox.filter fun m => tick s < m.tick })

/-! ### Partitions (R406) -/

/-- Bytes at offset `o` of the partition of gallery `g` in half `h`. -/
def partRead (s : State) (h : Half) (p : Program) (o n : Nat) : Bytes := (s.mem.floor.get h).readN (p.base + o) n

def partWrite (s : State) (h : Half) (p : Program) (o : Nat) (b : Bytes) : State :=
  { s with mem := { s.mem with floor := s.mem.floor.upd h fun m => m.writeN (p.base + o) b } }

/-- Index word `i` of a partition. -/
def partWord (s : State) (h : Half) (p : Program) (i : Nat) : Nat := fromLe (partRead s h p (0xC00 + 4 * i) 4)

/-- The part writes its own four index words. -/
def partWords (s : State) (h : Half) (g : Nat) : State :=
  match program s h g with
  | none => s
  | some p =>
    let s := partWrite s h p 0xC00 (le 4 p.handProd)
    let s := partWrite s h p 0xC0C (le 4 p.resCons)
    let s := partWrite s h p 0xC14 (le 4 p.jobCons)
    partWrite s h p 0xC18 (le 4 p.jobDoneProd)

/-- Line `PART` of the cores that run programs (R447). -/
def signalPart (s : State) (h : Half) : State := setIp s (match h with | .cope => [3, 4] | .drag => [7, 8]) 3

/-- An internal entry completes (R410): output and completion in the partition, the consumer index advanced. -/
def completeInternal (s : State) (j : Job) (st : Status) (detail outCount : Nat) (result : Bytes) (outs : List (BitVec 64 × Bytes)) :
    State :=
  match program s j.half j.gal with
  | none => dropJob s j.id
  | some p =>
    let s := outs.foldl (fun s o => partWrite s j.half p o.1.toNat o.2) s
    let rs := p.jobCovered ++ [(j.index, 1)]
    let ci := advance 4 rs p.jobCons
    let h : Held := { cmdId := j.cmdId, status := st, detail, outCount, result, sqCi := ci }
    let s := partWrite s j.half p (0xA00 + 32 * (p.jobDoneProd % 16)) h.bytes
    let s := updProgram s j.half j.gal fun p =>
      { p with jobDoneProd := (p.jobDoneProd + 1) % 32, jobCons := ci, jobCovered := keepAhead 4 rs p.jobCons ci }
    partWords (signalPart (dropJob (recLatency s j (tick s)) j.id) j.half) j.half j.gal

/-- The digest of an outcome (R548). -/
def outcomeDigest (st : Status) (detail outCount : Nat) (result : Bytes) (outs : List (BitVec 64 × Bytes)) : Bytes :=
  sha384 (le 1 st.code ++ le 2 detail ++ le 4 outCount ++ padTo 16 result ++ outs.flatMap (·.2))

/-- A partner's job completes: its PAIR_RESULT leaves when its completion would be issued (R548). -/
def completePartner (s : State) (j : Job) (st : Status) (detail outCount : Nat) (result : Bytes) (outs : List (BitVec 64 × Bytes))
    (t : Nat) : State :=
  let s := match s.spn.partners.find? (·.job = j.id) with
    | some p =>
      sendAt s t (spanMsg s 4 p.src p.tseq j.gal p.gallery (le 8 p.dispatch ++ outcomeDigest st detail outCount result outs))
    | none => s
  dropJob (updSpn s fun x => { x with partners := x.partners.filter (·.job ≠ j.id) }) j.id

/-- A job ends with status `st`; what it sends leaves from tick `t` on. -/
def endJob (s : State) (id : Nat) (st : Status) (detail outCount : Nat) (result : Bytes) (outs : List (BitVec 64 × Bytes))
    (t : Nat) : State :=
  match job s id with
  | none => s
  | some j =>
    match j.origin with
    | .queue => completeJob s id st detail outCount result outs j.chain t
    | .partner => completePartner s j st detail outCount result outs t
    | .program => completeInternal s j st detail outCount result outs

/-- A job ends without output; a chain names its current step and the bytes of the steps before it (R118, R123). -/
def failJob (s : State) (j : Job) (st : Status) (detail : Nat) (t : Nat) : State :=
  endJob s j.id st (if j.chain then j.cur else detail) (if j.chain then j.outBytes else 0) [] [] t

/-- The output writes of a step: one to the entry's `OUT_ADDR`. -/
def outsOf (j : Job) (r : JobResult) : List (BitVec 64 × Bytes) :=
  if r.output.isEmpty then [] else [(j.req.outAddr, r.output)]

/-- The completion of what an execution gave is produced in slot 0 of the next tick: until then a job without output writes
is not delivered (R170, R171, entry 33). -/
def undelivered (s : State) (id : Nat) : State :=
  updJob s id fun j => if j.outs.isEmpty then { j with delivered := false, outSent := false } else j

/-- Status, DETAIL and OUT_COUNT of the result of a job's last step (R118). -/
def endWith (s : State) (j : Job) (r : JobResult) (t : Nat) : State :=
  let s := if r.status = .done then endJob s j.id .done 0 (j.outBytes + r.output.length) r.result (outsOf j r) t
    else if j.chain then endJob s j.id r.status j.cur j.outBytes r.result [] t
    else endJob s j.id r.status r.detail r.need r.result [] t
  undelivered s j.id

end Sys2Proof.Machine
end

