-- ==== Sys2Proof/Machine/Look.lean ====
section
/-!
DEFINITION. Look-ahead (R120 to R122, R152 to R157, R162, R163, R407, R410, R462, R546), the usage checker (R158, R292,
R293) and the key cache (R166, R167).
-/
namespace Sys2Proof.Machine

/-! ### Key cache (R166, R167) -/

/-- The name of a key block: its bytes and the slot of its key-encryption key. -/
def blockName (inp : Bytes) (x : Nat) : Bytes :=
  let o := refOff x
  [2] ++ le 2 (refSlot x) ++ slice inp o ((decNum (slice inp (o + 1) 4)).getD 0)

/-- A hit makes its line the most recently used. -/
def kcTouch (x : LaneHalf) (g : Nat) (name : Bytes) : LaneHalf :=
  match kcFind x g name with
  | some l => { x with kc := l :: x.kc.filter (· ≠ l) }
  | none => x

/-- A fill takes a free line of the tag's set in one of the gallery's `ways`, or the least recently used one (R166). The four
bits of the tag that select the line are its low four (DESIGN CHOICE, entry 68). -/
def kcFill (x : LaneHalf) (g : Nat) (ways : List Nat) (name : Bytes) (k : WorkKey) : LaneHalf :=
  if ways.isEmpty || (kcFind x g name).isSome then kcTouch x g name
  else
    let tag := kcTag x name
    let set := tag.toNat % 16
    let mine := x.kc.filter fun l => l.gal = g && l.set = set
    let way := match ways.find? fun w => !mine.any (·.way = w) with
      | some w => w
      | none => ((mine.getLast?).map (·.way)).getD 0
    { x with kc := ⟨g, way, set, tag, k⟩ :: x.kc.filter fun l => !(l.gal = g && l.set = set && l.way = way) }

/-! ### Cost and booking (R152 to R154, R163) -/

def libSlots (s : State) (h : Half) (n : Nat) : Option Nat :=
  if handoffPat n then some 1
  else (halfCfg s h).bind fun c => (c.lib.find? (·.pattern = n)).map (·.slots)

/-- The parts of a job: its steps in order, an unwrap step before one whose cost exceeds 8 slots. -/
def segsGo (s : State) (h : Half) : List Step → Nat → List Nat → List Seg
  | [], _, _ => []
  | e :: t, i, seen =>
    let r := e.req
    match libSlots s h r.pat with
    | none => ⟨false, i, 1, []⟩ :: segsGo s h t (i + 1) seen
    | some n =>
      let fresh := r.kbRefs.filter fun x => !seen.contains x
      if n + 2 * fresh.length ≤ 8 then ⟨false, i, n + 2 * fresh.length, fresh⟩ :: segsGo s h t (i + 1) seen
      else ⟨true, i, 2 * fresh.length, fresh⟩ :: ⟨false, i, n, []⟩ :: segsGo s h t (i + 1) (seen ++ fresh)

def segsOf (s : State) (j : Job) : List Seg := segsGo s j.half j.steps 0 []

/-- A run of slots in tick `t` or the next one. -/
def findTwo (s : State) (j : Job) (t len : Nat) : Option Booking :=
  match findOwn s j.half j.gal t len with
  | some b => some b
  | none => findOwn s j.half j.gal (t + 1) len

/-- Slots of the borrow allowance that unconfirmed jobs of the gallery have booked. -/
def softUsed (s : State) (h : Half) (g : Nat) : Nat :=
  sumNat ((s.jobs.filter fun j => j.gal = g && j.half == h && j.unconfirmed).map (·.soft))

/-- The job with its bookings; `none` when it must be set aside (R153 to R155). -/
def bookJob (s : State) (j : Job) : Option Job :=
  let t := tick s
  let segs := segsOf s j
  let soft := fun n =>
    if (gal s j.gal).borrow && softUsed s j.half j.gal + n ≤ (gv s j.gal).allowance.get j.half then
      some { j with segs, soft := n } else none
  match segs with
  | [] => some { j with segs }
  | [a] => match findTwo s j (t + 1) a.len with
    | some b => some { j with segs, book := some b }
    | none => soft a.len
  | a :: b :: _ =>
    if j.chain then
      match findOwn s j.half j.gal (t + 1) a.len, findOwn s j.half j.gal (t + 2) b.len with
      | some x, some y => some { j with segs, book := some x, book2 := some y }
      | _, _ => none
    else match findOwn s j.half j.gal (t + 1) a.len, findOwn s j.half j.gal (t + 2) b.len with
      | some x, some y => some { j with segs, book := some x, book2 := some y }
      | _, _ => soft (a.len + b.len)

/-! ### Draws (R176, R223, R259) -/

/-- DRBG instances that one execution of an entry in a lane draws from; `begins`: the entry begins its chain's message. -/
def Req.laneDraws (r : Req) (h : Half) (begins : Bool) : List Nat :=
  let lane := laneDrbg h
  match r.pat with
  | 0x0100 | 0x0101 => if [1, 3, 4].contains (byteAt r.blk 1) then [lane] else []
  | 0x0400 | 0x0408 => if [1, 3, 4].contains (r.p 1) then [lane] else []
  | 0x0112 | 0x0500 | 0x0521 => [lane]
  | 0x0501 => [lane, 2]
  | 0x0510 => [lane, 2]
  | 0x0810 | 0x0811 => if r.p 1 = 0 then [lane] else []
  | n =>
    match cipherMode n with
      | some m =>
        if !begins then []
        else if r.p 1 = 1 && m ≠ 2 && m ≠ 5 then [lane]
        else if (m = 3 || m = 4) && r.p 0 = 1 && !r.last then [lane] else []
      | none => []

/-- The instances that an entry draws from: in its lane, and at the intake of its Cupola operation (R259). -/
def Req.draws (r : Req) (h : Half) (begins : Bool) : List Nat :=
  r.laneDraws h begins ++ (if cupolaPat r.pat then [2] else [])

/-- Instances that the current step of a job draws from in its lane. -/
def Job.laneDraws (j : Job) : List Nat := j.req.laneDraws j.half (j.cur = j.lead)

/-- Instances that a job draws from in any step. -/
def Job.draws (j : Job) : List Nat :=
  (j.steps.zip (List.range j.steps.length)).flatMap fun e => e.1.req.draws j.half (e.2 = j.lead)

/-- A job runs paired (R546). -/
def pairedJob (s : State) (j : Job) : Bool :=
  j.origin == .queue && !j.chain && (s.spn.pairs.get {} j.gal).policy.getLsbD 1 &&
    (s.spn.pairs.get {} j.gal).state != .none &&
    !handoffPat (nth {} j.steps 0).req.pat && !cupolaPat (nth {} j.steps 0).req.pat && j.draws.isEmpty

/-! ### The usage checker (R158) -/

def roleUnwrap : KeyRole := { usageBit := 14, algs := anyCipher, kb := false }

/-- Slots that an entry names with the roles that they must fit. -/
def Req.slotRoles (r : Req) : List (Nat × KeyRole) :=
  (r.refs.zip r.roles).filterMap fun e => match e.2 with
    | none => none
    | some o => if refType e.1 = 1 then some (refSlot e.1, o) else if refType e.1 = 2 then some (refSlot e.1, roleUnwrap) else none

def KeyRole.wide (o : KeyRole) : Bool := !o.algs.isEmpty && o.algs.all wideAlg

/-- Check 5 for one slot: it holds a key that the gallery owns (R292). -/
def holdsKey (s : State) (g : Nat) (e : Nat × KeyRole) : Bool :=
  let d := dirEnt s e.1
  d.owner = g && (d.state == .good || d.state == .bad) && d.wide ≠ 2 && (d.wide = 0 || e.2.wide)

/-- Check 2 for an entry of a program's job ring (R410): partition offsets. -/
def internalOk (s : State) (j : Job) (r : Req) : Bool :=
  let inside := fun (a n : Nat) => 0x1000 ≤ a && a + n ≤ partBytes s j.half j.gal
  (!r.inHost || inside r.inAddr.toNat r.inLen) && (r.outCap = 0 || inside r.outAddr.toNat r.outCap)

/-- The verdict on step `i` of a job: `none` when every check passes. -/
def ruleStep (s : State) (j : Job) (e : Step) : Option (Status × Nat) :=
  let r := e.req
  let x := gal s j.gal
  let sr := r.slotRoles
  let keyOf := fun (i : Nat) => if refType (nth 0 r.refs i) = 1 then keyFor s j.half j.gal (refSlot (nth 0 r.refs i)) else none
  if (libSlots s j.half r.pat).isNone || (j.origin == .program && handoffPat r.pat) then some (.badPattern, 0)
  else if !r.inputOk j.chain || (j.origin == .program && !internalOk s j r) then some (.badInput, 0)
  else if r.panTooLong then some (.badInput, 3)
  else if !r.lengthsOk || (pairedJob s j && 8104 < r.inLen) then some (.badLength, 0)
  else if 4096 * ((gv s j.gal).blocks.get j.half).length < r.inLen + r.outCap || (cupolaPat r.pat && x.cupola = 0) then some (.quota, 0)
  else if sr.any fun e => !holdsKey s j.gal e then some (.slotEmpty, 0)
  else if sr.any fun e => (dirEnt s e.1).state == .bad || (keyFor s j.half j.gal e.1).isNone then some (.slotBad, 0)
  else if sr.any (fun e => match keyFor s j.half j.gal e.1 with
      | some k => !e.2.fits r k
      | none => true) || !r.comboOk (keyOf 0) (keyOf 1) then some (.keyRefused, 0)
  else if handoffPat r.pat && !((program s j.half j.gal).any fun p => r.pat % 0x1000 < p.entries) then some (.notAuthorised, 0)
  else none

/-- A decipher chain of GCM or CCM whose last entry sets `BATCH` (R241). -/
def releaseBatch (j : Job) : Bool :=
  j.chain && j.batch && (match cipherMode (nth {} j.steps 0).req.pat with
    | some m => (m = 3 || m = 4) && (nth {} j.steps 0).req.p 0 = 1
    | none => false)

/-- Every step with its verdict; a step whose input could not be read keeps `DMA_ERROR` (R130). -/
def ruleSteps (s : State) (j : Job) : List Step :=
  j.steps.map fun e =>
    if e.verdict = some .dmaError then e
    else if releaseBatch j then { e with verdict := some .badInput }
    else match ruleStep s j e with
      | some (st, d) => { e with verdict := some st, detail := d }
      | none => { e with verdict := none, detail := 0 }

/-- The verdict on the job as it is ruled (R158, R123): the first step's, or one that covers the whole job. -/
def Job.verdict (j : Job) : Option (Status × Nat) :=
  match j.early with
  | some st => some (st, 0)
  | none => (nth {} j.steps 0).verdict.map fun st => (st, (nth {} j.steps 0).detail)

/-- Every read has returned: the checker rules. -/
def ruleJob (s : State) (id : Nat) : State :=
  match job s id with
  | none => s
  | some j => if j.steps.all (·.waits = 0) then updJob s id fun j => { j with phase := .ruled, steps := ruleSteps s j } else s

/-! ### Setting aside (R155) -/

/-- The chain of queue `k` is no longer being read: the turn passes on (R120). -/
def endTurn (s : State) (k : Nat) : State :=
  updGv s (k / 64) fun v => { v with chainSq := v.chainSq.map fun c => if c = some (k % 64) then none else c }

/-- The index of the `FIRST` entry of the chain being read from queue `q`, or of the next entry. -/
def Sq.first (q : Sq) : Nat := (q.rd + modulus q.depthLog2 - q.chainBuf.length) % modulus q.depthLog2

/-- Job `j` of a queue is read again in a later tick; so are the queue's later entries. -/
def setAside (s : State) (j : Job) : State :=
  match j.origin with
  | .queue =>
    if j.again then updSq (updJob s j.id fun j => j.restart (tick s + 1) j.hold) j.sq fun q => { q with aside := true }
    else
      let q := sq s j.sq
      let later := fun i => ringCount q.depthLog2 j.index q.ci ≤ ringCount q.depthLog2 i q.ci
      let gone := ((jobsOf s j.sq).filter fun x => x.unconfirmed && !x.again && later x.index).map (·.id)
      let s := { s with
        jobs := s.jobs.filter fun x => !gone.contains x.id
        reads := s.reads.filter fun r => match r.what with
          | .entry k _ => k ≠ j.sq
          | .input i _ _ _ _ => !gone.contains i }
      endTurn (updSq s j.sq fun q => { q with rd := j.index, chainBuf := [], aside := true }) j.sq
  | .program => updProgram (dropJob s j.id) j.half j.gal fun p => { p with jobRd := j.index }
  | .partner => updJob s j.id fun j => { j with book := none, book2 := none, book3 := none, soft := 0, phase := .redo, waitFrom := tick s + 1 }

/-- An entry read of queue `k` at index `i` comes too late or finds no room. -/
def asideEntry (s : State) (k i : Nat) : State :=
  endTurn (updSq s k fun q =>
    { q with rd := if q.admin then i else (i + modulus q.depthLog2 - q.chainBuf.length) % modulus q.depthLog2, chainBuf := [], aside := true }) k

/-! ### Admission of a job whose entries are read -/

/-- A re-execution takes over the hold entries of the first attempt (R172). -/
def Job.tookOver (j : Job) : Bool := j.again && !j.late

/-- Hold entries that a job can need (R127). -/
def holdNeed (j : Job) : Nat := if j.batch && j.batchEnd && j.early.isNone then 2 else 1

/-- Free hold entries of completion queue `k`, less what unconfirmed jobs and unconfirmed admin entries need. -/
def holdRoom (s : State) (k : Nat) : Nat :=
  let c := cq s k
  let need := sumNat ((s.jobs.filter fun j => j.origin == .queue && cqKey s j.sq = k && j.unconfirmed && !j.tookOver).map holdNeed) +
    (s.adm.filter fun a => a.phase == .read && cqKey s a.key = k).length
  holdFree c - need

/-- Slots with a key that the entries name and that the key cache of the half does not hold: one fill each, a wide slot at
every use (R157, R256). -/
def fillsOf (s : State) (j : Job) : List Nat :=
  let x := s.lanes.half.get j.half
  ((j.steps.flatMap fun e => e.req.slots).eraseDups).filter fun n =>
    (dirEnt s n).owner = j.gal && (dirEnt s n).state == .good && (dirEnt s n).wide ≠ 2 &&
      (kcFind x j.gal (slotName n (dirEnt s n).gen)).isNone

/-- Handoff records free in the gallery's ring, less jobs admitted and not yet published (R407). -/
def handRoom (s : State) (h : Half) (g : Nat) : Bool :=
  match program s h g with
  | none => true
  | some p =>
    let out := (s.jobs.filter fun j => j.gal = g && j.half == h && j.phase != .redo && j.phase != .handoff &&
      j.phase != .finished && handoffPat (nth {} j.steps 0).req.pat).length
    ringCount 4 p.handProd p.handCons + out < 16

/-- The read of `n` input bytes from offset `o` on of step `i` of job `j`, none for no bytes. -/
def readInput (s : State) (j : Job) (i : Nat) (port : Half) (a : BitVec 64) (o n : Nat) (head : Bool) : State :=
  if n = 0 then s
  else
    let rid := s.nextRid
    let s := { s with nextRid := rid + 1, reads := s.reads ++ [⟨rid, j.half, tick s, .input j.id i o n head⟩] }
    let s := emit s (.read rid port (a + BitVec.ofNat 64 o) n)
    updJob s j.id fun j => { j with steps := updNth j.steps i fun e => { e with waits := e.waits + 1 } }

/-- Input reads of the job: the input fields and the first 16 bytes of each key block (R178). A program's or a partner's entry
has its input already. -/
def issueInputs (s : State) (j : Job) (port : Half) : State :=
  (List.range j.steps.length).foldl (fun s i =>
    let r := (nth {} j.steps i).req
    if r.inHost && (nth {} j.steps i).input.isEmpty then
      let s := readInput s j i port r.inAddr 0 r.fieldSpan false
      let heads := ((r.kbRefs.map refOff).eraseDups).filter fun o => r.fieldSpan ≤ o
      heads.foldl (fun s o => readInput s j i port r.inAddr o (Nat.min 16 (r.inLen - o)) true) s
    else s) s

/-- The rest of the key block at input offset `o` of step `i`, whose first bytes `d` have arrived and give its length: at most
256 bytes, within `IN_LEN` (R178, R225). -/
def readBlockRest (s : State) (j : Job) (i o : Nat) (d : Bytes) : State :=
  let r := (nth {} j.steps i).req
  match decNum (slice d 1 4) with
  | some n => if d.length < n && n ≤ 256 && o + n ≤ r.inLen then
      readInput s j i ((sqPort s j.sq).getD j.half) r.inAddr (o + d.length) (n - d.length) false else s
  | none => s

/-- The staging blocks that the data of a job with `n` bytes of input and output fill, from the gallery's first one on
(R160, entry 66). -/
def stageInput (s : State) (j : Job) (n : Nat) : State :=
  let mine := ((gv s j.gal).blocks.get j.half).take ((n + 4095) / 4096)
  updLaneHalf s j.half fun x => { x with residue := mine.foldl (fun t b => t.put 0 b (j.gal + 1)) x.residue }

/-- The predictor of queue `k` learns the cost of an entry that is read for its gallery (R156); it keeps the last 8 (DESIGN
CHOICE, entry 69). -/
def learn (s : State) (k cost : Nat) : State := updSq s k fun q => { q with predictor := (cost :: q.predictor).take 8 }

/-- A job whose entries are read and that stands in `s.jobs`: booked, charged, and its input reads issued; or set aside. -/
def admitJob (s : State) (id : Nat) (port : Half) : State :=
  match job s id with
  | none => s
  | some j =>
    let others := dropJob s id
    let room := j.origin != .queue || j.tookOver || holdNeed j ≤ holdRoom others (cqKey s j.sq)
    if j.early.isSome then if room then updJob s id fun j => { j with phase := .ruled } else setAside s j
    else
      let fills := fillsOf s j
      let budget := (gv s j.gal).fills.get j.half + fills.length ≤ (gv s j.gal).eff.get j.half + 1
      let entropy := j.draws.all fun i => !drbgNotReady s i
      let hand := !handoffPat (nth {} j.steps 0).req.pat || handRoom others j.half j.gal
      match bookJob others j with
      | some b =>
        if room && budget && entropy && hand then
          let s := updJob s id fun _ => { b with fills, phase := .reading }
          let s := updGv s j.gal fun v => { v with fills := v.fills.upd j.half (· + fills.length) }
          let s := if j.origin == .queue then learn s j.sq (sumNat (b.segs.map (·.len))) else s
          ruleJob (if j.origin == .queue then issueInputs s b port else s) id
        else setAside s j
      | none => setAside s j

/-- A new job of queue `k`: its entries, the index of the first. A chain that completes `BAD_CHAIN`, or whose entry read failed,
belongs to no batch and leaves an open one open; its `BAD_CHAIN` completion has `CHAIN` clear and DETAIL 0 (DESIGN CHOICE,
entry 70). -/
def addJob (s : State) (k index : Nat) (h : Half) (es : List Bytes) (early : Option Status) (port : Half) : State :=
  let q := sq s k
  let last := Req.of (es.getLast?.getD []) []
  let ordinary := early.isNone
  let j : Job :=
    { id := s.nextJob, gal := k / 64, sq := k, sqGen := q.gen.toNat, index, half := h, fetch := tick s
      steps := es.map fun e => { entry := e }, count := es.length, chain := 1 < es.length && ordinary, early
      batch := ordinary && last.batch, batchEnd := ordinary && last.batchEnd && last.batch, waitFrom := tick s }
  admitJob { s with nextJob := s.nextJob + 1, jobs := s.jobs ++ [j] } j.id port

/-! ### Entries that arrive (R120 to R122) -/

/-- `BATCH` flags of a chain stand where R122 allows them. -/
def chainFlagsOk (es : List Bytes) : Bool :=
  let rs := es.map fun e => Req.of e []
  (rs.dropLast.all fun r => !r.batch && !r.batchEnd) &&
    (match rs.getLast? with
      | some r => r.batch || !r.batchEnd
      | none => true)

/-- Where the queue stands after an entry: an open chain whose entries end at the sampled index is dropped and read again,
or completes `BAD_CHAIN` when the queue is full (R121, R122). -/
def chainWait (s : State) (k : Nat) (h port : Half) : State :=
  let q := sq s k
  if q.chainBuf.isEmpty || q.rd ≠ q.sampled then s
  else
    let first := (q.rd + modulus q.depthLog2 - q.chainBuf.length) % modulus q.depthLog2
    let gone := fun (s : State) => updGv s (k / 64) fun v => { v with chainSq := v.chainSq.set h none }
    if ringCount q.depthLog2 q.sampled q.ci = 2 ^ q.depthLog2 then
      gone (addJob (updSq s k fun q => { q with chainBuf := [], openChain := false }) k first h q.chainBuf (some .badChain) port)
    else gone (updSq s k fun q => { q with chainBuf := [], openChain := true, openAt := q.sampled, rd := first })

/-- One entry of a job queue at index `q.rd` (R121, R122). -/
def takeEntry (s : State) (k : Nat) (h port : Half) (e : Bytes) : State :=
  let q := sq s k
  let m := modulus q.depthLog2
  let i := q.rd
  let r := Req.of e []
  let n := q.chainBuf.length
  let first := (i + m - n) % m
  let endChain := fun (s : State) =>
    updGv (updSq s k fun q => { q with chainBuf := [], openChain := false }) (k / 64) fun v => { v with chainSq := v.chainSq.set h none }
  let s := updSq s k fun q => { q with rd := (i + 1) % m }
  let start := fun (s : State) =>
    if r.first && r.last then addJob s k i h [e] none port
    else if r.first then
      chainWait (updGv (updSq s k fun q => { q with chainBuf := [e] }) (k / 64) fun v => { v with chainSq := v.chainSq.set h (some (k % 64)) }) k h port
    else addJob s k i h [e] (some .badChain) port
  if n = 0 then start s
  else if r.first then start (addJob (endChain s) k first h q.chainBuf (some .badChain) port)
  else if r.last then
    let es := q.chainBuf ++ [e]
    addJob (endChain s) k first h es (if chainFlagsOk es then none else some .badChain) port
  else if n + 1 = 257 then addJob (endChain s) k first h (q.chainBuf ++ [e]) (some .badChain) port
  else chainWait (updSq s k fun q => { q with chainBuf := q.chainBuf ++ [e] }) k h port

/-- One entry of an admin queue (R115, R116). -/
def takeAdmin (s : State) (k : Nat) (h : Half) (e : Bytes) (unread : Bool) : State :=
  let q := sq s k
  if holdRoom s (cqKey s k) = 0 then asideEntry s k q.rd
  else
    let c : AdminCmd := { gal := k / 64, sq := k % 64, sqGen := q.gen.toNat, index := q.rd, half := h, entry := e, unread, seq := s.nextSeq }
    let s := { s with adm := s.adm ++ [c], nextSeq := s.nextSeq + 1 }
    updSq s k fun q => { q with rd := (q.rd + 1) % modulus q.depthLog2, busy := true }

/-- The next entry of a job that is read again (R173). Its form may have changed: a chain whose flags no longer make one
completes `BAD_CHAIN`. -/
def takeAgain (s : State) (j : Job) (port : Half) (e : Bytes) : State :=
  let s := updJob s j.id fun j => { j with steps := j.steps ++ [{ entry := e }], fetch := tick s }
  match job s j.id with
  | none => s
  | some j =>
    if j.steps.length < j.count then s
    else
      let rs := j.steps.map fun e => Req.of e.entry []
      let form := (nth (Req.of [] []) rs 0).first && (rs.getLast?.any (·.last)) && (rs.drop 1).all (fun r => !r.first) &&
        rs.dropLast.all (fun r => !r.last) && chainFlagsOk (j.steps.map (·.entry))
      let s := updJob s j.id fun j => { j with early := if form then none else some .badChain }
      admitJob s j.id port

/-! ### ENTRY_FETCH -/

/-- The queue can hand out an entry to half `h`: it exists, is served through `h`, waits for nothing, and its completion
queue is not stopped (R17, R128, R138, R564). -/
def fetchable (s : State) (h : Half) (k : Nat) : Bool :=
  let q := sq s k
  q.exist && !q.closing && !q.resetting && !q.aside && sqPort s k == some h && !(cq s (cqKey s k)).stopped &&
    !(s.reads.any fun r => match r.what with
      | .entry k' _ => k' = k
      | .input _ _ _ _ _ => false)

/-- Queue `k` holds an entry to read: sampled, and not an open chain that waits (R120, R121). -/
def hasEntry (s : State) (k : Nat) : Bool :=
  let q := sq s k
  q.rd ≠ q.sampled && (!q.admin || !q.busy) && !(q.openChain && q.openAt = q.sampled && q.chainBuf.isEmpty)

/-- The horizon has room for a cost of `n` slots (R152). -/
def horizonFits (s : State) (h : Half) (g n : Nat) : Bool :=
  n ≤ freeOwn s h g (tick s + 1) + freeOwn s h g (tick s + 2) ||
    ((gal s g).borrow && softUsed s h g + n ≤ (gv s g).allowance.get h)

/-- The horizon has room (R152). -/
def horizonRoom (s : State) (h : Half) (g : Nat) : Bool := horizonFits s h g 1

/-- The predictor's lookup for gallery `g` in queue `k` (R156): the least cost among the entries read most recently, 1 for
another gallery's queue or with nothing read (DESIGN CHOICE, entry 69). -/
def predicted (s : State) (g k : Nat) : Nat :=
  match (sq s k).predictor with
  | [] => 1
  | c :: t => if k / 64 = g then Nat.max 1 (t.foldl Nat.min c) else 1

/-- One more entry of queue `k` is requested before its contents are known: the horizon has room for its predicted cost, of
which no more than one lane-tick counts. -/
def wantsMore (s : State) (h : Half) (g k : Nat) : Bool := horizonFits s h g (Nat.min 8 (predicted s g k))

/-- A job of the gallery that is read again and has entries left to read, the lowest index first. -/
def nextAgain (s : State) (h : Half) (g : Nat) : Option Job :=
  let js := s.jobs.filter fun j => j.origin == .queue && j.gal = g && j.phase == .redo && j.waitFrom ≤ tick s && fetchable s h j.sq &&
    j.steps.length < j.count
  (sortBy (fun a b => ringCount (sq s a.sq).depthLog2 a.index (sq s a.sq).ci ≤ ringCount (sq s b.sq).depthLog2 b.index (sq s b.sq).ci) js).head?

/-- The program's job ring has a sampled entry to read and room for its completion (R410). -/
def ringReady (s : State) (h : Half) (g : Nat) : Bool :=
  match program s h g with
  | some p =>
    p.jobRd ≠ p.jobProd &&
      ringCount 4 p.jobDoneProd p.jobDoneCons + (s.jobs.filter fun j => j.origin == .program && j.gal = g && j.half == h).length < 16
  | none => false

/-- Queue indices in turn order, index 64 for the job ring (R120, R410). -/
def turnOrder (last : Option Nat) : List Nat :=
  match last with
  | some l => ((List.range 65).map fun i => (l + 1 + i) % 65)
  | none => List.range 65

/-- One entry of the program's job ring (R410). -/
def fetchInternal (s : State) (h : Half) (g : Nat) : State :=
  match program s h g with
  | none => s
  | some p =>
    let e := partRead s h p (0x600 + 64 * (p.jobRd % 16)) 64
    let r := Req.of e []
    let bad := !r.first || !r.last || r.batch
    let inp := if r.inHost && 0x1000 ≤ r.inAddr.toNat && r.inAddr.toNat + r.inLen ≤ partBytes s h g then
        partRead s h p r.inAddr.toNat r.inLen else []
    let j : Job :=
      { id := s.nextJob, origin := .program, gal := g, index := p.jobRd, half := h, fetch := tick s, steps := [{ entry := e, input := inp }]
        early := if bad then some .badChain else none, waitFrom := tick s }
    let s := updProgram s h g fun p => { p with jobRd := (p.jobRd + 1) % 32 }
    admitJob { s with nextJob := s.nextJob + 1, jobs := s.jobs ++ [j] } j.id h

/-- A partner's job that was set aside is booked again. -/
def nextPartner (s : State) (h : Half) (g : Nat) : Option Job :=
  s.jobs.find? fun j => j.origin == .partner && j.gal = g && j.half == h && j.phase == .redo && j.waitFrom ≤ tick s

/-- The read of one entry. -/
def readEntry (s : State) (h : Half) (k i : Nat) : State :=
  let q := sq s k
  let rid := s.nextRid
  let s := { s with nextRid := rid + 1, reads := s.reads ++ [⟨rid, h, tick s, .entry k i⟩] }
  emit s (.read rid h (entryAddr q.base q.depthLog2 64 i) 64)

/-- ENTRY_FETCH (R120): jobs to be executed again first, then the chain being read, then the queues in turn. -/
def execEntryFetch (h : Half) (g : Gallery) (s : State) : Out :=
  .next <|
    let g := g.toNat
    if !serving s h || s.gen.windowDone then s
    else if (gal s g).state == .active && (nextPartner s h g).isSome && horizonRoom s h g then
      match nextPartner s h g with
      | some j => admitJob s j.id h
      | none => s
    else match nextAgain s h g with
      | some j =>
        let q := sq s j.sq
        let i := (j.index + j.steps.length) % modulus q.depthLog2
        if horizonRoom s h g then readEntry (updJob s j.id fun j => { j with half := h, fetch := tick s }) h j.sq i else s
      | none =>
        let ok := fun q => let k := qkey g q
          (gal s g).state == .active && (if q = 64 then ringReady s h g && horizonRoom s h g
            else fetchable s h k && hasEntry s k && ((sq s k).admin || wantsMore s h g k))
        match (gv s g).chainSq.get h with
        | some q => if ok q then readEntry s h (qkey g q) (sq s (qkey g q)).rd else s
        | none =>
          match (turnOrder ((gv s g).lastSq.get h)).find? ok with
          | some q =>
            let s := updGv s g fun v => { v with lastSq := v.lastSq.set h (some q) }
            if q = 64 then fetchInternal s h g else readEntry s h (qkey g q) (sq s (qkey g q)).rd
          | none => s

/-! ### HOST_READ_RETURN -/

/-- The read's data arrive in time (R155). -/
def inTime (s : State) (r : ReadReq) (cycle : Nat) : Bool := cycle < 1200 && r.tick = tick s && !s.gen.windowDone

/-- The job whose entry is being read again from queue `k` at index `i`. -/
def againAt (s : State) (k i : Nat) : Option Job :=
  (jobsOf s k).find? fun j => j.phase == .redo && (j.index + j.steps.length) % modulus (sq s k).depthLog2 = i && i ≠ (sq s k).rd

/-- HOST_READ_RETURN (R121, R122, R155, R158). -/
def execHostReadReturn (rid : Nat) (cycle : Nat) (data : Bytes) (s : State) : Out :=
  .next <| match s.reads.find? (·.rid = rid) with
  | none => s
  | some r =>
    let s := { s with reads := s.reads.filter (·.rid ≠ rid) }
    match r.what with
    | .entry k i =>
      match againAt s k i with
      | some j =>
        if inTime s r cycle then takeAgain s j r.half (padTo 64 data)
        else updSq (updJob s j.id fun j => j.restart (tick s + 1) j.hold) k fun q => { q with aside := true }
      | none =>
        if !inTime s r cycle then asideEntry s k i
        else if (sq s k).admin then takeAdmin s k r.half (padTo 64 data) false
        else takeEntry s k r.half r.half (padTo 64 data)
    | .input id n o len head =>
      match job s id with
      | none => s
      | some j =>
        if j.phase != .reading then s
        else if !inTime s r cycle then setAside s j
        else
          let d := padTo len data
          let r := (nth {} j.steps n).req
          let s := updJob s id fun j => { j with steps := updNth j.steps n fun e =>
            { e with input := splice (padTo e.req.inLen e.input) o d, waits := e.waits - 1 } }
          let s := if head then readBlockRest s j n o d else s
          ruleJob (stageInput s j (r.inLen + r.outCap)) id

/-! ### PREPARATION (R160 to R164) -/

/-- A slot of this tick for a preparation of gallery `g` (R44): in its own lane-ticks, without confirmed work, not used for
another preparation. A slot that the gallery has borrowed always holds its confirmed work (R42). -/
def prepSlot (s : State) (h : Half) (g : Nat) : Option Booking :=
  let bs := heldSlots s h ++ (s.lanes.half.get h).prepSlots
  ((laneTicks s h (tick s)).filter fun e => e.2.1 = g + 1).findSome? fun e =>
    (freeRun (taken bs (some e.1) none) 1).map fun f => { tick := tick s, pos := some e.1, lane := none, first := f, len := 1 }

/-- Entries are prepared in the order in which they were read (R160): no entry read before `j` still awaits its turn. -/
def prepTurn (s : State) (j : Job) : Bool :=
  (s.jobs.find? fun x => x.gal = j.gal && x.half == j.half && x.unconfirmed && x.early.isNone && !x.tried).any (·.id = j.id)

/-- What preparation finds out for a job: the keys of its slots and of its key blocks, and its input. -/
def stagedOf (s : State) (j : Job) : Staged :=
  let slots := ((j.steps.flatMap fun e => e.req.slots).eraseDups).filterMap (keyFor s j.half j.gal)
  let blocks := j.steps.flatMap fun e => e.req.kbRefs.filterMap fun x =>
    (keyFor s j.half j.gal (refSlot x)).bind fun kek =>
      let (f, k) := kbOpen kek e.req.inp e.req.inLen (refOff x)
      if f = 0 then some k else none
  { gal := j.gal, job := j.id, keys := slots ++ blocks, data := (j.steps.flatMap (·.input)).take 512 }

/-- The preparation of `j` uses slot `b` of this tick; its values enter a context 16 to 31 of the slot's lane once every read has
returned (R145, R161). -/
def prepare (s : State) (j : Job) (b : Booking) (ok : Bool) : State :=
  let h := j.half
  let s := updJob s j.id fun j => { j with tried := true }
  let v := stagedOf s j
  updLaneHalf s h fun x =>
    let x := quenchContexts { x with prepSlots := x.prepSlots ++ [b] } (·.job = j.id)
    if ok && j.steps.all (·.waits = 0) then putContext x (laneAt s h b.tick (b.pos.getD 0)) 16 16 v else x

/-- PREPARATION: a fault is counted against its lane and the prepared values go (R164). -/
def execPreparation (id : Nat) (fault : Option (Fin 80)) (s : State) : Out :=
  .next <| match job s id with
  | none => s
  | some j =>
    if !j.unconfirmed || s.gen.windowDone || !serving s j.half || j.early.isSome || !prepTurn s j then s
    else match prepSlot s j.half j.gal, fault with
      | none, _ => s
      | some b, none => prepare s j b true
      | some b, some l =>
        if l.val / 40 ≠ halfNo j.half then s
        else
          let s := prepare s j b false
          let s := { s with lanes := { s.lanes with prepFault := satInc31 s.lanes.prepFault } }
          reportOnly s (halfSrc j.half 2) 0 l.val 0

end Sys2Proof.Machine
end

