-- ==== Sys2Proof/Machine/Lanes.lean ====
section
/-!
DEFINITION. Lanes: execution and its check (R147 to R149), retirement and takeover (R150, R151), confirmation (R30, R158,
R161, R162, R167, R169), the slot map of a tick (R34, R40, R42, R154), Patterns handed to a program (R407).
-/
namespace Sys2Proof.Machine

/-! ### DRBG requests (R460) -/

def drbgLimit (i : Nat) : Nat := if i < 2 then 2 ^ 24 else 2 ^ 16

/-- One request of an instance; at its limit it is EXHAUSTED. -/
def drawFrom (s : State) (i : Nat) : State :=
  setDrbg s i fun d =>
    { d with requests := d.requests + 1
             state := if d.state == .ready && drbgLimit i ≤ d.requests + 1 then .exhausted else d.state }

/-- `n` draws from instance `i`. -/
def drawMany (s : State) (i n : Nat) : State := (List.range n).foldl (fun s _ => drawFrom s i) s

def exhausted (s : State) (i : Nat) : Bool := (nth {} s.rng.drbg i).state == .exhausted

/-- A part of a job draws from an instance that delivers nothing (R463). -/
def mustWait (s : State) (j : Job) : Bool := !(j.segs.head?.any (·.unwrap)) && j.laneDraws.any (exhausted s)

/-! ### Execution (R147, R163) -/

/-- The job's booked slots lie in this tick and its lane runs (R27, R494). -/
def canRun (s : State) (j : Job) : Bool :=
  j.phase == .confirmed && (j.book.any fun b => b.tick = tick s) && !s.gen.windowDone && serving s j.half && !halfStopped s j.half

/-- The keys of the references `xs`, unwrapped into the job's context; one that fails its checks stays out. -/
def unwrapRefs (s : State) (j : Job) (xs : List Nat) : ChainCtx :=
  let r := j.req
  xs.foldl (fun c x =>
    if c.unwrapped.any (·.1 = x) then c
    else match slotFor s j (refSlot x) with
      | .inr kek =>
        let (f, k) := kbOpen kek r.inp r.inLen (refOff x)
        if f = 0 then { c with unwrapped := c.unwrapped ++ [(x, { k with slot := some (refSlot x) })] } else c
      | .inl _ => c) j.ctx

/-- LANE_CHECK with a unit that fails: a lane datapath fault of the lane. -/
def laneFault (s : State) (j : Job) (r : JobResult) : State :=
  let lane := leAt r.result 0 2
  if j.pat = 0x0F03 && r.status = .done && byteAt r.result 2 ≠ unitMask s lane then report s (halfSrc j.half 1) 1 lane 0 0 true else s

/-- The current part of a job executes; `ok`: its two computations agree. -/
def laneExec (s : State) (j : Job) (ok : Bool) : State :=
  let lane := laneOf s j
  match j.segs.head? with
  | some ⟨true, _, _, xs⟩ =>
    updJob s j.id fun j => { j with ctx := unwrapRefs s j xs, computed := none, phase := .ran, agree := ok, lane }
  | _ =>
    let res := j.computed.getD (runStep s j)
    let s := updJob s j.id fun j => { j with computed := some res, phase := .ran, agree := ok, lane }
    laneFault (j.laneDraws.foldl drawFrom (bump s)) j res

/-- LANE_EXECUTE (R27, R147). -/
def execLaneExecute (id : Nat) (checkOk : Bool) (s : State) : Out :=
  .next <| match job s id with
  | some j => if canRun s j && !handoffPat j.pat then laneExec s j checkOk else s
  | none => s

/-- HANDOFF_PATTERN: the lane part of a handoff Pattern (R405, R407). -/
def execHandoffPattern (id : Nat) (checkOk : Bool) (s : State) : Out :=
  .next <| match job s id with
  | some j => if canRun s j && handoffPat j.pat then laneExec s j checkOk else s
  | none => s

/-! ### Check comparison (R147 to R149) -/

/-- A failed check, counted against its lane. -/
def failCheck (s : State) (j : Job) : State :=
  let h := j.half
  let s := updLaneHalf s h fun x =>
    { x with mismatch := satInc31 x.mismatch
             lanes := updNth x.lanes (j.lane % 40) fun l => { l with fails := (tick s :: l.fails).take 256 } }
  report s (halfSrc h 0) 0 j.lane 0 1200 true

/-- The job has no slots any more: it waits under R34, and what it computed in a tick that has passed is gone. -/
def Job.unbook (j : Job) : Job := { j with book := none, book2 := none, book3 := none, computed := none }

/-- The job moves on to its next part. -/
def nextSeg (j : Job) : Job :=
  let rest := j.segs.drop 1
  { j with segs := rest, cur := ((rest.head?).map (·.step)).getD j.cur, book := j.book2, book2 := j.book3, book3 := none
           phase := .confirmed, computed := none, rerun := false, deadline := none }

/-- The slots of a job that moves on within the tick hold its work to the tick's end. -/
def holdSlots (s : State) (j : Job) : State := updLaneHalf s j.half fun x => { x with held := x.held ++ j.book.toList }

/-- The record and buffer of a handoff job, published (R407). -/
def publish (s : State) (j : Job) : State :=
  match program s j.half j.gal with
  | none => failJob s j .faultUnresolved 0x0E02 (tick s + 1)
  | some p =>
    let k := p.handProd % 16
    let e := j.step.entry
    let buf := 0x1000 + 0x800 * k
    let rec_ := e.take 0x18 ++ le 4 p.nextTicket ++ zeros 4 ++ (if j.req.inHost then le 8 buf else slice e 0x20 8) ++ slice e 0x28 24
    let s := partWrite s j.half p buf j.step.input
    let s := partWrite s j.half p (64 * k) rec_
    let s := updProgram s j.half j.gal fun p =>
      { p with handProd := (p.handProd + 1) % 32, nextTicket := (p.nextTicket + 1) % 2 ^ 32
               tickets := p.tickets ++ [(p.nextTicket, j.id, k, tick s + p.deadline)] }
    let s := holdSlots (signalPart s j.half) j
    partWords (updJob s j.id fun j => { j with phase := .handoff, book := none, computed := none, deadline := some (tick s + p.deadline) })
      j.half j.gal

/-- A Cupola operation waits for a unit (R261), with what its lane part drew. -/
def toCupola (s : State) (j : Job) : State :=
  let op : CupOp := { job := some j.id, gal := j.gal, confirm := j.confirmTick, sq := (sq s j.sq).id, index := j.index, lane := s.freeCtr }
  let s := updJob (holdSlots (bump s) j) j.id fun j => { j with phase := .cupola, book := none, computed := none }
  { s with cup := { s.cup with waiting := s.cup.waiting.upd j.half fun l => l ++ [op] } }

/-- The output of a chain's step, written in slot 0 of the next tick (R239). -/
def stepOutput (s : State) (j : Job) (r : JobResult) : State :=
  if r.output.isEmpty then s
  else match j.origin with
    | .queue => produce s j.sq j.sqGen true
        { silent := true, outs := outsOf j r, tick := tick s + 1, index := j.index }
    | _ => s

/-- One executed part whose check is compared. -/
def compareJob (s : State) (j : Job) : State :=
  if !j.agree then
    let s := failCheck s j
    if j.rerun then
      let s := { s with lanes := { s.lanes with unresolved := satInc31 s.lanes.unresolved } }
      if j.paired then updJob s j.id fun j => { j with phase := .pair, computed := some { status := .faultUnresolved }, book := none }
      else undelivered (failJob s j .faultUnresolved 0 (tick s + 1)) j.id
    else updJob s j.id fun j =>
      { j with phase := .confirmed, rerun := true, book := none, book2 := none, book3 := none, computed := none }
  else match j.computed with
    | none => updJob s j.id nextSeg
    | some r =>
      if j.paired then updJob s j.id fun j => { j with phase := .pair, computed := some r, book := none }
      else if r.status ≠ .done then endWith s j r (tick s + 1)
      else if 1 < j.segs.length then
        updJob (stepOutput s j r) j.id fun j =>
          let n := { nextSeg j with ctx := r.ctx, outBytes := j.outBytes + r.output.length }
          if r.output.isEmpty then n else { n with outStep := j.cur, outBefore := j.outBytes }
      else if cupolaPat j.pat then toCupola s j
      else if handoffPat j.pat then publish s j
      else endWith s j r (tick s + 1)

def compareAll (s : State) : State := (s.jobs.filter (·.phase == .ran)).foldl (fun s j => match job s j.id with
  | some j => compareJob s j
  | none => s) s

/-- The window that closes a tick without the execution of booked slots: the job waits (R34). -/
def missed (s : State) : State :=
  { s with jobs := s.jobs.map fun j =>
      if j.phase == .confirmed && (j.book.any fun b => b.tick ≤ tick s) then j.unbook else j }

/-! ### Retirement and takeover (R150, R151, R31) -/

/-- The last `limit` failed checks lie within the window. -/
def overLimit (fails : List Nat) (limit window t : Nat) : Bool :=
  limit ≤ fails.length && 0 < limit && t - nth 0 fails (limit - 1) < window

def retireLane (s : State) (h : Half) (l cause : Nat) : State :=
  let st := (nth {} (s.lanes.half.get h).lanes l).state
  if st == .retired || st == .off then s
  else updLaneHalf s h fun x =>
    let spare := (List.range 40).find? fun i => (nth {} x.lanes i).state == .spare
    let ls := updNth x.lanes l fun y => { y with state := .retired, cause := BitVec.ofNat 4 cause }
    { x with lanes := match spare with
        | some i => if st == .active && i ≠ l then updNth ls i fun y => { y with state := .active } else ls
        | none => ls }

/-- The retirement step of one half's lanes. -/
def retireLanes (s : State) (h : Half) : State :=
  match halfCfg s h with
  | none => s
  | some c =>
    let x := s.lanes.half.get h
    let worn := (List.range 40).filter fun i =>
      let l := nth {} x.lanes i
      (l.state == .active || l.state == .spare) && overLimit l.fails c.mismatchLimit c.mismatchWindow (tick s) &&
        l.fails.head? = some (tick s)
    let s := x.toRetire.foldl (fun s e => retireLane s h e.1 e.2) (updLaneHalf s h fun x => { x with toRetire := [] })
    worn.foldl (fun s i => report (retireLane s h i 1) (halfSrc h 1) 1 (40 * halfNo h + i) 0 1212 false) s

/-! ### Re-runs (R148) -/

/-- Jobs with slots in the last lane-tick of tick `t` give way until a run of `len` slots is free; the last placed is the one
whose slots start highest (DESIGN CHOICE, entry 67). -/
def displace (s : State) (h : Half) (t pos len : Nat) : Nat → State
  | 0 => s
  | n + 1 =>
    if (freeRun (taken (bookingsAt s h t) (some pos) none) len).isSome then s
    else
      let on := fun (b : Booking) => b.tick = t && b.pos = some pos
      let js := s.jobs.filter fun j => j.half == h && j.book.any on
      let last := js.foldl (fun a j => Nat.max a ((j.book.map (·.first)).getD 0)) 0
      let s := { s with jobs := s.jobs.map fun j =>
        if j.half == h && j.book.any (fun b => on b && b.first = last) then j.unbook else j }
      displace s h t pos len n

def placeRerun (s : State) (j : Job) : State :=
  let h := j.half
  let t := tick s + 1
  let len := ((j.segs.head?).map (·.len)).getD 1
  let bs := bookingsAt s h t
  let free := fun l => !(bs.any fun b => b.lane = some l)
  let lt := laneTicks s h t
  let spare := (List.range 40).find? fun l => (nth {} (s.lanes.half.get h).lanes l).state == .spare && free l
  let idle := (activeLanes s h).find? fun l => !(lt.any fun e => e.2.2 = l) && free l
  match spare, idle with
  | some l, _ | none, some l => updJob s j.id fun j => { j with book := some { tick := t, lane := some l, first := 0, len } }
  | none, none =>
    match lt.getLast? with
    | none => s
    | some e =>
      let s := displace s h t e.1 len 9
      match freeRun (taken (bookingsAt s h t) (some e.1) none) len with
      | some f => updJob s j.id fun j => { j with book := some { tick := t, pos := some e.1, first := f, len } }
      | none => s

def placeReruns (s : State) : State :=
  (s.jobs.filter fun j => j.phase == .confirmed && j.rerun && j.book.isNone).foldl (fun s j => match job s j.id with
    | some j =>
      if j.phase != .confirmed then s
      else if mustWait s j then updJob s j.id fun j => { j with deadline := some (j.deadline.getD (tick s + 3)) }
      else placeRerun (updJob s j.id fun j => { j with deadline := none }) j
    | none => s) s

/-! ### Confirmation (R30, R158 to R169) -/

/-- A bad copy that a fill of a confirmed job found in its half's own bank is rewritten from the good one (R294). -/
def rewriteCopy (h : Half) (s : State) (n : Nat) : State :=
  let b := s.srm.bank.get h
  if b.available && !b.stale.contains n && (goodCopy s h n).isNone then
    match goodCopy s (other h) n with
    | some r => rewriteFrom s h n r
    | none => s
  else s

/-- A key-block reference of a step hits (R162). -/
def kbHit (s : State) (j : Job) (i x : Nat) : Bool :=
  prepared s j || (kcFind (s.lanes.half.get j.half) j.gal (blockName (nth {} j.steps i).input x)).isSome

/-- Keys of the slots that the job names, as the records stand (R30). -/
def keysOf (s : State) (j : Job) : List (Option WorkKey) :=
  ((j.steps.flatMap fun e => e.req.slots).eraseDups).map (keyFor s j.half j.gal)

/-- The key-cache ways after the job: hits and fills (R167); a wide key never enters the cache (R256). -/
def cacheJob (s : State) (j : Job) : State :=
  let ways := (gv s j.gal).ways.get j.half
  let ready := prepared s j
  let s := ((j.steps.flatMap fun e => e.req.slots).eraseDups).foldl (fun s n =>
    match keyFor s j.half j.gal n with
    | some k => if wideAlg k.alg then s else updLaneHalf s j.half fun x => kcFill x j.gal ways (slotName n (dirEnt s n).gen) k
    | none => s) s
  j.steps.foldl (fun s e =>
    let r := e.req
    (r.kbRefs).foldl (fun s x =>
      let name := blockName e.input x
      if ready then
        match keyFor s j.half j.gal (refSlot x) with
        | some kek =>
          let (f, k) := kbOpen kek r.inp r.inLen (refOff x)
          if f = 0 then updLaneHalf s j.half fun y => kcFill y j.gal ways name { k with slot := some (refSlot x) } else s
        | none => s
      else updLaneHalf s j.half fun y => kcTouch y j.gal name) s) s

/-- Each hit releases 2 slots (R162). -/
def trimSeg (hit : Nat → Nat → Bool) (g : Seg) : Seg :=
  { g with len := g.len - 2 * (g.refs.filter (hit g.step)).length, refs := g.refs.filter fun x => !hit g.step x }

def trimBook (b : Option Booking) (g : Option Seg) : Option Booking :=
  b.bind fun b => g.map fun g => { b with len := g.len }

/-- The job as confirmation leaves it: keys fixed, variants fixed (R30, R162, R163). -/
def accept (s : State) (j : Job) : Job :=
  let keys := keysOf s j
  let hit := kbHit s j
  let segs := j.segs.map (trimSeg hit)
  let hits := j.segs.flatMap fun g => if g.unwrap then (g.refs.filter (hit g.step)).map fun x => (g.step, x) else []
  let j1 : Job :=
    { j with keys, segs, phase := .confirmed, accepted := true, confirmTick := tick s, soft := 0
             book := trimBook j.book segs[0]?, book2 := trimBook j.book2 segs[1]?, paired := pairedJob s j }
  let ctx := hits.foldl (fun (c : ChainCtx) e => unwrapRefs s { j1 with ctx := c, cur := e.1 } [e.2]) j1.ctx
  let j2 := { j1 with ctx }
  match segs.head? with
  | some g => if g.unwrap && g.len = 0 then nextSeg j2 else j2
  | none => j2

/-- Confirm or refuse one ruled job. -/
def confirmJob (s : State) (j : Job) : State :=
  let need := holdNeed j
  let s := if j.origin == .queue && !j.tookOver then
      updJob (reserve s (cqKey s j.sq) need) j.id fun j => { j with hold := need } else s
  let s := joinBatch s j
  match job s j.id with
  | none => s
  | some j =>
    match j.verdict with
    | some (st, d) =>
      let s := updLaneHalf s j.half fun x => { x with released := x.released ++ (j.book.toList ++ j.book2.toList ++ j.book3.toList) }
      failJob (updJob s j.id fun j => { j with confirmTick := tick s }) j st d (tick s + 2)
    | none =>
      let j' := accept s j
      let s := cacheJob s j
      let s := updJob s j.id fun _ => j'
      (j.fills.flatMap (slotSpan s)).foldl (rewriteCopy j.half) s

/-- A queue's job whose completion queue is full or in ERROR is not dispatched: it is set aside (R128, R130). -/
def held (s : State) (j : Job) : Bool := j.origin == .queue && (cq s (cqKey s j.sq)).stopped
/-- The hold has the entries that the job's confirmation reserves (R127). -/
def holdFits (s : State) (j : Job) : Bool := j.origin != .queue || j.tookOver || holdNeed j ≤ holdFree (cq s (cqKey s j.sq))
def confirmJobs (s : State) : State :=
  (s.jobs.filter fun j => j.phase == .ruled && serving s j.half && !(j.origin == .queue && (sq s j.sq).closing) &&
      ((gal s j.gal).state == .active || j.again)).foldl
    (fun s j => match job s j.id with
      | some j => if j.phase != .ruled then s else if held s j || !holdFits s j then setAside s j else confirmJob s j
      | none => s) s
/-- At the confirmation step the contexts of all jobs but the confirmed ones are quenched (R161, R169). -/
def quenchRefused (s : State) : State :=
  let keep := fun (v : Staged) => (job s v.job).any fun j => j.phase == .confirmed || j.phase == .ran
  { s with lanes := { s.lanes with half := s.lanes.half.map fun x => quenchContexts x fun v => !keep v } }

/-- Jobs whose reads have not all returned are set aside (R155). -/
def asideLate (s : State) : State :=
  let late := s.jobs.filter fun j => j.phase == .reading
  let s := late.foldl (fun s j => match job s j.id with
    | some j => setAside s j
    | none => s) s
  s.reads.foldl (fun s r => match r.what with
    | .entry k i => if (sq s k).admin then s else if (againAt s k i).isSome then
        (match againAt s k i with
          | some j => updJob { s with reads := s.reads.filter (·.rid ≠ r.rid) } j.id fun j => j.restart (tick s + 1) j.hold
          | none => s)
      else asideEntry { s with reads := s.reads.filter (·.rid ≠ r.rid) } k i
    | .input _ _ _ _ _ => s) s
/-- No entry of an open chain is kept across ticks: the chain is read again from its `FIRST` entry (R121). -/
def dropOpenChains (s : State) : State :=
  ((s.sqs.filter fun e => !e.2.chainBuf.isEmpty).map (·.1)).foldl (fun s k =>
    endTurn (updSq s k fun q => { q with rd := q.first, chainBuf := [] }) k) s

/-- Admin entries read before the window are confirmed in ascending order of queue identifier (R88, R89, R116); line
`ADMIN` rises for those that Floor firmware serves (R447). -/
def confirmAdmin (s : State) : State :=
  let cs := sortBy (fun (a b : AdminCmd) => (sq s a.key).id ≤ (sq s b.key).id)
    (s.adm.filter fun c => c.phase == .read && !(cq s (cqKey s c.key)).stopped && 0 < holdFree (cq s (cqKey s c.key)))
  cs.foldl (fun s c =>
    let n := s.nextSeq
    let s := reserve s (cqKey s c.key) 1
    let c' := { c with phase := AdmPhase.confirmed, seq := n, tick := tick s, cq := cqKey s c.key, cqGen := (cq s (cqKey s c.key)).gen }
    let s := { s with nextSeq := n + 1, adm := s.adm.map fun x => if x.seq = c.seq then c' else x }
    let floor := (admRow c.op).any fun r => !r.reserve
    let s := if floor then setIp s [match c.half with | .cope => 2 | .drag => 6] 5 else s
    if c.unread then completeAdmin s c' .dmaError 0 0 [] else s) s

/-! ### The slot map of tick `t` (R32, R34, R40, R42, R154, R463) -/

/-- The lane-tick of holder `w` serves gallery `g`: its own, or a lending gallery's for a borrower (R42, R43). -/
def ticksServe (s : State) (g w : Nat) : Bool := w = g + 1 || (w ≠ 0 && (gal s (w - 1)).lend && (gal s g).borrow)
/-- A booking still lies in a lane-tick that serves the gallery, on a lane that borrowers may use, or on a re-run lane (R32,
R42, R43, R148). -/
def bookingStands (s : State) (j : Job) (b : Booking) : Bool :=
  match b.pos with
  | some p => (laneTicks s j.half b.tick).any fun e => e.1 = p && (ticksServe s j.gal e.2.1 || j.rerun)
  | none =>
    match b.lane with
    | some l =>
      let st := (nth {} (s.lanes.half.get j.half).lanes l).state
      if j.rerun then st == .spare || (st == .active && !(laneTicks s j.half b.tick).any fun e => e.2.2 = l)
      else (gal s j.gal).borrow && (idleLanes s j.half b.tick).contains l
    | none => false
/-- Bookings that a change removed become waiting work; so does a part that must wait for an instance (R153, R463). -/
def revalidate (s : State) (t : Nat) : State :=
  { s with jobs := s.jobs.map fun j =>
      if j.phase == .confirmed then
        if (j.book.any fun b => b.tick = t && (!bookingStands s j b || mustWait s j)) then
          j.unbook
        else { j with book2 := j.book2.filter (bookingStands s j), book3 := j.book3.filter (bookingStands s j) }
      else j }

/-- Jobs that wait for slots in half `h`, in order of their reading. -/
def waitingJobs (s : State) (h : Half) : List Job :=
  s.jobs.filter fun j => j.half == h && j.phase == .confirmed && j.book.isNone && !j.rerun

/-- Place one waiting job in its gallery's own lane-ticks; one that must wait for an instance starts its wait. -/
def placeOwn (s : State) (j : Job) (t : Nat) : State :=
  if mustWait s j then
    updJob s j.id fun j => { j with deadline := some (j.deadline.getD (t + 2)) }
  else
    let len := ((j.segs.head?).map (·.len)).getD 1
    match findOwn s j.half j.gal t len with
    | some b => updJob s j.id fun j => { j with book := some b, deadline := none }
    | none => updJob s j.id fun j => { j with deadline := none }

/-- Borrowers in turn, after the one served last (R42). -/
def borrowers (s : State) (h : Half) : List Nat :=
  let bs := (galleries s).filter fun g => (gal s g).borrow
  match (s.lanes.half.get h).lastBorrower with
  | some l => bs.filter (fun g => l < g) ++ bs.filter (fun g => g ≤ l)
  | none => bs

def placeLent (s : State) (h : Half) (t : Nat) : State :=
  (borrowers s h).foldl (fun s g =>
    (waitingJobs s h |>.filter (·.gal = g)).foldl (fun s j =>
      if mustWait s j then s
      else match findLent s h g t (((j.segs.head?).map (·.len)).getD 1) with
        | some b =>
          updLaneHalf (updJob s j.id fun j => { j with book := some b, deadline := none }) h fun x => { x with lastBorrower := some g }
        | none => s) s) s

/-- The slot map of tick `t` in one half. -/
def mapHalf (s : State) (h : Half) (t : Nat) : State :=
  if serving s h then
    let s := (waitingJobs s h).foldl (fun s j => placeOwn s j t) s
    placeLent s h t
  else s

def slotMap (s : State) (t : Nat) : State :=
  let s := placeReruns (revalidate s t)
  mapHalf (mapHalf s .cope t) .drag t

/-- Slots that a gallery fills under R42 in tick `t`: its borrow allowance there (R152). -/
def lentSlots (s : State) (h : Half) (g t : Nat) : Nat :=
  let own := ((laneTicks s h t).filter fun e => e.2.1 = g + 1).map (·.1)
  sumNat ((s.jobs.filter fun j => j.half == h && j.gal = g && !j.rerun).map fun j =>
    match j.book with
    | some b => if b.tick = t && (match b.pos with
        | some p => !own.contains p
        | none => true) then b.len else 0
    | none => 0)

/-- The next step of a chain that has no slots yet is booked in the tick after next (R154); behind a re-run in the next tick, so
that the chain moves by one tick (R36). -/
def bookNext (s : State) (j : Job) (t : Nat) : State :=
  match j.book, j.book2, j.book3 with
  | some b, none, _ =>
    match j.segs[1]? with
    | some g => if b.tick ≤ t + 1 then updJob s j.id fun j =>
        { j with book2 := findOwn s j.half j.gal (if j.rerun then b.tick + 1 else t + 2) g.len } else s
    | none => s
  | some _, some b, none =>
    match j.segs[2]? with
    | some g => if b.tick ≤ t + 1 then updJob s j.id fun j => { j with book3 := findOwn s j.half j.gal (t + 2) g.len } else s
    | none => s
  | _, _, _ => s
/-- The next steps of the chains at the start of tick `t`, before any new entry is read. -/
def bookChains (s : State) (t : Nat) : State :=
  (s.jobs.filter fun j => j.phase == .confirmed && j.chain).foldl (fun s j =>
    match job s j.id with
    | some j => bookNext s j t
    | none => s) s
/-- Work that waits takes slots of its gallery's next two ticks ahead of the entries that the gallery reads next (R34, R154). -/
def bookWaiting (s : State) (h : Half) (t : Nat) : State :=
  (waitingJobs s h).foldl (fun s j =>
    if mustWait s j then s
    else match findTwo s j (t + 1) (((j.segs.head?).map (·.len)).getD 1) with
      | some b => updJob s j.id fun j => { j with book := some b, deadline := none }
      | none => s) s

end Sys2Proof.Machine
end

