-- ==== Sys2Proof/Machine/QueueOps.lean ====
section
/-!
DEFINITION. Queues as wholes: creation checks (R105, R111, R133 to R135), the end of a submission queue (R138, R139),
the reset of a completion queue (R140), the doorbells (R109, R110).
-/
namespace Sys2Proof.Machine

/-! ### Creation -/

/-- Vectors of a gallery's function (R559). -/
def vectorCount (s : State) (g : Nat) : Nat := if g = 0 then s.hst.vecPf.toNat else s.hst.vecVf.toNat

/-- The interrupt fields of a completion queue (R133). -/
def vectorOk (s : State) (g : Nat) (intEn : Bool) (vec count : Nat) : Bool :=
  !intEn || ((if g = 0 then 2 else 1) ≤ vec && vec < vectorCount s g && 0 < count)

/-- Depths that the part and its Mould take (R105). -/
def depthOk (s : State) (d : Nat) : Bool := 4 ≤ d && d ≤ 16 && d ≤ (limits s).maxDepth

def portEnabled (s : State) (p : Half) : Bool := (halfCfg s p).any (·.hostEn)

def aligned (a : BitVec 64) (n : Nat) : Bool := a.toNat % n = 0

/-- The fields of a new completion queue. -/
structure CqSpec where
  port : Nat
  depth : Nat
  hold : Nat
  intEn : Bool
  mirror : Bool
  vector : Nat
  count : Nat
  time : Nat
  base : BitVec 64
  mirrorAddr : BitVec 64

/-- Checks of QUEUE_CREATE_CQ at key `k`. -/
def cqCheck (s : State) (k : Nat) (x : CqSpec) : Option Status :=
  let g := k / 64
  if (cq s k).exist || 1 < x.port || !depthOk s x.depth || x.hold < 4 || 10 < x.hold || !aligned x.base 4096 ||
      (x.mirror && !aligned x.mirrorAddr 4) || !portEnabled s (halfOf x.port) || !vectorOk s g x.intEn x.vector x.count then
    some .badInput
  else if (gal s g).cqLimit ≤ (cqsOf s g).length || (limits s).maxCq ≤ cqCount s || 49152 < holdSum s + 2 ^ x.hold then some .quota
  else none

/-- A completion queue comes into being with the lowest free identifier and the next generation. -/
def makeCq (s : State) (k : Nat) (x : CqSpec) : State :=
  let id := freeCqId s
  updCq s k fun c =>
    { exist := true, id, gen := c.gen + 1, port := halfOf x.port, mirror := x.mirror, depthLog2 := x.depth, holdLog2 := x.hold
      intEn := x.intEn, vector := x.vector, modCount := x.count, modTime := x.time, base := x.base, mirrorAddr := x.mirrorAddr
      stale := c.stale, invalid := c.invalid }

/-- Checks of QUEUE_CREATE_SQ at key `k`, bound to completion queue index `q`. `fresh`: that queue is created with it. -/
def sqCheck (s : State) (k q depth : Nat) (base : BitVec 64) (fresh : Bool) : Option Status :=
  let g := k / 64
  if (sq s k).exist || 63 < q || !depthOk s depth || !aligned base 4096 || (!fresh && !(cq s (qkey g q)).exist) then some .badInput
  else if (gal s g).sqLimit ≤ (sqsOf s g).length || (limits s).maxSq ≤ sqCount s then some .quota
  else none

def makeSq (s : State) (k q depth : Nat) (base : BitVec 64) (admin : Bool) : State :=
  let id := freeSqId s
  let port := (cq s (qkey (k / 64) q)).port
  updSq s k fun x =>
    { exist := true, id, gen := x.gen + 1, port, admin, depthLog2 := depth, cq := q, base, stale := x.stale, invalid := x.invalid }

/-- Identifier and generation as in `SQ_ID`. -/
def idWord (id : Nat) (gen : BitVec 4) : Bytes := le 2 (id + 4096 * gen.toNat)

/-! ### The admin queue pair (R111, R112, R376) -/

def aqSpec (x : AdminPair) : CqSpec :=
  { port := b2n x.portB, depth := x.cqDepth.toNat, hold := 4, intEn := x.intEn, mirror := false, vector := x.vector.toNat
    count := 1, time := 0, base := x.cqBase, mirrorAddr := 0 }

/-- In an inspection session only gallery 0 has an admin pair. -/
def sessionBars (s : State) (g : Nat) : Bool := s.lcs.session && g ≠ 0

/-- The decision on an enable at the changes step of the next parting window after the write. -/
def decideAq (s : State) (g : Nat) : State :=
  let v := gv s g
  if !v.aq.deciding || tick s < v.aq.due then s
  else
    let ok := (gal s g).state == .active && !sessionBars s g && (cqCheck s (qkey g 0) (aqSpec v.aq)).isNone &&
      (sqCheck s (qkey g 0) 0 v.aq.sqDepth.toNat v.aq.sqBase true).isNone
    if ok then
      let s := makeSq (makeCq s (qkey g 0) (aqSpec v.aq)) (qkey g 0) 0 v.aq.sqDepth.toNat v.aq.sqBase true
      updGv s g fun v => { v with aq := { v.aq with ready := true, deciding := false } }
    else updGv s g fun v => { v with aq := { v.aq with refused := true, enable := false, deciding := false } }

/-! ### Destruction of a submission queue (R138, R139) -/

/-- The consumer index once everything held is written; in ERROR nothing held is ever written (R119, R130). -/
def finalCi (s : State) (k : Nat) : Nat :=
  let q := sq s k
  let c := cq s (cqKey s k)
  let rs := if c.error then [] else (c.hold.filter (·.sq = k)).flatMap (·.covers)
  advance q.depthLog2 (q.covered ++ rs) q.ci

/-- The operations `p` leave the queues and the units without a result; `counted`: in `CUP_ABANDONED` (R278). -/
def takeOps (s : State) (counted : Bool) (p : CupOp → Bool) : State :=
  let n := fun h => ((s.cup.waiting.get h).filter p).length + ((s.cup.units.get h).filter fun u => u.op.any p).length
  { s with cup := { s.cup with
      waiting := s.cup.waiting.map fun l => l.filter fun o => !p o
      units := s.cup.units.map fun us => us.map fun u => if u.op.any p then u.free else u
      abandoned := if counted then (List.range (n .cope + n .drag)).foldl (fun c _ => satInc31 c) s.cup.abandoned else s.cup.abandoned } }

/-- The Cupola operation of job `j` is abandoned (R273, R274). -/
def stopOp (s : State) (j : Job) : State := takeOps s true fun o => o.job = some j.id

/-- The ticket of a handoff job names no job any more: a later result has nothing to complete (R408). -/
def dropTicket (s : State) (j : Job) : State :=
  updProgram s j.half j.gal fun p => { p with tickets := p.tickets.filter fun t => t.2.1 ≠ j.id }

/-- Confirmed jobs of the queue that have not completed end `ABORTED`; a Cupola operation is abandoned (R138, R273). -/
def abortJobs (s : State) (k : Nat) : State :=
  (openJobs s k).foldl (fun s j => failJob (dropTicket (stopOp s j) j) j .aborted 0 (tick s + 1)) s

/-- The command that destroys queue `k` completes with the final consumer index. -/
def endDestroy (s : State) (k ci : Nat) : State :=
  match s.adm.find? fun c => c.phase == .running && c.op = 2 && c.gal = k / 64 && c.p 0 1 = k % 64 with
  | some c => doneWith s c (le 4 ci)
  | none => s

/-- A queue that is CLOSING enters it at tick `t`; entries read but not confirmed go. -/
def closeSq (s : State) (k : Nat) (resetting : Bool) : State :=
  dropUnread (updSq s k fun q => { q with closing := true, resetting, closeTick := tick s }) k

/-- The flush of a CLOSING queue whose jobs have all completed. -/
def flushSq (s : State) (k : Nat) : State :=
  let ck := cqKey s k
  let c := cq s ck
  let ci := finalCi s k
  let q := sq s k
  if c.error || !c.exist then
    removeSq (endDestroy (countStale s ck 1) k ci) k
  else if c.full || holdFree c = 0 then endDestroy (updSq s k fun q => { q with flushKept := true, closeTick := tick s + 1 }) k ci
  else
    let last := (c.hold.filter (·.sq = k)).foldl (fun a h => Nat.max a h.index) 0
    updSq (produce s k q.gen.toNat false (flushHeld (tick s + 1) last)) k fun q => { q with flushed := true }

/-- A flush in the hold whose completion queue has filled or failed meanwhile (R139). -/
def recheckFlush (s : State) (k : Nat) : State :=
  let ck := cqKey s k
  let c := cq s ck
  let waits := c.hold.any fun h => h.sq = k && h.fFlush && !h.issued
  if c.error || !c.exist then
    let ci := finalCi s k
    let s := countStale (updCq s ck fun c => { c with hold := c.hold.filter fun h => !(h.sq = k && h.fFlush), used := c.used - 1 }) ck 1
    removeSq (endDestroy s k ci) k
  else if c.full && waits then
    let ci := finalCi s k
    let s := updCq s ck fun c => { c with hold := c.hold.filter fun h => !(h.sq = k && h.fFlush), used := c.used - 1 }
    let t := ((c.hold.find? fun h => h.sq = k && h.fFlush).map (·.tick)).getD (tick s + 1)
    endDestroy (updSq s k fun q => { q with flushed := false, flushKept := true, closeTick := t }) k ci
  else s

/-- The flush completion of queue `k` is written: the queue is released (R138). -/
def flushWritten (s : State) (k : Nat) : State :=
  let ci := (sq s k).ci
  removeSq (endDestroy s k ci) k

/-! ### QUEUE_RESET (R140) -/

/-- The submission queues that a reset of completion queue `k` takes. -/
def resetSet (s : State) (k : Nat) : List Nat :=
  (sqsOf s (k / 64)).filter fun x => (sq s x).resetting && (sq s x).cq = k % 64

/-- The end of a reset: indices to 0, generations, flush completions in ascending order of identifier. -/
def finishReset (s : State) (k : Nat) (c : AdminCmd) : State :=
  let qs := sortBy (fun a b => (sq s a).id ≤ (sq s b).id) (resetSet s k)
  let bad := (cq s k).error
  let s := qs.foldl discardHeld s
  let s := if bad then
      let n := ((cq s k).hold.filter fun h => !h.silent).length
      countStale (updCq s k fun c => { c with hold := [] }) k n
    else s
  let s := qs.foldl (fun s q =>
    let s := releaseJobs (dropUnread s q) q
    let s := { s with jobs := s.jobs.filter fun j => !(j.sq = q && j.origin == .queue) }
    updSq s q fun x =>
      { exist := true, id := x.id, gen := x.gen + 1, port := x.port, admin := x.admin, depthLog2 := x.depthLog2, cq := x.cq
        base := x.base, stale := x.stale, invalid := x.invalid, away := x.away }) s
  let s := ((sqsOf s (k / 64)).filter fun q => (sq s q).flushKept && (sq s q).cq = k % 64).foldl (fun s q =>
    updSq s q fun x => { x with closeTick := tick s + 2 }) s
  let fl := qs.map fun q =>
    { flushHeld (tick s + 1) 0 with sq := q, sqId := (sq s q).id, sqGen := (sq s q).gen.toNat }
  let s := updCq s k fun c =>
    { c with
      gen := c.gen + 1, pi := 0, ci := 0, error := false, unsignalled := 0, stopped := false
      used := fl.length + (c.hold.filter fun h => !h.silent).length
      hold := fl ++ c.hold.map fun h => { h with tick := Nat.max h.tick (tick s + 1) } }
  done s c

/-- A running QUEUE_RESET at a changes step: jobs are aborted in the window after its own, and the reset ends in a later
one when nothing is on its way to the completion queue. -/
def stepReset (s : State) (c : AdminCmd) : State :=
  let k := qkey c.gal (c.p 0 1)
  let qs := resetSet s k
  if !(cq s k).exist then done s c
  else if tick s = c.mark + 1 then qs.foldl abortJobs s
  else if tick s ≤ c.mark then s
  else if !(cq s k).error && (cq s k).hold.any (fun h => h.issued) then s
  else finishReset (qs.foldl abortJobs s) k c

/-! ### The changes step for queues that end -/

/-- A disabled admin pair (R112): its jobs are aborted as by QUEUE_DESTROY_SQ, and once its completions are written, or its
completion queue is in ERROR, it is released without a flush; the completion queue too where no other queue is bound to it. -/
def endPair (s : State) (k : Nat) : State :=
  let s := abortJobs s k
  let c := cq s (cqKey s k)
  if c.exist && !c.error && c.hold.any (fun h => h.sq = k) then s
  else
    let s := removeSq s k
    let s := if (sqsOf s (k / 64)).any fun x => (sq s x).cq = 0 then s else removeCq s (qkey (k / 64) 0)
    pairGone s (k / 64)

def stepClosing (s : State) (k : Nat) : State :=
  let q := sq s k
  if !q.exist || !q.closing || q.resetting || q.flushKept then s
  else if k % 64 = 0 && (gv s (k / 64)).aq.closing then if q.closeTick < tick s then endPair s k else s
  else if q.flushed then recheckFlush s k
  else if q.closeTick < tick s then flushSq (abortJobs s k) k
  else s

/-- Queue destructions and resets in the changes step of a parting window. -/
def closeQueues (s : State) : State :=
  let s := ((s.sqs.filter fun e => e.2.closing).map (·.1)).foldl stepClosing s
  let s := (s.adm.filter fun c => c.phase == .running && c.op = 4).foldl stepReset s
  (s.adm.filter fun c => c.phase == .running && c.op = 2).foldl (fun s c =>
    if (sq s (qkey c.gal (c.p 0 1))).exist then s else doneWith s c (le 4 c.mark)) s

/-! ### Doorbells (R109, R110) -/

/-- A producer-index write (R110): whether the part takes it. -/
def sqIndexOk (q : Sq) (i : Nat) : Bool :=
  let m := modulus q.depthLog2
  i < m && ringCount q.depthLog2 i q.ci ≤ 2 ^ q.depthLog2 && ringCount q.depthLog2 i q.pi ≤ ringCount q.depthLog2 i q.ci

/-- A consumer-index write of a completion queue (R110). -/
def cqIndexOk (c : Cq) (i : Nat) : Bool :=
  i < modulus c.depthLog2 && ringCount c.depthLog2 i c.ci ≤ ringCount c.depthLog2 c.pi c.ci

/-- The gallery takes doorbells: it exists and is not CLOSING (R82, R94). -/
def doorbellsLive (s : State) (g : Nat) : Bool := (gal s g).state == .active

def sqDoorbell (s : State) (k : Nat) (val : Word) : State :=
  if !doorbellsLive s (k / 64) then s
  else
    let q := sq s k
    if !q.exist || q.gen.toNat ≠ fld val 31 28 then updSq s k fun q => { q with stale := satInc 65535 q.stale }
    else if !sqIndexOk q (fld val 16 0) then updSq s k fun q => { q with invalid := satInc 32767 q.invalid }
    else updSq s k fun q => { q with pi := fld val 16 0 }

def cqDoorbell (s : State) (k : Nat) (val : Word) : State :=
  if !doorbellsLive s (k / 64) then s
  else
    let c := cq s k
    if !c.exist || c.gen.toNat ≠ fld val 31 28 then updCq s k fun c => { c with stale := satInc 65535 c.stale }
    else if !cqIndexOk c (fld val 16 0) then updCq s k fun c => { c with invalid := satInc 32767 c.invalid }
    else updCq s k fun c => { c with ci := fld val 16 0 }

end Sys2Proof.Machine
end

