-- ==== Sys2Proof/Machine/QueueCmds.lean ====
section
/-!
DEFINITION. Queue commands (R137 to R140), the admin pair's enable (R111, R112), the doorbell rows, issue and
acknowledgement of completions (R130 to R132, R139, R170, R171).
-/
namespace Sys2Proof.Machine

/-! ### Admin commands 0x00 to 0x06 -/

def CqSpec.of (c : AdminCmd) : CqSpec :=
  { port := c.p 1 1, depth := c.p 2 1, hold := c.p 3 1, intEn := nbit (c.p 4 1) 0, mirror := nbit (c.p 4 1) 1
    vector := c.p 5 2, count := c.p 7 2, time := c.p 9 2, base := BitVec.ofNat 64 (c.p 11 8), mirrorAddr := BitVec.ofNat 64 (c.p 19 8) }

/-- QUEUE_CREATE_CQ. -/
def execQueueCreateCq (g : Gallery) (q : QIndex) (s : State) : Out :=
  .next <| runAdmin s g q 0x00 fun s c =>
    let i := c.p 0 1
    if i = 0 || 63 < i || 3 < c.p 4 1 then fails s c .badInput
    else
      let k := qkey c.gal i
      match cqCheck s k (CqSpec.of c) with
      | some st => fails s c st
      | none =>
        let s := makeCq s k (CqSpec.of c)
        doneWith s c (idWord (cq s k).id (cq s k).gen)

/-- QUEUE_CREATE_SQ; in an inspection session job queues are not created (R376). -/
def execQueueCreateSq (g : Gallery) (q : QIndex) (s : State) : Out :=
  .next <| runAdmin s g q 0x01 fun s c =>
    let i := c.p 0 1
    let base := BitVec.ofNat 64 (c.p 4 8)
    if i = 0 || 63 < i || 1 < c.p 3 1 then fails s c .badInput
    else if s.lcs.session && c.p 3 1 = 0 then fails s c .reserveBusy
    else
      let k := qkey c.gal i
      match sqCheck s k (c.p 1 1) (c.p 2 1) base false with
      | some st => fails s c st
      | none =>
        let s := makeSq s k (c.p 1 1) (c.p 2 1) base (c.p 3 1 = 1)
        doneWith s c (idWord (sq s k).id (sq s k).gen)

/-- QUEUE_DESTROY_SQ (R138): the changes steps of the following windows end it. -/
def execQueueDestroySq (g : Gallery) (q : QIndex) (s : State) : Out :=
  .next <| runAdmin s g q 0x02 fun s c =>
    let k := qkey c.gal (c.p 0 1)
    if c.p 0 1 = 0 || 63 < c.p 0 1 || !(sq s k).exist || (sq s k).closing then fails s c .badInput
    else keepRunning (updAdm (closeSq s k false) c fun x => { x with mark := finalCi s k }) c

/-- QUEUE_DESTROY_CQ. -/
def execQueueDestroyCq (g : Gallery) (q : QIndex) (s : State) : Out :=
  .next <| runAdmin s g q 0x03 fun s c =>
    let k := qkey c.gal (c.p 0 1)
    if c.p 0 1 = 0 || 63 < c.p 0 1 || !(cq s k).exist || (sqsOf s c.gal).any (fun x => (sq s x).cq = c.p 0 1) then
      fails s c .badInput
    else done (removeCq s k) c

/-- QUEUE_RESET (R140). -/
def execQueueReset (g : Gallery) (q : QIndex) (s : State) : Out :=
  .next <| runAdmin s g q 0x04 fun s c =>
    let k := qkey c.gal (c.p 0 1)
    if c.p 0 1 = 0 || 63 < c.p 0 1 || !(cq s k).exist then fails s c .badInput
    else
      let qs := (sqsOf s c.gal).filter fun x => (sq s x).cq = c.p 0 1 && !(sq s x).closing
      let s := qs.foldl (fun s x => closeSq s x true) s
      keepRunning (updAdm s c fun x => { x with mark := tick s }) c

/-- QUEUE_SET_MODERATION. -/
def execQueueSetModeration (g : Gallery) (q : QIndex) (s : State) : Out :=
  .next <| runAdmin s g q 0x05 fun s c =>
    let k := qkey c.gal (c.p 0 1)
    let on := nbit (c.p 1 1) 0
    if 63 < c.p 0 1 || 1 < c.p 1 1 || !(cq s k).exist || !vectorOk s c.gal on (c.p 2 2) (c.p 4 2) then fails s c .badInput
    else done (updCq s k fun x => { x with intEn := on, vector := c.p 2 2, modCount := c.p 4 2, modTime := c.p 6 2 }) c

/-- A command of the queue waits: its execution has not begun, or it is an ARCHIVE_WRITE that waits for its card. -/
def waitsIn (s : State) (a : AdminCmd) (k id : Nat) : Bool :=
  a.key = k && leAt a.entry 4 2 = id && !a.unread &&
    (a.phase == .confirmed || (a.phase == .running && a.op = 0x35 && s.arc.write.any fun w => w.gal = a.gal && w.sq = a.sq && w.waitCard))

/-- QUEUE_ABORT. -/
def execQueueAbort (g : Gallery) (q : QIndex) (s : State) : Out :=
  .next <| runAdmin s g q 0x06 fun s c =>
    let k := qkey c.gal (c.p 0 1)
    if 63 < c.p 0 1 || !(sq s k).exist || !(sq s k).admin then fails s c .badInput
    else match s.adm.find? fun a => a.seq ≠ c.seq && waitsIn s a k (c.p 1 2) with
      | none => fails s c .badInput
      | some a =>
        let s := if a.phase == .running then closeArcWrite s else s
        done (fails s a .aborted) c

/-! ### The admin pair -/

/-- The fields of GAL_AQ_CTRL other than `ENABLE`, which a write sets while `READY` is 0 (R112). -/
def aqFields (x : AdminPair) (val : Word) : AdminPair :=
  { x with
    vector := BitVec.ofNat 11 (fld val 30 20), intEn := bit val 19, portB := bit val 16, cqDepth := BitVec.ofNat 5 (fld val 15 11)
    sqDepth := BitVec.ofNat 5 (fld val 10 6) }

/-- The tick of the next parting window. -/
def windowTick (s : State) : Nat := if s.gen.windowDone then tick s + 1 else tick s

/-- A write to GAL_AQ_CTRL (R111, R112). A pair that `ENABLE` 0 destroys is CLOSING from the next parting window's tick and
READY until it is released, and a later `ENABLE` 1 does not stop it (DEDUCED, entry 85). -/
def aqWrite (s : State) (g : Nat) (val : Word) : State :=
  if (gal s g).state != .active then s
  else
    let v := gv s g
    if v.aq.ready then
      if bit val 0 || v.aq.closing then s
      else
        let t := windowTick s
        let s := updSq (closeSq s (qkey g 0) false) (qkey g 0) fun q => { q with closeTick := t }
        updGv s g fun v => { v with aq := { v.aq with enable := false, closing := true } }
    else updGv s g fun v =>
      let aq := aqFields v.aq val
      { v with aq := { aq with refused := false, enable := bit val 0, deciding := bit val 0, due := windowTick s } }

/-- The window through which software reaches a gallery takes writes: the function's reset is over (R561). -/
def windowOpen (s : State) (p : Half) (fn : Nat) : Bool := (fnCfg s p fn).flrEnd.isNone

/-- AQ_ENABLE_WRITE (R111). -/
def execAqEnableWrite (p : Half) (g : Gallery) (val : Word) (s : State) : Out :=
  .next (if windowOpen s p g.toNat then aqWrite s g.toNat (val ||| 1) else s)

/-- AQ_ENABLE_DECIDE (R111): between the window and the end of its tick. -/
def execAqEnableDecide (g : Gallery) (s : State) : Out :=
  .next (if s.gen.windowDone then decideAq s g.toNat else s)

/-- AQ_DISABLE (R112). -/
def execAqDisable (p : Half) (g : Gallery) (s : State) : Out :=
  .next (if windowOpen s p g.toNat && (gv s g.toNat).aq.ready then aqWrite s g.toNat 0 else s)

/-! ### Doorbells -/

/-- SQ_DOORBELL_WRITE (R109, R110). -/
def execSqDoorbellWrite (p : Half) (g : Gallery) (q : QIndex) (val : Word) (s : State) : Out :=
  .next (if windowOpen s p g.toNat then sqDoorbell s (qkey g.toNat q.toNat) val else s)

/-- CQ_DOORBELL_WRITE (R109, R110). -/
def execCqDoorbellWrite (p : Half) (g : Gallery) (q : QIndex) (val : Word) (s : State) : Out :=
  .next (if windowOpen s p g.toNat then cqDoorbell s (qkey g.toNat q.toNat) val else s)

/-! ### Issue and acknowledgement -/

/-- The item that completion queue `k` issues next (R128, R129). -/
def nextItem (s : State) (k : Nat) : Option Held :=
  let c := cq s k
  let room := !c.error && ringCount c.depthLog2 (c.pi + (c.hold.filter (·.issued)).length) c.ci < 2 ^ c.depthLog2
  c.hold.find? fun h => !h.issued && h.tick ≤ tick s && (room || !h.outsIssued && !h.outs.isEmpty)

/-- Latency of the job whose completion, or whose output writes in a batch, an item issues (R516). -/
def recItem (s : State) (h : Held) : State :=
  match h.job with
  | some id => match job s id with
    | some j => if h.silent && j.phase != .finished || h.outsIssued then s else recLatency s j (tick s)
    | none => s
  | none => s

/-- OUTPUT_COMPLETION_ISSUE (R128, R129, R131, R170). -/
def execOutputCompletionIssue (g : Gallery) (q : QIndex) (s : State) : Out :=
  let k := qkey g.toNat q.toNat
  .next <| match nextItem s k, cqPort s k with
  | some h, some p => if (cq s k).exist then issueItem (recItem s h) k p else s
  | _, _ => s

/-- COMPLETION_WRITTEN (R119, R127, R170): the oldest completion on its way is acknowledged. -/
def execCompletionWritten (g : Gallery) (q : QIndex) (s : State) : Out :=
  let k := qkey g.toNat q.toNat
  let c := cq s k
  .next <| if c.error then s else match c.hold.find? (·.issued) with
  | none => s
  | some h =>
    let s := updCq s k fun c =>
      { c with
        hold := takeFirst (·.issued) c.hold, pi := (c.pi + 1) % modulus c.depthLog2, used := c.used - 1
        oldest := if c.unsignalled = 0 then tick s else c.oldest, unsignalled := c.unsignalled + 1 }
    let s := coverWritten s h
    let s := if h.fFlush && (sq s h.sq).closing then flushWritten s h.sq else s
    match s.lcs.resetAfter with
    | some a => if a = h.sq && (sq s h.sq).admin then deviceReset s 4 else s
    | none => s

/-- JOB_DELIVERED (R171): every output write of the job is acknowledged. -/
def execJobDelivered (id : Nat) (s : State) : Out :=
  .next <| match job s id with
  | some j => if j.outSent then updJob s id fun j => { j with delivered := true } else s
  | none => s

/-- MODERATION_TIME_EXPIRY (R132): the test at the end of the tick finds the time up for the oldest completion not signalled
yet. It is made once, after the tick's parting window. -/
def execModerationTimeExpiry (g : Gallery) (q : QIndex) (s : State) : Out :=
  .next <| if s.gen.windowDone then testCq s (qkey g.toNat q.toNat) false else s

/-- CQ_WRITE_ERROR (R130): what was on its way stays in the hold. -/
def execCqWriteError (g : Gallery) (q : QIndex) (s : State) : Out :=
  let k := qkey g.toNat q.toNat
  .next (updCq s k fun c =>
    if c.exist then { c with error := true, hold := c.hold.map fun h => { h with issued := false } } else c)

/-- FLUSH_DEFERRED_WRITE (R139): the completion queue has room, so the kept flush enters the hold. -/
def execFlushDeferredWrite (g : Gallery) (q : QIndex) (s : State) : Out :=
  let k := qkey g.toNat q.toNat
  let x := sq s k
  let c := cq s (cqKey s k)
  .next <| if x.exist && x.closing && x.flushKept && c.exist && !c.error && !c.full && 0 < holdFree c then
      let last := (c.hold.filter (·.sq = k)).foldl (fun a h => Nat.max a h.index) 0
      updSq (produce s k x.gen.toNat false (flushHeld x.closeTick last)) k fun q => { q with flushKept := false, flushed := true }
    else s

/-! ### HOST_DMA_ERROR (R130) -/

/-- A failed entry read of queue `k` at index `i`. -/
def entryError (s : State) (k i : Nat) (h port : Half) : State :=
  let q := sq s k
  let m := modulus q.depthLog2
  if q.admin then
    if holdRoom s (cqKey s k) = 0 then asideEntry s k i else takeAdmin s k h (zeros 64) true
  else
    let n := q.chainBuf.length
    let first := (i + m - n) % m
    let s := updGv (updSq s k fun q => { q with rd := (i + 1) % m, chainBuf := [], openChain := false }) (k / 64) fun v =>
      { v with chainSq := v.chainSq.set h none }
    let id := s.nextJob
    let es := if n = 0 then [zeros 64] else q.chainBuf ++ [zeros 64]
    let s := addJob s k (if n = 0 then i else first) h es (some .dmaError) port
    updJob s id fun j => { j with cmdUnread := n = 0, chain := n ≠ 0 }

/-- A job whose entry could not be read leaves its batch, which stays open (entry 70). -/
def leaveBatch (q : Sq) (j : Job) : Sq :=
  { q with batches := (q.batches.map fun b =>
      if b.members.any (·.job = j.id) then
        { b with members := b.members.filter (·.job ≠ j.id), ended := if j.batchEnd then none else b.ended }
      else b).filter fun b => !b.members.isEmpty || b.ended.isSome }

/-- A read for an entry that is executed again fails (R130, R173): the completion covers that entry alone, or the chain's
entries from `FIRST` through the failed one. The queue is read on from the entry behind; its other confirmed jobs there start
again from their own entries. -/
def againError (s : State) (j : Job) (port : Half) : State :=
  let q := sq s j.sq
  let m := modulus q.depthLog2
  let n := j.steps.length + 1
  let rest := (List.range (j.count - n)).map fun i => (j.index + n + i) % m
  let s := release (updSq s j.sq fun q => leaveBatch q j) (cqKey s j.sq) (j.hold - 1)
  let s := updJob s j.id fun j =>
    { j with steps := j.steps ++ [{ entry := zeros 64 }], early := some .dmaError, cmdUnread := j.steps.isEmpty
             chain := !j.steps.isEmpty, count := n, batch := false, batchEnd := false, hold := Nat.min 1 j.hold }
  let s := admitJob s j.id port
  rest.foldl (fun s i =>
    let r : Job :=
      { id := s.nextJob, gal := j.gal, sq := j.sq, sqGen := j.sqGen, index := i, half := j.half, fetch := tick s, phase := .redo
        again := true, late := true, waitFrom := tick s }
    { s with nextJob := s.nextJob + 1, jobs := s.jobs ++ [r] }) s

/-- Drop the newest `n` completions of queue `k` in the outputs, and its mirror writes. -/
def dropSent (s : State) (k n : Nat) : State :=
  let c := cq s k
  let one := fun (x : HostOut) (a : List HostOut × Nat) => match x with
    | .completion g q _ _ _ => if g = k / 64 && q = k % 64 && 0 < a.2 then (a.1, a.2 - 1) else (x :: a.1, a.2)
    | .write _ addr _ => if c.mirror && addr = c.mirrorAddr then a else (x :: a.1, a.2)
    | _ => (x :: a.1, a.2)
  { s with out := { s.out with host := (s.out.host.foldr one ([], n)).1 } }

/-- From the first issued completion that satisfies `p`, no completion is issued. -/
def takeBack (p : Held → Bool) : List Held → List Held
  | [] => []
  | h :: t => if h.issued && p h then (h :: t).map fun x => { x with issued := false } else h :: takeBack p t

/-- An output write of a job fails after its completion was issued behind it (R170): that completion and the later ones of
its queue, none of them written yet, are taken back and issued again. -/
def takeBackSent (s : State) (j : Job) : State :=
  let k := cqKey s j.sq
  let sent := fun (l : List Held) => (l.filter (·.issued)).length
  let l := takeBack (fun h => h.job = some j.id || h.jobs.contains j.id) (cq s k).hold
  let n := sent (cq s k).hold - sent l
  if n = 0 then s
  else
    let s := updCq (dropSent s k n) k fun c => { c with hold := l }
    match cqPort s k with
    | some p => if sent l = 0 then s else mirrorWrite s k p
    | none => s

/-- HOST_DMA_ERROR (R130, R118). -/
def execHostDmaError (t : DmaTarget) (s : State) : Out :=
  .next <| match t with
  | .read rid =>
    match s.reads.find? (·.rid = rid) with
    | none => s
    | some r =>
      let s := { s with reads := s.reads.filter (·.rid ≠ rid) }
      match r.what with
      | .entry k i => match againAt s k i with
        | some j => againError s j r.half
        | none => entryError s k i r.half r.half
      | .input id n o _ _ =>
        let open' := (job s id).any fun j => j.phase == .reading
        if !open' then s
        else
          let failed := fun (e : Step) => if e.verdict = some .dmaError then e
            else { e with verdict := some .dmaError, detail := if o = 0 then 1 else 2 }
          let s := updJob s id fun j => { j with steps := updNth j.steps n fun e => failed { e with waits := e.waits - 1 } }
          ruleJob s id
  | .outputWrite id =>
    match job s id with
    | none => s
    | some j =>
      if j.origin != .queue || !(j.outSent || (j.chain && 0 < j.outBytes)) || j.delivered then s
      else
        let (s, n) := unproduce (takeBackSent s j) j
        let s := updSq (updJob s id fun j => { j with hold := j.hold + n, outs := [] }) j.sq fun q => reopenBatch q id
        let last := j.phase == .finished && !j.outs.isEmpty
        completeJob s id .dmaError (if !j.chain then 3 else if last then j.cur else j.outStep)
          (if !j.chain then 0 else if last then j.outBytes else j.outBefore) [] [] j.chain (tick s + 1)

end Sys2Proof.Machine
end

