-- ==== Sys2Proof/Machine/CupolaOps.lean ====
section
/-!
DEFINITION. Cupola units: credits and starting (R264 to R266), intake and comparison (R261 to R263, R268, R269),
retirement (R270, R271), stopping (R273, R274), the rows of the Cupola Patterns (R250 to R260).
-/
namespace Sys2Proof.Machine

def updCup (s : State) (f : Cupola → Cupola) : State := { s with cup := f s.cup }
def cupUnits (s : State) (h : Half) : List CupUnit := s.cup.units.get h
def updUnit (s : State) (h : Half) (u : Nat) (f : CupUnit → CupUnit) : State :=
  updCup s fun c => { c with units := c.units.upd h fun us => updNth us u f }
def setWaiting (s : State) (h : Half) (l : List CupOp) : State := updCup s fun c => { c with waiting := c.waiting.set h l }

/-- The half of a unit, and its number there (R7). -/
def unitHalf (u : Nat) : Half := if u < 9 then .cope else .drag

/-- A unit that takes no operation at the moment: under an assay, or the assay waits for its operation to end (R272). -/
def underAssay (s : State) (h : Half) (u : Nat) : Bool :=
  (s.lanes.half.get h).assay.any fun a => a.cupola && a.unit = u

/-! ### Credits (R264) -/

/-- Operations of gallery `g` that occupied a unit of the half in the closing tick. -/
def occupied (s : State) (h : Half) (g : Nat) : Nat :=
  ((cupUnits s h).filter fun u => (u.op.any fun o => o.gal = g && o.job.isSome && 1 ≤ o.age) || u.left = some g).length

def hasCupWork (s : State) (h : Half) (g : Nat) : Bool :=
  (s.cup.waiting.get h).any (fun o => o.gal = g && o.job.isSome) || (cupUnits s h).any fun u => u.op.any fun o => o.gal = g && o.job.isSome

/-- One gallery's credit after a slot-map step; `r`: its operations that occupied a unit, `work`: one waits or runs. -/
def creditStep (k : Int) (c r : Nat) (work : Bool) : Int :=
  let k := k + c - 16 * r
  if work then min k 4096 else min k 0

/-- The credits of the galleries of half `h` with a Cupola share, once in the slot-map step of a parting window. -/
def updateCredits (s : State) (h : Half) : State :=
  if !serving s h || s.cup.credited.get h then s
  else (galleries s).foldl (fun s g =>
    let c := (gal s g).cupola
    if c = 0 then s
    else updGv s g fun v => { v with credit := v.credit.upd h fun k => creditStep k c (occupied s h g) (hasCupWork s h g) })
    (updCup s fun c => { c with credited := c.credited.set h true })

/-! ### Starting (R265, R266, R463) -/

def CupOp.before (a b : CupOp) : Bool :=
  a.confirm < b.confirm || (a.confirm = b.confirm && (a.sq < b.sq || (a.sq = b.sq && a.index ≤ b.index)))

/-- The operation draws from the key-generation instance, which delivers nothing (R463). -/
def opMustWait (s : State) (o : CupOp) : Bool :=
  match o.job.bind (job s) with
  | some j => exhausted s 2 && cupolaPat j.pat
  | none => false

def oldest (l : List CupOp) : Option CupOp := (sortBy CupOp.before l).head?

/-- Start `o` on unit `u`. -/
def startOp (s : State) (h : Half) (u : Nat) (o : CupOp) : State :=
  let s := setWaiting s h (takeFirst (fun x => x = o) (s.cup.waiting.get h))
  let s := match o.job with
    | some id => updJob s id fun j => { j with deadline := none }
    | none => s
  updUnit s h u fun x => { x with op := some { o with age := 0, len := 2 }, mask := false }

/-- The gallery that starts next, with its value (R265). -/
def pickGallery (s : State) (h : Half) (ready : List CupOp) (started : List Nat) : Option Nat :=
  let v := fun g => (gv s g).credit.get h - 16 * ((started.filter (· = g)).length : Int)
  let gs := (galleries s).filter fun g => ready.any (fun o => o.gal = g && o.job.isSome) && 0 ≤ v g
  gs.foldl (fun (a : Option Nat) g => match a with
    | some b => if v b < v g then some g else a
    | none => some g) none

/-- Free active units in ascending number take operations. -/
def startGo (h : Half) : List Nat → List Nat → State → State
  | [], _, s => s
  | u :: us, started, s =>
    let ready := (s.cup.waiting.get h).filter fun o => !opMustWait s o
    match ready.find? fun o => o.job.isNone with
    | some o => startGo h us started (startOp s h u o)
    | none =>
      match oldest (ready.filter fun o => o.rerun) with
      | some o => startGo h us started (startOp s h u o)
      | none =>
        match pickGallery s h ready started with
        | some g => match oldest (ready.filter fun o => o.gal = g && o.job.isSome) with
          | some o => startGo h us (g :: started) (startOp s h u o)
          | none => s
        | none => startGo h us started s

def freeUnit (s : State) (h : Half) (u : Nat) (st : UnitState) : Bool :=
  let x := nth {} (cupUnits s h) u
  x.state == st && x.op.isNone && !underAssay s h u

/-- The lowest-numbered free spare takes the oldest re-run (R269). -/
def startRerun (s : State) (h : Half) : State :=
  (List.range 9).foldl (fun s u =>
    if freeUnit s h u .spare then
      match oldest ((s.cup.waiting.get h).filter fun o => o.rerun && !opMustWait s o) with
      | some o => startOp s h u o
      | none => s
    else s) s

/-- Waiting operations of an exhausted instance start their wait (R463). -/
def waitEntropy (s : State) (h : Half) : State :=
  ((s.cup.waiting.get h).filter (opMustWait s)).foldl (fun s o => match o.job with
    | some id => updJob s id fun j => { j with deadline := some (j.deadline.getD (tick s + 3)) }
    | none => s) s

/-- Reserve firmware's next work for half `h` waits for a unit, unless one of its operations waits or runs there (R266). -/
def feedReserve (s : State) (h : Half) : State :=
  let own := fun o : CupOp => o.job.isNone
  if s.atr.restarting || (s.cup.waiting.get h).any own || (cupUnits s h).any (fun u => u.op.any own) then s
  else match s.cup.reserve.find? fun w => w.half.all (· == h) with
    | none => s
    | some w =>
      let s := updCup s fun c => { c with reserve := takeFirst (fun x => x = w) c.reserve }
      setWaiting s h ((s.cup.waiting.get h) ++ [{ job := none, work := some w, gal := 0, confirm := tick s }])

def startUnits (s : State) (h : Half) : State :=
  let s := startRerun (waitEntropy (feedReserve s h) h) h
  startGo h ((List.range 9).filter fun u => freeUnit s h u .active) [] s

/-- CUPOLA_START: the slot-map step of half `h` (R261, R264, R265). A share change that acts in this window acts before it
(R28, R88). -/
def execCupolaStart (h : Half) (s : State) : Out :=
  .next (if s.gen.windowDone && serving s h && !halfStopped s h then startUnits (updateCredits s h) h else s)

/-! ### Reserve operations (R266) -/

/-- A serving half that `half` allows has an active unit. -/
def canReserve (s : State) (half : Option Half) : Bool :=
  [Half.cope, Half.drag].any fun h => half.all (· == h) && serving s h && (cupUnits s h).any fun u => u.state == .active

/-- Reserve work that waits or runs. -/
def resWorks (s : State) : List ResWork :=
  let ops := s.cup.waiting.cope ++ s.cup.waiting.drag ++ (s.cup.units.cope ++ s.cup.units.drag).filterMap (·.op)
  s.cup.reserve ++ ops.filterMap (·.work)

/-- `f` uses the results of the operations of `ticks` for `owner`. The first asking queues them, and `f` takes effect when it is
asked again after their end; where no unit can take them, their results are there at once (R266, entry 38). -/
def reserveOp (s : State) (owner : Bytes) (ticks : List Nat) (half : Option Half) (f : State → State) : State :=
  if ticks.isEmpty || !canReserve s half then f s
  else if s.cup.resDone.contains owner then f (updCup s fun c => { c with resDone := c.resDone.filter (· != owner) })
  else if (resWorks s).any (·.owner == owner) then s
  else updCup s fun c => { c with reserve := c.reserve ++ [{ owner, ticks, half }] }

/-- Owners of Reserve work: an admin command, or what else firmware answers. -/
def cmdOwner (c : AdminCmd) : Bytes := [0] ++ be 8 c.seq

/-- The next operation of the work, or its end. -/
def finishWork (s : State) (w : ResWork) : State :=
  updCup s fun c => match w.ticks.drop 1 with
    | [] => { c with resDone := (w.owner :: c.resDone).take 64 }
    | t => { c with reserve := { w with ticks := t } :: c.reserve }

/-! ### Intake and result (R261 to R263, R268, R269) -/

/-- The operation of a unit ends; its mask register is cleared (R276). -/
def freeOp (s : State) (h : Half) (u : Nat) : State := updUnit s h u CupUnit.free

/-- A failed check of a unit. -/
def failUnit (s : State) (h : Half) (u : Nat) : State :=
  let s := updCup s fun c => { c with mismatch := c.mismatch.upd h satInc31 }
  let s := updUnit s h u fun x => { x with fails := (tick s :: x.fails).take 256 }
  report s (halfSrc h 4) 0 (9 * halfNo h + u) 0 1200 true

/-- CUPOLA_INTAKE_VERDICT: the second tick of an operation ends (R259, R261, R262). -/
def execCupolaIntakeVerdict (u : Fin 18) (s : State) : Out :=
  .next <|
    let h := unitHalf u.val
    let n := u.val % 9
    let x := nth {} (cupUnits s h) n
    match x.op with
    | none => s
    | some o =>
      if o.age ≠ 2 || x.mask || s.gen.windowDone || halfStopped s h then s
      else match o.job.bind (job s) with
        | none => if o.job.isSome then s
          else updUnit s h n fun x => { x with mask := true, op := some { o with len := (o.work.bind (·.ticks.head?)).getD 2 } }
        | some j =>
          let c := cxOf s j s.freeCtr o.lane
          let draw := s.freeCtr
          let s := drawFrom (bump s) 2
          let s := updUnit s h n fun x => { x with mask := true, op := some { o with draw, len := cupTicks c } }
          match intakeVerdict c with
          | none => s
          | some r => endWith (freeOp s h n) j r (tick s + 1)

/-- The result of a running operation; `none` when EC_SIGN draws a new k (R253). -/
def opResult (s : State) (j : Job) (o : CupOp) : Option JobResult := cupResult (cxOf s j o.draw o.lane)

/-- Two results that differ (R269). -/
def opMismatch (s : State) (h : Half) (n : Nat) (o : CupOp) (j : Job) : State :=
  let s := failUnit (freeOp s h n) h n
  if o.rerun then
    undelivered (failJob s j .faultUnresolved 0 (tick s + 1)) j.id
  else setWaiting (updJob s j.id fun j => { j with computed := none }) h
    ((s.cup.waiting.get h) ++ [{ o with rerun := true, age := 0, len := 0 }])

/-- A Reserve operation ends; one whose results differ runs again until they agree (R269, entry 38). -/
def reserveResult (s : State) (h : Half) (n : Nat) (o : CupOp) (agree : Bool) : State :=
  if agree then o.work.elim (freeOp s h n) (finishWork (freeOp s h n))
  else
    let s := failUnit (freeOp s h n) h n
    setWaiting s h ((s.cup.waiting.get h) ++ [{ o with rerun := true, age := 0, len := 0 }])

/-- CUPOLA_RESULT_COMPARE: the last tick of an operation (R261, R263, R268, R269). -/
def execCupolaResultCompare (u : Fin 18) (agree atInfinity : Bool) (s : State) : Out :=
  .next <|
    let h := unitHalf u.val
    let n := u.val % 9
    let x := nth {} (cupUnits s h) n
    match x.op with
    | none => s
    | some o =>
      if !x.mask || o.age < o.len || s.gen.windowDone || halfStopped s h then s
      else match o.job.bind (job s) with
        | none => if o.job.isSome then s else reserveResult s h n o agree
        | some j =>
          if !agree then opMismatch s h n o j
          else if atInfinity && j.pat = 0x0903 then
            endWith (failUnit (freeOp s h n) h n) j { status := .badInput, detail := 0x0010 } (tick s + 1)
          else match (match j.computed with
              | some r => some r
              | none => opResult s j o) with
            | some r =>
              endWith (recCupola (freeOp s h n) (cupolaKind j.pat)) j r (tick s + 1)
            | none =>
              let s' := drawFrom (bump s) 2
              updUnit s' h n fun x =>
                { x with op := some { o with draw := s.freeCtr, len := o.len + cupTicks (cxOf s j o.draw o.lane) - 2 } }

/-! ### Retirement (R270, R271) -/

def retireUnit (s : State) (h : Half) (u cause : Nat) : State :=
  let x := nth {} (cupUnits s h) u
  if x.state == .retired || x.state == .off then s
  else
    let s := match x.op with
      | some o =>
        let s := setWaiting (freeOp s h u) h ((s.cup.waiting.get h) ++ [{ o with rerun := true, age := 0, len := 0 }])
        match o.job with
        | some id => updJob s id fun j => { j with computed := none }
        | none => s
      | none => s
    let spare := (List.range 9).find? fun i => freeUnit s h i .spare && i ≠ u
    let s := updUnit s h u fun y => { y with state := .retired, cause := BitVec.ofNat 4 cause }
    match spare with
    | some i => if x.state == .active then updUnit s h i fun y => { y with state := .active } else s
    | none => s

/-- The retirement step of one half's Cupola units. -/
def retireUnits (s : State) (h : Half) : State :=
  match halfCfg s h with
  | none => s
  | some c =>
    let worn := (List.range 9).filter fun i =>
      let x := nth {} (cupUnits s h) i
      (x.state == .active || x.state == .spare) && overLimit x.fails c.mismatchLimit c.mismatchWindow (tick s) &&
        x.fails.head? = some (tick s)
    let want := s.cup.toRetire.get h
    let s := updCup s fun c => { c with toRetire := c.toRetire.set h [] }
    let s := want.foldl (fun s e => retireUnit s h e.1 e.2) s
    worn.foldl (fun s i => report (retireUnit s h i 1) (halfSrc h 5) 1 (9 * halfNo h + i) 0 1212 false) s

/-! ### Stopping (R273, R274) -/

/-- Operations of jobs that a function-level reset abandoned: stopped in the changes step, and counted (R273). -/
def dropOrphans (s : State) : State := takeOps s true fun o => o.job.any fun id => (job s id).isNone

/-- Slots `ns` are destroyed or rewritten: operations that read one of them are abandoned and complete in slot 0 of the
next tick (R274). -/
def abandonOps (s : State) (ns : List Nat) : State :=
  (s.jobs.filter fun j => j.phase == .cupola && j.req.slots.any fun n => ns.contains n).foldl (fun s j =>
    let st := if j.req.slots.any (fun n => ns.contains n && (dirEnt s n).state == .empty) then Status.slotEmpty else .keyRefused
    failJob (stopOp s j) j st 0 (tick s + 1)) s

/-! ### The rows of the Cupola Patterns -/

/-- A Cupola Pattern computes: its lane part in the booked slot, or the operation on its unit after intake. -/
def cupolaCompute (s : State) (id n : Nat) : State :=
  match job s id with
  | none => s
  | some j =>
    if j.phase == .cupola && j.pat = n then
      let run := ((s.cup.units.get j.half).filterMap fun u => if u.mask then u.op else none).find? fun o => o.job = some id
      match run with
      | some o => match opResult s j o with
        | some r => updJob s id fun j => { j with computed := some r }
        | none => s
      | none => s
    else computePat s id n (patFn n)

/-- EC_SIGN. -/
def execEcSign (id : Nat) (s : State) : Out := .next (cupolaCompute s id 0x0900)
/-- EC_VERIFY. -/
def execEcVerify (id : Nat) (s : State) : Out := .next (cupolaCompute s id 0x0901)
/-- EC_KEYGEN. -/
def execEcKeygen (id : Nat) (s : State) : Out := .next (cupolaCompute s id 0x0902)
/-- ECDH_DERIVE. -/
def execEcdhDerive (id : Nat) (s : State) : Out := .next (cupolaCompute s id 0x0903)
/-- RSA_PRIVATE. -/
def execRsaPrivate (id : Nat) (s : State) : Out := .next (cupolaCompute s id 0x0910)
/-- RSA_PUBLIC. -/
def execRsaPublic (id : Nat) (s : State) : Out := .next (cupolaCompute s id 0x0911)
/-- RSA_KEYGEN. -/
def execRsaKeygen (id : Nat) (s : State) : Out := .next (cupolaCompute s id 0x0912)
/-- MLDSA_SIGN. -/
def execMldsaSign (id : Nat) (s : State) : Out := .next (cupolaCompute s id 0x0920)
/-- MLDSA_VERIFY. -/
def execMldsaVerify (id : Nat) (s : State) : Out := .next (cupolaCompute s id 0x0921)
/-- MLDSA_KEYGEN. -/
def execMldsaKeygen (id : Nat) (s : State) : Out := .next (cupolaCompute s id 0x0922)
/-- MLKEM_ENCAPS. -/
def execMlkemEncaps (id : Nat) (s : State) : Out := .next (cupolaCompute s id 0x0930)
/-- MLKEM_DECAPS. -/
def execMlkemDecaps (id : Nat) (s : State) : Out := .next (cupolaCompute s id 0x0931)
/-- MLKEM_KEYGEN. -/
def execMlkemKeygen (id : Nat) (s : State) : Out := .next (cupolaCompute s id 0x0932)
/-- TR34_ENVELOPE. -/
def execTr34Envelope (id : Nat) (s : State) : Out := .next (cupolaCompute s id 0x0510)

/-! ### Registers (R278) -/

def cupSummary (s : State) (h : Half) : Word :=
  let us := cupUnits s h
  let n := fun st => (us.filter fun u => u.state == st).length
  let busy := ((List.range 9).filter fun u => (nth {} us u).op.isSome || underAssay s h u && (nth {} us u).op.isNone).length
  if us.isEmpty || (s.mld.runHalf.get h).isNone then 0
  else word [(n .off, 0), (n .retired, 4), (n .spare, 8), (n .active, 12), (busy, 16)]

def UnitState.code : UnitState → Nat
  | .off => 0 | .spare => 1 | .active => 2 | .assay => 3 | .retired => 4

def Role.code : Role → Nat
  | .active => 0 | .spare => 1 | .off => 2

/-- Failed checks within the last window (R150). -/
def recentFails (s : State) (h : Half) (fails : List Nat) : Nat :=
  let w := ((halfCfg s h).map (·.mismatchWindow)).getD 0
  Nat.min 255 ((fails.filter fun t => tick s - t < w).length)

def cupState (s : State) (u : Nat) : Word :=
  let h := unitHalf u
  let x := nth {} (cupUnits s h) (u % 9)
  word [(x.role.code, 0), (x.state.code, 8), (b2n (x.op.isSome || underAssay s h (u % 9)), 11), (x.cause.toNat, 16), (recentFails s h x.fails, 24)]

end Sys2Proof.Machine
end

