-- ==== Sys2Proof/Machine/SlotOps.lean ====
section
/-!
DEFINITION. Ceremony uses (R335, R339, R340), Slot Update Messages (R299 to R305), slot destruction (R306, R307), the
background steps of the Strongroom (R48, R294, R297, R309 to R315).
-/
namespace Sys2Proof.Machine

/-! ### Using a ceremony (R335, R339, R340) -/

def cerOf (s : State) (ref : Nat) : Option (Nat × Ceremony) :=
  (List.range 8).findSome? fun c => match nth none s.cus.cer c with
    | some x => if x.ref.toNat = ref then some (c, x) else none
    | none => none

/-- A command of gallery `g` cites `ref` for `purpose` and gallery field `gal`: whether it is authorised, and the
ceremony's secret. Its last use ends the ceremony. -/
def useCer (s : State) (g ref purpose gal : Nat) : Bool × Bytes × State :=
  match cerOf s ref with
  | none => (false, [], s)
  | some (c, x) =>
    if x.complete && 0 < x.uses && x.purpose = purpose && x.gallery = gal && x.opener = g then
      let s := updCus s fun u => { u with cer := setNth u.cer c (some { x with uses := x.uses - 1 }) }
      (true, lineCipher s (24 + c) 0 x.secret, if x.uses = 1 then endCeremony s c else s)
    else (false, [], s)

/-! ### Attributes and material (R287, R288, R303) -/

/-- KEY_LEN values of an algorithm. -/
def keyLenFits (alg n : Nat) : Bool :=
  match alg with
  | 0x01 => n = 16 | 0x02 => n = 24 | 0x03 => n = 16 | 0x04 => n = 24 | 0x05 => n = 32
  | 0x06 => 16 ≤ n && n ≤ 64
  | 0x10 => n = 32 | 0x11 => n = 48 | 0x12 => n = 66
  | 0x20 => n = 640 | 0x21 => n = 960 | 0x22 => n = 1280
  | 0x30 => n = 32 | 0x31 => n = 64
  | _ => false

/-- Usage bits that an algorithm allows. -/
def usageAllowed (alg i : Nat) : Bool :=
  if alg ≤ 5 then i ≤ 21
  else if alg = 6 then 19 ≤ i && i ≤ 21
  else if alg ≤ 0x12 then i = 22 || i = 23
  else if alg = 0x31 then i = 24
  else i = 22

/-- An attribute word that a message may carry for `alg` (check 1). -/
def attrOk (alg : Nat) (a : Word) : Bool :=
  let usage := (List.range 25).filter fun i => bit a i
  !usage.isEmpty && usage.all (usageAllowed alg) && !bit a 25 && !bit a 26 && !bit a 27 && !bit a 31 && (!bit a 28 || alg ≤ 6)

def dualControl (a : Word) : Bool := bit a 30
def replicated (a : Word) : Bool := bit a 29

/-- Material that check 8 takes. -/
def materialOk (alg : Nat) (m : Bytes) : Bool :=
  let strip := fun (b : Bytes) => b.map fun x => x &&& 0xFE
  match alg with
  | 0x01 => strip (m.take 8) != strip (slice m 8 8)
  | 0x02 => !(strip (m.take 8) == strip (slice m 8 8) && strip (m.take 8) == strip (slice m 16 8))
  | 0x10 => scalarOk 1 (fromBe m)
  | 0x11 => scalarOk 2 (fromBe m)
  | 0x12 => scalarOk 3 (fromBe m)
  | 0x20 | 0x21 | 0x22 =>
    let l := m.length / 5
    byteAt m 0 ≥ 128 && byteAt m l ≥ 128
  | _ => true

/-- Material as it is stored: a TDES key with odd parity (R304). -/
def stored (alg : Nat) (m : Bytes) : Bytes := if alg = 1 || alg = 2 then oddParity m else m

/-! ### Applying a change to a slot (R304, R306, R543) -/

/-- A changed slot joins the pair's pending list; the list overflows into RESYNC (R543). -/
def addPending (s : State) (g n : Nat) : State :=
  let p := s.spn.pairs.get {} g
  if p.state == .none || !p.policy.getLsbD 0 then s
  else if p.pending.contains n then s
  else if 1024 ≤ p.pending.length then
    updSpn s fun x => { x with pairs := x.pairs.put {} g { p with state := .resync, pending := [], inFlight := [] } }
  else updSpn s fun x => { x with pairs := x.pairs.put {} g { p with pending := p.pending ++ [n] } }

/-- The current record of a slot. -/
def recNow (s : State) (n : Nat) : Option Rec := slotRec s .cope n

/-- Records of a slot are written, record `p` with 80 bytes of `m` from 80p on, and the directory, the key-cache lines and
running operations follow (R159, R274, R286, R304). -/
def putSlot (s : State) (n : Nat) (mk : Nat → Rec) (m : Bytes) : State :=
  let ns := slotSpan s n
  let part := fun p => slice m (80 * p) (Nat.min 80 (m.length - 80 * p))
  let s := ns.foldl (fun s k => drawFrom (writeRec s k (mk (k - n)) (part (k - n))) 2) s
  let s := refreshDir s ns
  abandonOps (dropLines s (mapEnt s n).owner ns) ns

/-- A key or an attribute word takes effect (R304). -/
def applyKey (s : State) (n alg : Nat) (attr : Word) (hash keyLen : Nat) (m : Bytes) (replicate : Bool) : State :=
  let g := (mapEnt s n).owner
  let gen := slotGen s n
  let old := recNow s n
  let s := putSlot s n (fun p => { gal := g, alg, attr, gen, part := p, hash, keyLen }) m
  if replicate && (replicated attr || old.any fun r => replicated r.attr) then addPending s g n else s

/-- Material of a slot as its records hold it. -/
def slotMaterial (s : State) (n : Nat) : Bytes :=
  match slotKey s .cope n with
  | some k => k.material
  | none => []

/-- A slot is emptied (R306 steps 2 and 3): jobs confirmed until window `w` that have not executed by the end of `w + 2`
are abandoned (R307). -/
def emptySlot (s : State) (n : Nat) (w : Nat) (replicate : Bool) : State :=
  let g := (mapEnt s n).owner
  let gen := slotGen s n
  let ns := slotSpan s n
  let old := recNow s n
  let s := putSlot s n (fun p => emptyRec g gen.toNat p) []
  let s : State := { s with jobs := s.jobs.map fun j =>
    if j.accepted && !j.chain && j.phase != .finished && j.phase != .cupola && (j.steps.any fun e => e.req.slots.any ns.contains) then
      { j with abandon := some (Nat.min (j.abandon.getD (w + 2)) (w + 2)) } else j }
  if replicate && old.any (fun r => replicated r.attr) then addPending s g n else s

/-- Jobs whose abandonment is due and that have not executed (R307). -/
def abandonDue (s : State) : State :=
  (s.jobs.filter fun j => (j.abandon.any fun t => t ≤ tick s) && (j.phase == .confirmed || j.phase == .redo)).foldl
    (fun s j => failJob s j .slotEmpty 0 (tick s + 1)) s

/-! ### The checks of a Slot Update Message (R303) -/

structure Sum where
  op : Nat
  signer : Nat
  wrap : Nat
  alg : Nat
  slot : Nat
  attr : Word
  counter : Nat
  keyLen : Nat
  hash : Nat
  parts : Nat
  part : Nat
  epk : Bytes
  wrapped : Bytes
  sig : Bytes
  /-- Bytes from offset 0 to the end of `WRAPPED`. -/
  signed : Bytes
  raw : Bytes

def Sum.of (m : Bytes) : Sum :=
  let e := leAt m 0x4C 2
  let w := leAt m 0x4E 2
  { op := byteAt m 5, signer := byteAt m 6, wrap := byteAt m 7, alg := byteAt m 0x39, slot := leAt m 0x3A 2
    attr := BitVec.ofNat 32 (leAt m 0x3C 4), counter := leAt m 0x40 8, keyLen := leAt m 0x48 2, hash := byteAt m 0x4A
    parts := byteAt m 0x4B / 16, part := byteAt m 0x4B % 16, epk := slice m 0x80 e, wrapped := slice m (0x80 + e) w
    sig := slice m (0x80 + e + w) (leAt m 0x50 2), signed := m.take (0x80 + e + w), raw := m }

/-- Parts of a key, and bytes of material in each (R302). -/
def Sum.total (x : Sum) : Nat := if x.op = 1 && wideAlg x.alg then x.keyLen / 320 else 1
def Sum.size (x : Sum) : Nat := if x.op = 2 then 0 else if wideAlg x.alg then 320 else x.keyLen

/-- Check 1 on one message of `len` bytes. -/
def Sum.structureOk (x : Sum) (len : Nat) : Bool :=
  let m := x.raw
  let sig := nth 0 [0, 96, 4627, 0, 16] x.signer
  let epk := nth 0 [0, 97, 1568, 12] x.wrap
  let w := if x.wrap = 0 then 0 else if x.wrap = 3 then x.size else 8 * ((x.size + 7) / 8) + 8
  leAt m 0 4 = 0x4D555351 && byteAt m 4 = 1 && (x.op = 1 || x.op = 2) && 1 ≤ x.signer && x.signer ≤ 4 && x.wrap ≤ 3 &&
    (if x.op = 2 then x.wrap = 0 else x.wrap ≠ 0) && (x.wrap ≠ 3 || x.signer = 4) && keyLenFits x.alg x.keyLen && attrOk x.alg x.attr &&
    (if x.alg = 6 then x.hash ≤ 8 else x.hash = 0) && x.parts = x.total && x.part < x.parts &&
    x.epk.length = epk && x.wrapped.length = w && x.sig.length = sig && allZero (slice m 0x52 46) &&
    len = 0x80 + epk + w + sig

/-- Bytes 0x004 to 0x04A, which every part of a key carries alike (R302). -/
def Sum.fixed (x : Sum) : Bytes := slice x.raw 4 60 ++ slice x.raw 0x48 3

/-- A part is the gallery's next one (R302): part 0, or the part after those received, with the same bytes 0x004 to 0x04A. -/
def Sum.inOrder (x : Sum) (w : Option WideParts) : Bool :=
  if x.part = 0 then true
  else match w with
    | some p => p.count = x.part && p.header == x.fixed
    | none => false

/-- Check 2: slot `n` is assigned to gallery `g` with the width of `alg`. -/
def slotFits (s : State) (g n alg : Nat) : Bool :=
  let m := mapEnt s n
  m.assigned && m.owner = g && !m.member && m.head == wideAlg alg

/-- Check 4 for `SIGNER` 1 and 2 (R98, R301). -/
def authorityOk (s : State) (g alg : Nat) (key signed sig : Bytes) : Bool :=
  let x := gal s g
  x.authAlg ≠ 0 && x.authAlg = alg && sha384 key == x.authDigest &&
    (if alg = 1 then ecVerify 2 key (sha384 signed) sig else Config.mldsaVerify key [] signed sig false)

/-- The key-encryption key of `WRAP` 1 and 2 (R300). -/
def sumKek (s : State) (x : Sum) : Bytes :=
  let z := if x.wrap = 1 then ecdh 2 (xptPriv s) x.epk else padTo 32 (Config.mlkemDecaps (xptKem s) x.epk)
  ladderKdf z "QLV-SUM" (x.raw.take 0x80) 32

/-- Check 7: the material of the part. -/
def sumOpen (s : State) (x : Sum) : Option Bytes :=
  if x.wrap = 1 && !pointOk 2 x.epk then none
  else match kwUnwrap true (sumKek s x) x.wrapped with
    | some m => if m.length = x.size then some m else none
    | none => none

/-- Check 6 for `OP` 2. -/
def replaceCheck (s : State) (x : Sum) : Option Status :=
  let d := dirEnt s x.slot
  if d.state == .bad then some .slotBad
  else if d.state != .good then some .slotEmpty
  else match recNow s x.slot with
    | none => some .slotBad
    | some r =>
      if r.alg = 0 then some .slotEmpty
      else if r.alg = x.alg && r.keyLen = x.keyLen && r.hash = x.hash then none else some .badInput

/-- The first check of R303 that fails, by number with its status; `cer`: a ceremony authorises. -/
def sumCheck (s : State) (g : Nat) (x : Sum) (len : Nat) (key : Bytes) (cer : Bool) (w : Option WideParts) : Option (Nat × Status) :=
  let dual := dualControl x.attr || (recNow s x.slot).any fun r => r.alg ≠ 0 && dualControl r.attr
  if !x.structureOk len || !x.inOrder w then some (1, .badInput)
  else if byteAt x.raw 0x38 ≠ g || !slotFits s g x.slot x.alg then some (2, .notAuthorised)
  else if slice x.raw 8 48 != partId s then some (3, .notAuthorised)
  else if !(match x.signer with
      | 1 | 2 => !dual && authorityOk s g x.signer key x.signed x.sig
      | 3 => cer
      | _ => false) then some (4, .notAuthorised)
  else if (if x.part = 0 then x.counter ≤ (gal s g).counter.toNat else !(w.any fun p => p.counter.toNat = x.counter)) then
    some (5, .counterStale)
  else if x.op = 2 then (replaceCheck s x).map fun st => (6, st)
  else match sumOpen s x with
    | none => some (7, .badInput)
    | some m => if x.total = 1 && !materialOk x.alg m then some (8, .badInput) else none

/-- The message passes: a part is kept, or the slot changes. The result is the count of parts received. -/
def sumApply (s : State) (g : Nat) (x : Sum) (w : Option WideParts) (c : AdminCmd) : State :=
  let commit := fun (s : State) (m : Bytes) =>
    let s := setCounter s g (BitVec.ofNat 64 x.counter)
    done (applyKey s x.slot x.alg x.attr x.hash x.keyLen (stored x.alg m) true) c
  if x.op = 2 then commit s (slotMaterial s x.slot)
  else
    let m := (sumOpen s x).getD []
    if x.total = 1 then commit s m
    else
      let all := (match w with
        | some p => if x.part = 0 then [] else p.material
        | none => []) ++ m
      if x.part + 1 < x.total then
        let parts : WideParts :=
          { header := x.fixed, count := x.part + 1, counter := BitVec.ofNat 64 x.counter, material := all }
        doneWith (updGv s g fun v => { v with wide := some parts }) c [BitVec.ofNat 8 (x.part + 1)]
      else if materialOk x.alg all then commit s all
      else completeAdmin s c .badInput 8 0 []

/-! ### Background steps -/

/-- The Strongroom stands still during an inspection session (R281). -/
def roomPaused (s : State) : Bool := sealedSession s

/-- No bank can be read or written (R310, R312: what was under way goes on at the next start). -/
def noBank (s : State) : Bool := !s.srm.bank.cope.available && !s.srm.bank.drag.available

/-- Both copies of a record are bad: the slot is BAD, and a contained fault is reported (R295). An unassigned slot stays
UNASSIGNED in the directory (entry 81). -/
def reportBad (s : State) (n : Nat) : State := report (refreshWhole s [n]) 7 1 0 0 0 true

/-- The check of one record by the scrub (R294, R295). -/
def scrubSlot (s : State) (h : Half) (n : Nat) : State :=
  let b := s.srm.bank.get h
  if roomPaused s || !b.available || b.stale.contains n || covered s n || (goodCopy s h n).isSome then s
  else match goodCopy s (other h) n with
    | some r => rewriteFrom s h n r
    | none => reportBad s n

/-- The check of block `b` of bank `h`'s counter area: a block that fails is rewritten from the other bank and counted; one that
fails in both is fatal, but for a custodian set that cannot be read (R290, R331, R469, entry 82). -/
def checkBlock (s : State) (h : Half) (b : Nat) : State :=
  if roomPaused s || !(s.srm.bank.get h).available || blockGood s h b then s
  else if blockGood s (other h) b then
    let o := (s.srm.bank.get (other h)).area
    let s := updSrm s fun x => { x with
      bank := x.bank.upd h fun k => { k with area := copyBlock b o k.area }
      corrected := satInc31 x.corrected }
    reportOnly s 12 0 (halfNo h) 0
  else if b = 33 then s
  else reportOnly s 12 2 (halfNo h) 0

/-- A step of R48 that falls due every 16 ticks, in the parting window. -/
def stepDue (s : State) (due : Nat) : Bool := s.gen.windowDone && due ≤ tick s

/-- MRAM_SCRUB_STEP (R48, R290, R294): the Strongroom copy's 131,072 lines come first in a pass of 262,144, and the 64 lines of
each block of the counter area next (entry 16). -/
def execMramScrubStep (bank : Half) (s : State) : Out :=
  let b := s.srm.bank.get bank
  .next <| if !b.available || !stepDue s b.scrubDue then s
    else
      let p := b.scrubPos
      let t := tick s + 16
      let s := updSrm s fun x => { x with bank := x.bank.upd bank fun b => { b with scrubPos := (p + 1) % 262144, scrubDue := t } }
      if p < 131072 then (if p % 2 = 0 then scrubSlot s bank (p / 2) else s)
      else if p < 131072 + 64 * 34 && p % 64 = 0 then checkBlock s bank ((p - 131072) / 64)
      else s

/-- WEAR_LEVEL_STEP (R48): while a journal or counter region exceeds its wear mark, one 64-byte line of it moves to another
place of its bank; what an address reads stays as it is. Whether it exceeds the mark, which the spec does not give, is a
free value (entry 73). -/
def execWearLevelStep (bank : Half) (region : Byte) (s : State) : Out :=
  let b := s.srm.bank.get bank
  .next <| if !b.available || !stepDue s b.wearDue then s
    else
      let t := tick s + 16
      if freeBit s then
        updSrm (bump s) fun x => { x with bank := x.bank.upd bank fun b =>
          { b with wear := b.wear.upd 0 region.toNat (· + 1), wearDue := t } }
      else bump s

/-- A copy under the active epoch, with a new nonce and the same `GEN` (R309). -/
def resealed (s : State) (h : Half) (r : Rec) : Rec := sealRec s r ((unsealed s r).getD []) (freeBytesAt s (1 + halfNo h) 12)

/-- Reseal of slot `n` in bank `h` (R309). -/
def resealSlot (s : State) (h : Half) (n : Nat) : State :=
  match goodCopy s h n with
  | some r => if r.epoch = s.srm.epoch then s else markStale (putRec s h n (resealed s h r)) n
  | none =>
    match goodCopy s (other h) n with
    | some r => rewriteFrom s h n (resealed s h r)
    | none => s

/-- Reseal ends when both pointers are through and no stale bit is left (R311). -/
def endReseal (s : State) : State :=
  let r := s.srm
  if r.reseal && (65536 ≤ r.resealPos.cope || !r.bank.cope.available) && (65536 ≤ r.resealPos.drag || !r.bank.drag.available) &&
      r.bank.cope.stale.isEmpty && r.bank.drag.stale.isEmpty then
    let s := setEpochReg s (!r.epoch) none
    let n := if s.lcs.state == .production then BitVec.ofNat 16 (satInc 65535 r.reseals.toNat) else r.reseals
    updSrm s fun x => { x with reseal := false, resealPos := ⟨0, 0⟩, reseals := n }
  else s

/-- RESEAL_STEP (R309 to R311). -/
def execResealStep (s : State) : Out :=
  .next <| if !s.srm.reseal || roomPaused s || s.srm.overwrite || noBank s || !stepDue s s.srm.resealDue || !drbgReady s 2 then s
    else
      let t := tick s + 16
      let s := updSrm s fun x => { x with resealDue := t }
      let n := journalAt s s.srm.resealPos
      let s := if n < 65536 then
          let step := fun (s : State) h => if (s.srm.bank.get h).available && !(s.srm.bank.get h).stale.contains n then resealSlot s h n else s
          let s := drawFrom (bump (step (step s .cope) .drag)) 2
          updSrm s fun x => { x with resealPos := journalSet s x.resealPos (n + 1) }
        else s
      endReseal s

/-- Generation of the empty record of slot `n`: a wide slot's records, written in turn, take that of its head's (R289, R304). -/
def overwriteGen (s : State) (n : Nat) : Nat :=
  match (if (mapEnt s n).member then slotRec s .cope (headOf s n) else none) with
  | some r => r.gen.toNat
  | none => (slotGen s n).toNat

/-- The empty record of slot `n` in every available bank (R312 step 4). -/
def overwriteSlot (s : State) (n : Nat) : State :=
  let r := { emptyRec (mapEnt s n).owner (overwriteGen s n) (partAt s n) with slot := n }
  let put := fun (s : State) h =>
    if (s.srm.bank.get h).available then putRec s h n (sealRec s r [] (freeBytesAt s (1 + halfNo h) 12)) else s
  markStale (drawFrom (bump (put (put s .cope) .drag)) 2) n

/-- The overwrite has passed every slot. -/
def endOverwrite (s : State) : State :=
  if 65536 ≤ journalAt s s.srm.overwritePos then updSrm s fun x => { x with overwrite := false, overwritePos := ⟨0, 0⟩, writtenSince := [] }
  else s

/-- QUENCH_OVERWRITE_STEP (R312 step 4): one slot, in each available bank, unless a copy is good under the new key. -/
def execQuenchOverwriteStep (s : State) : Out :=
  .next <| if !s.srm.overwrite || !hasVek s || roomPaused s || noBank s || !drbgReady s 2 then s
    else
      let n := journalAt s s.srm.overwritePos
      let s := if 65536 ≤ n || (goodCopy s .cope n).isSome || (goodCopy s .drag n).isSome then s else overwriteSlot s n
      let s := endOverwrite (updSrm s fun x => { x with overwritePos := journalSet s x.overwritePos (n + 1) })
      if n < 65536 then refreshWhole s [n] else s

/-- A new Vault Epoch Key is drawn into the active register (R282, R315). -/
def drawVek (s : State) : State := bump (setEpochReg s s.srm.epoch (some (mkShares s 1 (freeBytes s 32))))

/-- VEK_DRAW (R315): a feed is valid and the key-generation DRBG delivers. -/
def execVekDraw (s : State) : Out :=
  .next <| if !hasVek s && !s.srm.quenching && s.pwr.phase != .off && drbgReady s 2 && rootSel s ≠ 0 && !roomPaused s then drawVek (drawFrom s 2) else s

/-- STALE_CATCHUP_STEP (R297). -/
def execStaleCatchupStep (bank : Half) (s : State) : Out :=
  let b := s.srm.bank.get bank
  let o := s.srm.bank.get (other bank)
  .next <| if !b.available || !o.available || roomPaused s then s
    else match (sortBy (fun (a c : Nat) => a ≤ c) b.stale).head? with
      | none => s
      | some n =>
        let r := copyOf s (other bank) n
        let s := updSrm s fun x =>
          { x with bank := x.bank.upd bank fun b => { b with recs := b.recs.put none n r, stale := b.stale.filter (· ≠ n) } }
        endReseal (refreshWhole s [n])

/-- MASK_SEED_REFRESH (R283). -/
def execMaskSeedRefresh (s : State) : Out :=
  .next <| if s.pwr.phase = .off || s.srm.seedAge < 1000 || !drbgReady s 2 then s
    else updSrm (bump (drawFrom s 2)) fun r => { r with maskSeed := some (mkShares s 1 (freeBytes s 32)), seedAge := 0 }

/-- CELL_REMASK (R283): every line takes a new mask from the generator that was seeded from line 2. -/
def execCellRemask (s : State) : Out :=
  .next <| if !s.pwr.cellOnly then s
    else updSrm s fun r =>
      let mask := fun l => tabulate 32 fun i => Config.cellGen r.cellMask r.cellSteps (32 * l + i)
      { remaskLines (fun _ => true) mask r with cellSteps := r.cellSteps + 1 }

/-- One anneal step: the pointers of both halves and of the Reliquary, whose lines are re-masked (R48, R283). -/
def annealStep (s : State) : State :=
  let adv := fun (h : Half) (s : State) => updLaneHalf s h fun x => { x with
    annealPos := (x.annealPos + 16) % 32000, scrubPos := (x.scrubPos + 1) % 65536, serdes := x.serdes + 1 }
  let s := adv .drag (adv .cope s)
  let p := s.srm.annealPos
  updSrm (bump s) fun r =>
    { remaskLines (fun l => p ≤ l && l < p + 4) (fun l => freeBytesAt s (1 + l) 32) r with annealPos := (p + 4) % 32 }

end Sys2Proof.Machine
end

