-- ==== Sys2Proof/Machine/SlotCmds.lean ====
section
/-!
DEFINITION. Slot commands (R299 to R308, R313, R316).
-/
namespace Sys2Proof.Machine

/-- A command that writes records waits while the key-generation instance is NOT_READY (R462). -/
def drawsIv (s : State) (c : AdminCmd) : Bool := [0x20, 0x22, 0x23, 0x26, 0x27].contains c.op && !drbgReady s 2

/-- Slot commands of the gallery in turn; without a Vault Epoch Key they end `RESERVE_BUSY` (R313). A slot command other
than the next part discards pending parts (R302). -/
def slotCmd (s : State) (c : AdminCmd) (f : State → Option WideParts → State) : State :=
  if !slotTurn s c.gal c || drawsIv s c then s
  else
    let w := (gv s c.gal).wide
    let s := updGv s c.gal fun v => { v with wide := none }
    if !hasVek s || roomPaused s then fails s c .reserveBusy else f s w

/-- A command that writes slots without waiting for a gallery's turn. -/
def roomCmd (s : State) (c : AdminCmd) (f : State → State) : State :=
  if drawsIv s c then s else if !hasVek s || roomPaused s then fails s c .reserveBusy else f s

/-- A Curator's slot command; it discards pending parts too (R302). -/
def curatorSlotCmd (s : State) (c : AdminCmd) (f : State → State) : State :=
  roomCmd s c fun s => f (updGv s c.gal fun v => { v with wide := none })

/-- SLOT_ASSIGN. -/
def execSlotAssign (g : Gallery) (q : QIndex) (s : State) : Out :=
  .next <| runAdmin s g q 0x20 fun s c => curatorSlotCmd s c fun s =>
    let target := c.p 0 1
    let first := c.p 1 2
    let count := c.p 3 2
    let wide := c.p 5 1 = 1
    let n := if wide then 16 * count else count
    if count = 0 || 4096 < count || 1 < c.p 5 1 || (wide && first % 16 ≠ 0) || (gal s target).state != .active || 65536 < first + n ||
        (List.range n).any (fun i => (mapEnt s (first + i)).assigned) then fails s c .badInput
    else if (gal s target).slotQuota < (slotsOf s target).length + n then fails s c .quota
    else
      let ns := (List.range n).map (first + ·)
      let s := ns.foldl (fun s k => setMap s k
        { owner := target, assigned := true, head := wide && k % 16 = 0, member := wide && k % 16 ≠ 0 }) s
      let write := fun (s : State) (h : Nat) =>
        let gen := (slotGen s h).toNat
        (slotSpan s h).foldl (fun s k => drawFrom (writeRec s k (emptyRec target gen (partAt s k)) []) 2) s
      let s := (ns.filter fun k => !wide || k % 16 = 0).foldl write s
      done (refreshDir s ns) c

/-- A slot that SLOT_RELEASE may return. -/
def releasable (s : State) (first n k : Nat) : Bool :=
  let m := mapEnt s k
  m.assigned && (dirEnt s k).state == .empty &&
    (!(m.head || m.member) || (first ≤ k / 16 * 16 && k / 16 * 16 + 16 ≤ first + n))

/-- SLOT_RELEASE. -/
def execSlotRelease (g : Gallery) (q : QIndex) (s : State) : Out :=
  .next <| runAdmin s g q 0x21 fun s c => curatorSlotCmd s c fun s =>
    let first := c.p 0 2
    let n := c.p 2 2
    if 65536 < first + n || !((List.range n).all fun i => releasable s first n (first + i)) then fails s c .badInput
    else
      let ns := (List.range n).map (first + ·)
      let s := ns.foldl (fun s k => setMap s k { mapEnt s k with assigned := false }) s
      done (refreshDir s ns) c

/-- Ticks of the Reserve operations of a message: its signature's verification and its key agreement (R266). -/
def sumTicks (m : Bytes) : List Nat :=
  (match byteAt m 6 with | 1 => [140] | 2 => [60] | _ => []) ++ (match byteAt m 7 with | 1 => [75] | 2 => [36] | _ => [])

/-- A slot command in its turn, with the results of the Reserve operations of `ticks`. -/
def slotCmdOp (s : State) (c : AdminCmd) (ticks : List Nat) (f : State → Option WideParts → State) : State :=
  if !slotTurn s c.gal c || drawsIv s c then s
  else reserveOp s (cmdOwner c) (if !hasVek s || roomPaused s then [] else ticks) none fun s => slotCmd s c f

/-- SLOT_UPDATE. A cited ceremony gives its use first (R339). -/
def execSlotUpdate (g : Gallery) (q : QIndex) (msg key : Option Bytes) (s : State) : Out :=
  .next <| runAdmin s g q 0x22 fun s c => slotCmdOp s c (msg.elim [] sumTicks) fun s w =>
    let ref := c.p 18 4
    let (cer, _, s) := if ref = 0 then (false, [], s) else useCer s c.gal ref 2 c.gal
    if ref ≠ 0 && !cer then fails s c .notAuthorised
    else withRead s c msg fun b =>
      withRead s c (if c.p 10 8 = 0 then some [] else key) fun k =>
        let m := padTo (c.p 8 2) b
        let x := Sum.of m
        match sumCheck s c.gal x (c.p 8 2) k cer w with
        | some (n, st) => completeAdmin s c st n 0 []
        | none => sumApply s c.gal x w c

/-- SLOT_DESTROY (R306, R307). -/
def execSlotDestroy (g : Gallery) (q : QIndex) (s : State) : Out :=
  .next <| runAdmin s g q 0x23 fun s c => slotCmd s c fun s _ =>
    let n := c.p 0 2
    let m := mapEnt s n
    let ref := c.p 2 4
    let (cer, _, s) := if ref = 0 then (false, [], s) else useCer s c.gal ref 2 c.gal
    if !m.assigned || m.owner ≠ c.gal then fails s c .notAuthorised
    else if m.member then fails s c .badInput
    else if !cer && (ref ≠ 0 || (recNow s n).any fun r => r.alg ≠ 0 && dualControl r.attr) then fails s c .notAuthorised
    else if (dirEnt s n).state == .empty then done s c
    else
      produceAdmin (emptySlot s n (tick s) true) c
        { cmdId := leAt c.entry 4 2, tick := tick s + 3, index := c.index, covers := [(c.index, 1)] }

def DirState.code : DirState → Nat
  | .unassigned => 0 | .empty => 1 | .good => 2 | .bad => 3

/-- SLOT_QUERY. -/
def execSlotQuery (g : Gallery) (q : QIndex) (writeOk : Bool) (s : State) : Out :=
  .next <| runAdmin s g q 0x24 fun s c => slotCmd s c fun s _ =>
    let n := c.p 0 2
    let m := mapEnt s n
    if !m.assigned || m.owner ≠ c.gal then fails s c .notAuthorised
    else
      let r := recNow s n
      let head := match r with
        | some r => r.head
        | none => zeros 16
      let b := head ++ le 1 (dirEnt s n).state.code ++ le 1 (b2n (goodCopy s .cope n).isSome + 2 * b2n (goodCopy s .drag n).isSome)
      query s c 2 writeOk (padTo 32 b) []

/-- SLOT_COUNTER. -/
def execSlotCounter (g : Gallery) (q : QIndex) (s : State) : Out :=
  .next <| runAdmin s g q 0x25 fun s c => slotCmd s c fun s _ => doneWith s c (le 8 (gal s c.gal).counter.toNat)

/-- The 1,809 bytes of SLOT_TRANSPORT_KEYS. -/
def transportKeys (s : State) (k : Nat) : Bytes :=
  let b := partId s ++ ecPub 2 (xptPriv s) ++ padTo 1568 (Config.mlkemPub (xptKem s))
  b ++ dikSign s k (sha384 b)

/-- SLOT_TRANSPORT_KEYS. -/
def execSlotTransportKeys (g : Gallery) (q : QIndex) (writeOk : Bool) (s : State) : Out :=
  .next <| runAdmin s g q 0x26 fun s c => slotCmdOp s c [80] fun s _ => query (bump (drawFrom s 2)) c 0 writeOk (transportKeys s 1) []

/-- SLOT_RESEAL (R308). -/
def execSlotReseal (g : Gallery) (q : QIndex) (s : State) : Out :=
  .next <| runAdmin s g q 0x27 fun s c => curatorSlotCmd s c fun s =>
    if s.srm.reseal || s.srm.overwrite || rootSel s = 2 then fails s c .reserveBusy
    else
      let fresh := mkShares s 1 (freeBytes s 32)
      let s := bump (drawFrom (setEpochReg s (!s.srm.epoch) (some fresh)) 2)
      done (updSrm s fun r => { r with epoch := !r.epoch, reseal := true, resealPos := ⟨0, 0⟩ }) c

/-- GALLERY_OVERWRITE_DONE (R94): the overwrite of a destroyed gallery's slots has ended. -/
def execGalleryOverwriteDone (g : Gallery) (s : State) : Out :=
  let n := g.toNat
  .next <| if (gal s n).state != .closing || roomPaused s || s.adm.any (fun c => c.phase == .running && c.op = 0x11 && c.p 0 1 = n) then s
    else
      let ns := slotsOf s n
      let s := ns.foldl (fun s k => setMap s k { mapEnt s k with assigned := false }) s
      updGal (refreshDir s ns) n fun x => { state := .free, counter := x.counter }

end Sys2Proof.Machine
end

