-- ==== Sys2Proof/Machine/GalCmds.lean ====
section
/-!
DEFINITION. Galleries: pools and bounds (R38, R71, R84, R85, R87, R267), gallery commands (R88 to R98, R102), the mailbox
(R99 to R101, R103), status registers (spec/04).
-/
namespace Sys2Proof.Machine

/-! ### Pools -/

def existing (s : State) : Nat := (s.gals.filter fun e => e.2.state != .free).length

/-- Sum over all galleries but `g`. -/
def poolSum (s : State) (g : Nat) (f : Gal → Nat) : Nat := sumNat ((s.gals.filter (·.1 ≠ g)).map fun e => f e.2)

def rolesActive (rs : List Role) : Nat := (rs.filter (· == .active)).length

/-- The configuration that bounds a half's grants: of the Mould it runs, or while it is down of the one it ran last (R87). -/
def boundCfg (s : State) (h : Half) : Option HalfCfg :=
  match halfCfg s h with
  | some c => some c
  | none => (s.mld.lastHalf.get h).map (·.halves.get h)

/-- Units grantable in a half (R38, R71). -/
def unitLimit (s : State) (h : Half) : Nat := ((boundCfg s h).map fun c => 128 * rolesActive c.laneRole - 16).getD 4592

/-- Sixteenths grantable per half (R267). -/
def cupolaLimit (s : State) : Nat :=
  let f := fun h => (boundCfg s h).map fun c => 16 * rolesActive c.cupolaRole - 16
  match f .cope, f .drag with
  | some a, some b => Nat.min a b
  | some a, none | none, some a => a
  | none, none => 0

/-- First offset of the half's Floor SRAM that partitions use, and its size (R400). -/
def floorStart (h : Half) : Nat := match h with | .cope => 0x01000000 | .drag => 0x01400000

def partBase (s : State) (h : Half) : Nat :=
  ((halfCfg s h).map fun c => (c.fw.load.toNat + c.fw.image.length + c.fw.zero + 65535) / 65536 * 65536).getD (floorStart h)

def partEnd (s : State) (h : Half) : Nat := ((halfCfg s h).map fun c => floorStart h + 1024 * c.floorKib).getD (floorStart h)

/-- 64 KiB units available for partitions. -/
def extLimit (s : State) (h : Half) : Nat := (partEnd s h - partBase s h) / 65536

/-- The bounds of R85 for gallery `g` with the records `x`: a change to it would stay within every pool and cover what the
gallery uses. -/
def boundsOk (s : State) (g : Nat) (x : Gal) : Bool :=
  let sum := fun f => poolSum s g f + f x
  sum (·.units.cope) ≤ unitLimit s .cope && sum (·.units.drag) ≤ unitLimit s .drag && sum (·.cupola) ≤ cupolaLimit s &&
    sum (·.slotQuota) ≤ 65536 && sum (·.parts.cope) ≤ extLimit s .cope && sum (·.parts.drag) ≤ extLimit s .drag &&
    (slotsOf s g).length ≤ x.slotQuota && (sqsOf s g).length ≤ x.sqLimit && (cqsOf s g).length ≤ x.cqLimit &&
    [Half.cope, Half.drag].all fun h => ((program s h g).map (·.units)).getD 0 ≤ x.parts.get h

/-- The bounds that a change of shares touches (R84 to R87). -/
def shareBoundsOk (s : State) (g : Nat) (x : Gal) : Bool :=
  let sum := fun f => poolSum s g f + f x
  sum (·.units.cope) ≤ unitLimit s .cope && sum (·.units.drag) ≤ unitLimit s .drag && sum (·.cupola) ≤ cupolaLimit s

/-- The bounds that a change of limits touches (R85). -/
def limitBoundsOk (s : State) (g : Nat) (x : Gal) : Bool :=
  let sum := fun f => poolSum s g f + f x
  sum (·.slotQuota) ≤ 65536 && sum (·.parts.cope) ≤ extLimit s .cope && sum (·.parts.drag) ≤ extLimit s .drag &&
    (slotsOf s g).length ≤ x.slotQuota && (sqsOf s g).length ≤ x.sqLimit && (cqsOf s g).length ≤ x.cqLimit &&
    [Half.cope, Half.drag].all fun h => ((program s h g).map (·.units)).getD 0 ≤ x.parts.get h

/-- At most 4,592 units in each half, whatever the pool grants (spec/04, R610). -/
def unitsRange (x : Gal) : Bool := x.units.cope ≤ 4592 && x.units.drag ≤ 4592

/-- Limits within their ranges (spec/04). -/
def limitsRange (s : State) (x : Gal) : Bool :=
  let m := (limits s).maxQueues
  1 ≤ x.sqLimit && x.sqLimit ≤ m && 1 ≤ x.cqLimit && x.cqLimit ≤ m && x.slotQuota ≤ (limits s).maxSlots && x.arcQuota < 2 ^ 24

/-- Flags that the Mould forbids (R90). -/
def flagsForbidden (s : State) (f : Nat) : Bool :=
  ((nbit f 0 || nbit f 1) && !(limits s).lendOk) || (nbit f 2 && !(limits s).dualOk) || (nbit f 3 && !(limits s).pairOk)

def withFlags (x : Gal) (f : Nat) : Gal := { x with lend := nbit f 0, borrow := nbit f 1, dual := nbit f 2, pairing := nbit f 3 }

/-! ### Gallery commands -/

/-- The Curator's gallery commands run one at a time in the order of confirmation (R89). -/
def galCmd (s : State) (c : AdminCmd) (f : State → State) : State :=
  if firstOf s (fun x => x.gal = 0 && 0x10 ≤ x.op && x.op ≤ 0x17) c then f s else s

/-- A change sets its bit of GAL_ST_EVENT (R104); a command that leaves the records as they are changes nothing. -/
def changed (s : State) (n : Nat) (x : Gal) (b : BitVec 6) : State :=
  if gal s n = x then s else galEvent (setGal s n x) n b

/-- GALLERY_CREATE (R84, R85, R91, R92). -/
def execGalleryCreate (g : Gallery) (q : QIndex) (s : State) : Out :=
  .next <| runAdmin s g q 0x10 fun s c => galCmd s c fun s =>
    let n := c.p 0 1
    let old := gal s n
    let x : Gal := withFlags
      { state := .active, units := ⟨c.p 2 2, c.p 4 2⟩, cupola := c.p 6 1, sqLimit := c.p 7 1, cqLimit := c.p 8 1
        parts := ⟨c.p 9 1, c.p 10 1⟩, slotQuota := c.p 11 4, arcQuota := c.p 15 4, counter := old.counter } (c.p 1 1)
    if n = 0 || old.state == .active || x.units.cope = 0 || x.units.drag = 0 || !limitsRange s x then fails s c .badInput
    else if old.state == .closing then fails s c .reserveBusy
    else if flagsForbidden s (c.p 1 1) then fails s c .notAuthorised
    else if (limits s).maxGalleries ≤ existing s || !boundsOk s n x then fails s c .quota
    else if !unitsRange x then fails s c .badInput
    else done (loadGrants (setGv (setGal s n x) n {}) false) c

/-- GALLERY_DESTROY (R94): step 1; the changes steps of later windows do the rest. -/
def execGalleryDestroy (g : Gallery) (q : QIndex) (s : State) : Out :=
  .next <| runAdmin s g q 0x11 fun s c => galCmd s c fun s =>
    let n := c.p 0 1
    if n = 0 || (gal s n).state != .active then fails s c .badInput
    else
      let s := updGal s n fun x => { x with state := .closing }
      let s := (sqsOf s n).foldl dropUnread s
      let s := { s with jobs := s.jobs.filter fun j => !(j.gal = n && j.origin != .queue && (j.unconfirmed || j.phase == .redo)) }
      keepRunning (updAdm s c fun x => { x with mark := 0 }) c

/-- GALLERY_SET_SHARE (R84, R85, R87, R88). -/
def execGallerySetShare (g : Gallery) (q : QIndex) (s : State) : Out :=
  .next <| runAdmin s g q 0x12 fun s c => galCmd s c fun s =>
    let n := c.p 0 1
    let x := { gal s n with units := ⟨c.p 1 2, c.p 3 2⟩, cupola := c.p 5 1 }
    if (gal s n).state != .active || x.units.cope = 0 || x.units.drag = 0 then fails s c .badInput
    else if !shareBoundsOk s n x then fails s c .quota
    else if !unitsRange x then fails s c .badInput
    else done (loadGrants (changed s n x 0b1) false) c

/-- GALLERY_SET_LIMITS (R85, R88). -/
def execGallerySetLimits (g : Gallery) (q : QIndex) (s : State) : Out :=
  .next <| runAdmin s g q 0x13 fun s c => galCmd s c fun s =>
    let n := c.p 0 1
    let x := { gal s n with sqLimit := c.p 1 1, cqLimit := c.p 2 1, parts := ⟨c.p 3 1, c.p 4 1⟩, slotQuota := c.p 5 4, arcQuota := c.p 9 4 }
    if (gal s n).state != .active || !limitsRange s x then fails s c .badInput
    else if !limitBoundsOk s n x then fails s c .quota
    else done (changed s n x 0b10) c

/-- GALLERY_SET_FLAGS (R90). -/
def execGallerySetFlags (g : Gallery) (q : QIndex) (s : State) : Out :=
  .next <| runAdmin s g q 0x14 fun s c => galCmd s c fun s =>
    let n := c.p 0 1
    if (gal s n).state != .active then fails s c .badInput
    else if flagsForbidden s (c.p 1 1) then fails s c .notAuthorised
    else done (changed s n (withFlags (gal s n) (c.p 1 1)) 0b10) c

/-- GALLERY_BIND_AUTHORITY (R96, R97). -/
def execGalleryBindAuthority (g : Gallery) (q : QIndex) (key : Option Bytes) (s : State) : Out :=
  .next <| runAdmin s g q 0x15 fun s c => galCmd s c fun s =>
    let n := c.p 0 1
    let alg := c.p 1 1
    if !slotTurn s n c then s
    else if (gal s n).state != .active || alg = 0 || 2 < alg then fails s c .badInput
    else
      let (ok, _, s) := useCer s c.gal (c.p 10 4) 1 n
      if !ok then fails s c .notAuthorised
      else withRead s c key fun k =>
        let k := padTo (if alg = 1 then 97 else 2592) k
        if alg = 1 && !pointOk 2 k then fails s c .badInput
        else done (changed s n { gal s n with authAlg := alg, authDigest := sha384 k } 0b1000) c

/-! ### Status registers (spec/04, R318) -/

/-- Word `i` of a gallery's status page, offsets 0x0000 to 0x003C. -/
def galWord (s : State) (n i : Nat) : Word :=
  let x := gal s n
  let v := gv s n
  if x.state == .free then (if i = 0 then BitVec.ofNat 32 n else 0)
  else
    match i with
    | 0 => word [(n, 0), (match x.state with | .free => 0 | .active => 1 | .closing => 2, 8), (x.authAlg, 14), (b2n x.lend, 16), (b2n x.borrow, 17),
        (b2n x.dual, 18), (b2n x.pairing, 19)]
    | 1 => word [(x.units.cope, 0), (x.units.drag, 16)]
    | 2 => word [(v.eff.cope, 0), (v.eff.drag, 16)]
    | 3 => word [(x.cupola, 0)]
    | 4 => word [(x.slotQuota, 0)]
    | 5 => word [(x.sqLimit, 0), (x.cqLimit, 8), ((sqsOf s n).length, 16), ((cqsOf s n).length, 24)]
    | 6 => word [(x.parts.cope, 0), (x.parts.drag, 8)]
    | 7 => word [(x.arcQuota, 0)]
    | 8 => word [(v.event.toNat, 0)]
    | 9 => word [(v.eventEn.toNat, 0)]
    | 10 => word [((slotsOf s n).length, 0)]
    | 11 => word [((occupiedSlots s (slotsOf s n)).length, 0)]
    | _ => 0

/-- Word `i` of the GAL window, offsets 0x0000 to 0x003C. -/
def poolWord (s : State) (i : Nat) : Word :=
  let all := fun f => poolSum s 256 f
  match i with
  | 0 => word [(all (·.units.cope), 0), (((halfCfg s .cope).map fun _ => unitLimit s .cope).getD 0, 16)]
  | 1 => word [(all (·.units.drag), 0), (((halfCfg s .drag).map fun _ => unitLimit s .drag).getD 0, 16)]
  | 2 => word [(all (·.cupola), 0), (cupolaLimit s, 16)]
  | 3 => word [(all (·.slotQuota), 0)]
  | 4 => word [(all (·.parts.cope), 0), (extLimit s .cope % 256, 8), (all (·.parts.drag), 16), (extLimit s .drag % 256, 24)]
  | 5 => word [(existing s, 0), ((s.mld.runAtrium.map fun m => m.atrium.limits.maxGalleries).getD 0, 16)]
  | i => if 8 ≤ i && i < 16 then BitVec.ofNat 32 (s.mbxPending.toNat / 2 ^ (32 * (i - 8))) else 0

def wordsBytes (f : Nat → Word) (n : Nat) : Bytes := (List.range n).flatMap fun i => le 4 (f i).toNat

/-- The status registers 0x0000 to 0x003F of gallery `n`. -/
def statusPage (s : State) (n : Nat) : Bytes := wordsBytes (galWord s n) 16

/-- The write of a GALLERY_QUERY with its completion; `statusPages` fixes the bytes at the end of the tick's window. -/
def queryPage (s : State) (c : AdminCmd) (ok : Bool) (n : Nat) : State :=
  if ok then
    produceAdmin s c
      { cmdId := leAt c.entry 4 2, outs := [(BitVec.ofNat 64 (c.p 1 8), statusPage s n)], tick := tick s + 1, index := c.index
        covers := [(c.index, 1)], page := some n }
  else completeAdmin s c .dmaError 3 0 []

/-- The pages of the tick's GALLERY_QUERY commands, as they stand after the window. -/
def statusPages (s : State) : State :=
  let item := fun (h : Held) => match h.page with
    | some n => { h with outs := h.outs.map fun o => (o.1, statusPage s n), page := none }
    | none => h
  if s.cqs.all (fun e => e.2.hold.all (·.page.isNone)) then s
  else { s with cqs := s.cqs.mapAll {} fun _ c => { c with hold := c.hold.map item } }

/-- GALLERY_QUERY. -/
def execGalleryQuery (g : Gallery) (q : QIndex) (writeOk : Bool) (s : State) : Out :=
  .next <| runAdmin s g q 0x16 fun s c =>
    let n := c.p 0 1
    let page := fun s => if n ≠ 0 && (gal s n).state != .active then fails s c .badInput else queryPage s c writeOk n
    if c.gal ≠ 0 && n ≠ c.gal then fails s c .notAuthorised
    else if c.gal = 0 then galCmd s c page
    else page s

/-- GALLERY_POOL_QUERY. -/
def execGalleryPoolQuery (g : Gallery) (q : QIndex) (writeOk : Bool) (s : State) : Out :=
  .next <| runAdmin s g q 0x17 fun s c => galCmd s c fun s => query s c 0 writeOk (wordsBytes (poolWord s) 16) []

/-! ### The end of a gallery (R94) -/

/-- What has been issued to a completion queue of the gallery is written, or cannot be. -/
def galDrained (s : State) (n : Nat) : Bool :=
  !(s.jobs.any fun j => j.gal = n && (!j.unconfirmed || j.again) && j.phase != .finished) &&
    (cqsOf s n).all fun k => (cq s k).error || (cq s k).full || (cq s k).hold.isEmpty

/-- Step 3: every submission queue of the gallery is flushed. -/
def galFlush (s : State) (n : Nat) : State :=
  (sqsOf s n).foldl (fun s k =>
    let ck := cqKey s k
    let c := cq s ck
    let s := updSq (dropUnread s k) k fun q => { q with closing := true, resetting := false, closeTick := tick s, flushKept := false }
    if (sq s k).flushed then s
    else if c.error || c.full || holdFree c = 0 || !c.exist then removeSq (countStale s ck 1) k
    else updSq (produce s k (sq s k).gen.toNat false (flushHeld (tick s + 1) 0)) k fun q => { q with flushed := true }) s

/-- Steps 3 to 6 of R94 once the flushes are written; in an inspection session no record is written, and the next start that is
none writes them (R281). The gallery's bits of `GAL_MBX_PENDING` and `GAL_MBX_ACKED`, the Curator's
registers, stay as they are: the rule zeroes the gallery's own registers only (DESIGN CHOICE, entry 76). -/
def galEnd (s : State) (n : Nat) : State :=
  let s := (sqsOf s n).foldl (fun s k => removeSq (countStale s (cqKey s k) 1) k) s
  let s := (cqsOf s n).foldl removeCq s
  let s := [Half.cope, Half.drag].foldl (fun s h => stopProgram s h n 5 true) s
  let s := updWld s fun w => { w with stopped := (w.stopped.put 0 n 0).put 0 (256 + n) 0 }
  let s : State := { s with
    jobs := s.jobs.filter fun j => j.gal ≠ n
    adm := s.adm.filter fun c => c.gal ≠ n }
  let heads := (slotsOf s n).filter fun k => !roomPaused s && !(mapEnt s k).member && (dirEnt s k).state != .empty
  let s := heads.foldl (fun s k => emptySlot s k (tick s) false) s
  let s := { s with lanes := { s.lanes with half := s.lanes.half.map fun x => { x with kc := x.kc.filter (·.gal ≠ n) } } }
  let s := updSpn s fun x => { x with pairs := x.pairs.put {} n {} }
  setGv (setGal s n { state := .closing, counter := (gal s n).counter }) n { eventEn := 0 }

/-- One running GALLERY_DESTROY at a changes step; `mark` 1 once the flushes are held. -/
def stepGallery (s : State) (c : AdminCmd) : State :=
  let n := c.p 0 1
  if c.mark = 0 then
    if galDrained s n then updAdm (galFlush s n) c fun x => { x with mark := 1 } else s
  else if (sqsOf s n).all fun k => (cq s (cqKey s k)).error || (cq s (cqKey s k)).full then done (galEnd s n) c
  else s

def closeGalleries (s : State) : State := (s.adm.filter fun c => c.phase == .running && c.op = 0x11).foldl stepGallery s

/-! ### The mailbox (R99 to R101, R103) -/

/-- Physical-function vector 1 (R101, R103). -/
def raiseMbx (s : State) : State := if s.mbxPending = 0 && s.mbxAcked = 0 then s else raise s 0 1

def updMbx (s : State) (n : Nat) (f : Mailbox → Mailbox) : State := updGv s n fun v => { v with mbx := f v.mbx }

/-- Bits of GAL_ST_EVENT that the next parting window sets (R104). -/
def eventAtWindow (s : State) (n : Nat) (b : BitVec 6) : State := updGv s n fun v => { v with eventDue := v.eventDue ||| b }

/-- The changes step sets the bits of the mailbox's events (R99, R104). -/
def mailEvents (s : State) : State :=
  ((s.galv.filter fun e => e.2.eventDue ≠ 0).map (·.1)).foldl (fun s n =>
    galEvent (updGv s n fun v => { v with eventDue := 0 }) n (gv s n).eventDue) s

/-- A gallery with a mailbox of its own: not gallery 0, and existing. -/
def hasMbx (s : State) (n : Nat) : Bool := n ≠ 0 && (gal s n).state != .free

/-- `RING` by the gallery. -/
def mbxOutRing (s : State) (n : Nat) : State :=
  let m := (gv s n).mbx
  if !hasMbx s n || m.busy || 2032 < m.outLen.toNat then s
  else raiseMbx { updMbx s n fun m => { m with busy := true } with mbxPending := setBit s.mbxPending n true }

/-- `ACK` by the Curator through the aperture. -/
def mbxCuratorAck (s : State) : State :=
  let n := s.mbxSel.toNat
  if !hasMbx s n || !(gv s n).mbx.busy then s else eventAtWindow (updMbx s n fun m => { m with busy := false }) n 0b100000

/-- `RING` by the Curator through the aperture. -/
def mbxInRing (s : State) : State :=
  let n := s.mbxSel.toNat
  let m := (gv s n).mbx
  if !hasMbx s n || m.full || 2032 < m.inLen.toNat then s else eventAtWindow (updMbx s n fun m => { m with full := true }) n 0b10000

/-- `ACK` by the gallery. -/
def mbxGalleryAck (s : State) (n : Nat) : State :=
  if !hasMbx s n || !(gv s n).mbx.full then s
  else raiseMbx { updMbx s n fun m => { m with full := false } with mbxAcked := setBit s.mbxAcked n true }

/-- MBX_OUT_RING. -/
def execMbxOutRing (p : Half) (g : Gallery) (s : State) : Out := .next (if windowOpen s p g.toNat then mbxOutRing s g.toNat else s)
/-- MBX_CURATOR_ACK. -/
def execMbxCuratorAck (p : Half) (s : State) : Out := .next (if windowOpen s p 0 then mbxCuratorAck s else s)
/-- MBX_IN_RING. -/
def execMbxInRing (p : Half) (s : State) : Out := .next (if windowOpen s p 0 then mbxInRing s else s)
/-- MBX_GALLERY_ACK. -/
def execMbxGalleryAck (p : Half) (g : Gallery) (s : State) : Out := .next (if windowOpen s p g.toNat then mbxGalleryAck s g.toNat else s)

end Sys2Proof.Machine
end

