-- ==== Sys2Proof/Machine/Replicas.lean ====
section
/-!
DEFINITION. Replicas of slots that arrive from the partner (R304, R544, R545).
-/
namespace Sys2Proof.Machine

def pairAt (s : State) (g : Nat) : Pair := s.spn.pairs.get {} g
def setPair (s : State) (g : Nat) (p : Pair) : State := updSpn s fun x => { x with pairs := x.pairs.put {} g p }
def updPair (s : State) (g : Nat) (f : Pair → Pair) : State := setPair s g (f (pairAt s g))

/-- The pair of gallery `g` names the sender of a message. -/
def fromPartner (s : State) (g : Nat) (m : Bytes) : Bool :=
  let p := pairAt s g
  p.state != .none && p.unit.toNat = msgSrc m && p.partner.toNat = msgSrcGal m

/-- A message from the partner (R542). -/
def heard (s : State) (g : Nat) (m : Bytes) : State :=
  if fromPartner s g m then
    updPair s g fun p => { p with lastMsg := tick s, state := if p.state == .unreachable then .active else p.state }
  else s

/-- Bytes that a replica's signature covers, sender first. -/
def replSigned (idFrom idTo : Bytes) (gFrom gTo : Nat) (b : Bytes) : Bytes :=
  sha384 (ascii "QLV-SPAN-REPL" ++ idFrom ++ idTo ++ le 1 gFrom ++ le 1 gTo ++ b)

def replKek (z b : Bytes) : Bytes := ladderKdf z "QLV-SPAN-REPL" (b.take 0x79) 32

structure Replica where
  seq : Nat
  slot : Nat
  op : Nat
  alg : Nat
  attr : Word
  keyLen : Nat
  hash : Nat
  epk : Bytes
  wrapped : Bytes
  signed : Bytes
  sig : Bytes

def Replica.of (b : Bytes) : Replica :=
  let w := leAt b 0x14 2
  { seq := leAt b 0 8, slot := leAt b 8 2, op := byteAt b 0xA, alg := byteAt b 0xB, attr := BitVec.ofNat 32 (leAt b 0xC 4)
    keyLen := leAt b 0x10 2, hash := byteAt b 0x12, epk := slice b 0x18 97, wrapped := slice b 0x79 w, signed := slice b 0 (0x79 + w)
    sig := slice b (0x79 + w) 96 }

/-- The material of a replica (check 5). An attribute word is replaced in a key slot of the same algorithm only. -/
def replMaterial (s : State) (x : Replica) : Option Bytes :=
  match x.op with
  | 1 =>
    if !pointOk 2 x.epk then none
    else match kwUnwrap true (replKek (ecdh 2 (xptPriv s) x.epk) x.signed) x.wrapped with
      | some m => if m.length = x.keyLen && materialOk x.alg m then some m else none
      | none => none
  | 2 => if (recNow s x.slot).any fun r => r.alg ≠ 0 && r.alg = x.alg && r.keyLen = x.keyLen && r.hash = x.hash then some [] else none
  | 3 => some []
  | _ => none

/-- Check 4. A destroyed slot names no algorithm. -/
def replFits (s : State) (g : Nat) (x : Replica) : Bool :=
  if x.op = 3 then
    let m := mapEnt s x.slot
    m.assigned && m.owner = g && !m.member
  else slotFits s g x.slot x.alg

/-- A replica that passed (R304, R306). -/
def applyReplica (s : State) (x : Replica) (m : Bytes) : State :=
  match x.op with
  | 1 => applyKey s x.slot x.alg x.attr x.hash x.keyLen (stored x.alg m) false
  | 2 => applyKey s x.slot x.alg x.attr x.hash x.keyLen (slotMaterial s x.slot) false
  | _ => emptySlot s x.slot (tick s) false

/-- The checks of R545 in order: the number of the first that fails, 0 for none, and the state after them. -/
def takeReplica (s : State) (g : Nat) (msg : Bytes) : Nat × State :=
  let p := pairAt s g
  let x := Replica.of (msgBody msg)
  if p.state != .active || !fromPartner s g msg then (1, s)
  else if !ecVerify 2 p.point (replSigned p.identity (partId s) p.partner.toNat g x.signed) x.sig then (2, s)
  else if x.seq ≤ p.replApplied then (3, s)
  else
    let s := updPair s g fun p => { p with replApplied := x.seq }
    if !replFits s g x then (4, s)
    else match replMaterial s x with
      | none => (5, s)
      | some m => (0, applyReplica s x m)

/-- One replica is checked and applied, and its acknowledgement leaves. -/
def answerReplica (s : State) (msg : Bytes) : State :=
  let g := msgDstGal msg
  let (r, s) := takeReplica s g msg
  let s := if r = 0 then s else updSpn s fun x => { x with replRefused := satInc31 x.replRefused }
  sendNow s (spanMsg s 2 (msgSrc msg) (msgTseq msg) g (msgSrcGal msg) (slice (msgBody msg) 0 8 ++ le 1 r ++ zeros 7))

/-- Replicas that have arrived take effect in a changes step, in the order of their arrival (R30, R304, R545). While the
Reserve pair restarts, in an inspection session and without a Vault Epoch Key they wait (R18, R281, R313). -/
def applyReplicas (s : State) : State :=
  if s.atr.restarting || roomPaused s || !hasVek s then s
  else s.spn.replicas.foldl answerReplica (updSpn s fun x => { x with replicas := [] })

end Sys2Proof.Machine
end

