-- ==== Sys2Proof/Machine/Window.lean ====
section
/-!
DEFINITION. The parting window in the order of R28, the tick boundary (R51), the share-period boundary (R37, R41, R157),
and what time brings to a job: the end of an entropy wait (R463), results and deadlines of programs (R408, R409).
-/
namespace Sys2Proof.Machine

/-! ### Cycle 1,200: the snapshot (R28, R29, R406) -/

/-- Producer indices of the submission queues are latched. -/
def snapshot (s : State) : State :=
  { s with sqs := s.sqs.mapAll {} fun _ q => if q.exist && !q.closing then { q with sampled := q.pi } else q }

/-- The four words of a program are in range and count at most 16 records each. -/
def wordsOk (p : Program) (hc rp jp jc : Nat) : Bool :=
  hc < 32 && rp < 32 && jp < 32 && jc < 32 && ringCount 4 p.handProd hc ≤ 16 && ringCount 4 rp p.resCons ≤ 16 &&
    ringCount 4 jp p.jobCons ≤ 16 && ringCount 4 p.jobDoneProd jc ≤ 16

/-- The program-written index words of one partition are sampled; a word out of range
stops the program, and so does the exception that it raised since the last window (R404). -/
def sampleProgram (s : State) (h : Half) (g : Nat) : State :=
  match program s h g with
  | none => s
  | some p =>
    if !p.running then stopProgram s h g p.lastCause true else
    let hc := partWord s h p 1
    let rp := partWord s h p 2
    let jp := partWord s h p 4
    let jc := partWord s h p 7
    if wordsOk p hc rp jp jc then
      updProgram s h g fun p => { p with handCons := hc, resProd := rp, jobProd := jp, jobDoneCons := jc }
    else stopProgram s h g 4 true

def samplePrograms (s : State) : State :=
  let half := fun h s => (programsOf s h).foldl (fun s g => sampleProgram s h g) s
  half .drag (half .cope s)

/-- The slots of this tick that hold confirmed work stay known to its end. -/
def noteSlots (s : State) (h : Half) : State :=
  let b := heldSlots s h
  updLaneHalf s h fun x => { x with held := b }

/-- In the last tick of a share period the placement in force is noted for the report of R41. -/
def notePlacement (s : State) : State :=
  let s := noteSlots (noteSlots s .cope) .drag
  if tick s % 128 = 127 then
    let note := fun h s => updLaneHalf s h fun x => { x with ending := if serving s h then shortfallOf s h else 0 }
    note .drag (note .cope s)
  else s

/-! ### Cycles 1,200 to 1,219: checks, pairs, retirement, re-runs -/

/-- The digest of a paired job's own outcome (R549). -/
def ownDigest (j : Job) (r : JobResult) : Bytes :=
  if r.status = .done then outcomeDigest .done 0 r.output.length r.result (outsOf j r)
  else outcomeDigest r.status r.detail r.need r.result []

/-- Paired jobs whose PAIR_RESULT has arrived are compared (R549). -/
def comparePairs (s : State) : State :=
  (s.jobs.filter fun j => j.phase == .pair && j.digest ≠ []).foldl (fun s j =>
    match j.computed with
    | some r =>
      if j.digest = ownDigest j r then endWith s j r (tick s + 1)
      else failJob (updSpn s fun x => { x with pairMismatch := satInc31 x.pairMismatch }) j .pairMismatch 0 (tick s + 1)
    | none => s) s

/-- Half resets whose containment falls into this window (R475, R480). -/
def dueResets (s : State) : State :=
  let due := fun h s =>
    if (s.flt.halfReset.get h).any (· ≤ tick s) then
      if s.flt.countHalf.get h then pourAgain s h else halfResetNow s h none
    else s
  due .drag (due .cope s)

def retirement (s : State) : State :=
  let one := fun h s => retireUnits (retireLanes s h) h
  dueResets (one .drag (one .cope s))

/-! ### Cycles 1,220 to 1,235: confirmation and changes -/

/-- Dispatch to a completion queue that is full or in ERROR stops; it resumes when entries are free (R128, R130). -/
def stopQueues (s : State) : State :=
  { s with cqs := s.cqs.mapAll {} fun _ c => if c.exist then { c with stopped := c.full || c.error } else c }

def confirmation (s : State) : State := quenchRefused (confirmAdmin (confirmJobs (dropOpenChains (asideLate (stopQueues s)))))

/-- A queue returns to its bound port, or leaves it (R564). -/
def homed (s : State) (k : Nat) (port : Half) (away : Bool) : Bool :=
  if usable s port (k / 64) then false
  else if (gal s (k / 64)).dual && usable s (other port) (k / 64) then true
  else away

def homeQueues (s : State) : State :=
  { s with
    sqs := s.sqs.mapAll {} fun k q => if q.exist then { q with away := homed s k q.port q.away } else q
    cqs := s.cqs.mapAll {} fun k c => if c.exist then { c with away := homed s k c.port c.away } else c }

/-- Steps 2 to 4 of a quench that has begun (R312), and the end of its decision (R496). -/
def quenchDue (s : State) : State :=
  if s.srm.quenching then
    updTmp (quenchChanges s) fun t => { t with decision := t.decision.filter fun d => d.response ≠ 3 }
  else s

def changes (s : State) : State :=
  let s := closeGalleries (closeQueues (dropOrphans (abandonDue (quenchDue s))))
  mailEvents (homeQueues (placeGrants (applyReplicas s)))

/-! ### Cycles 1,236 to 1,249: slot map, credits, background -/

/-- CUP_WAITING of one half (R278). -/
def countWaiting (s : State) : State :=
  updCup s fun c => { c with waitCount := c.waiting.map fun l => BitVec.ofNat 16 (Nat.min 65535 l.length) }

def slotMapStep (s : State) : State :=
  let s := slotMap s (tick s + 1)
  countWaiting (moveContexts (moveContexts s .cope) .drag)

/-- A stimulation with its report (R500). -/
def stimulated (s : State) (m : Nat) (ok kind3 : Bool) : State :=
  let s := stimulate s m ok kind3
  if ok then s else reportOnly s 13 1 m 1

/-- One step of TAMPER_SELFTEST's rotation: an unpowered monitor is passed over (R501); after the last one the command completes with
the number of those that failed. -/
def selfStep (s : State) : State :=
  match s.tmp.selfRun with
  | none => s
  | some r =>
    match r.left with
    | [] =>
      let s := updTmp s fun t => { t with selfRun := none }
      match s.adm.find? fun c => c.seq = r.seq && c.phase == .running && c.op = 0x7A with
      | some c => doneWith s c (le 2 r.bad)
      | none => s
    | m :: ms =>
      let bad := monPowered s m && r.failing.any fun b => b.toNat = m
      let s := updTmp s fun t => { t with selfRun := some { r with left := ms, bad := r.bad + b2n bad } }
      if monPowered s m then stimulated s m (!bad) false else s

/-- One step of the daily monitor self-test (R48, R499, R500), which stands aside for TAMPER_SELFTEST: monitors of an unpowered half are passed over; whether the
monitor detects is a free value (entry 5). -/
def dailyStep (s : State) : State :=
  match s.tmp.rotate, s.tmp.selfRun with
  | 0, _ | _, some _ => s
  | k + 1, none =>
    match monitorNos[k]? with
    | none => updTmp s fun t => { t with rotate := 0 }
    | some m =>
      let s := updTmp s fun t => { t with rotate := if k + 1 < monitorNos.length then k + 2 else 0 }
      if monPowered s m then stimulated (bump s) m (freeBit s) false else s

/-- Parting windows that a waiting RNG_RESEED has seen (R467). -/
def countReseeds (s : State) : State :=
  { s with adm := s.adm.map fun c => if c.phase == .running && c.op = 0x93 then { c with mark := c.mark + 1 } else c }

/-- A half whose pour has passed step 1 is POURING (spec/03). -/
def endStepOne (s : State) (h : Half) : State :=
  if (s.mld.pour.get h).any fun p => !p.paused && p.resetEnd ≤ tick s then setHalf s h .pouring else s

/-- The monitor whose calibration takes its step in this window (R48). -/
def calibrateStep (s : State) : State :=
  updTmp s fun t => { t with calibrate := (t.calibrate + 1) % monitorNos.length }

/-- Slots of the closing tick that neither confirmed work nor preparation occupied scrub their lane's pattern store and
contexts (R48). -/
def scrubLanes (s : State) (h : Half) : State :=
  let used := heldSlots s h ++ (s.lanes.half.get h).prepSlots
  updLaneHalf s h fun x =>
    { x with lanes := (x.lanes.zip (List.range x.lanes.length)).map fun e =>
        let n := 8 - sumNat ((used.filter fun b => bookingLane s h b = e.2).map (·.len))
        { e.1 with scrub := (e.1.scrub + n) % 512 } }

def background (s : State) : State :=
  endStepOne (endStepOne (selfStep (dailyStep (calibrateStep (countReseeds (annealStep s))))) .cope) .drag

/-- The steps of a parting window in the order of R28. -/
def windowSteps : List (State → State) :=
  [fun s => samplePrograms (snapshot (notePlacement s)), fun s => comparePairs (missed (compareAll s)), retirement, placeReruns,
    confirmation, changes, slotMapStep, background]

/-- The steps run in turn; a device reset within one ends the window with it. -/
def runSteps (t : Nat) : List (State → State) → State → State
  | [], s => { s with gen := { s.gen with windowDone := true } }
  | f :: fs, s =>
    let s' := f s
    if tick s' = t && s'.pwr.phase == s.pwr.phase then runSteps t fs s' else s'

/-- PARTING_WINDOW (R28): once in every tick. -/
def execPartingWindow (s : State) : Out :=
  .next <| if s.gen.windowDone || s.pwr.phase == .off then s else runSteps (tick s) windowSteps s

/-! ### The tick boundary -/

/-- An assay's time: every tick on a rotated-out unit, the reserve's lane-ticks on a lane in place (R49, R50). -/
def assayTime (s : State) (h : Half) : State :=
  updLaneHalf s h fun x =>
    { x with assay := x.assay.map fun a =>
        let n := if a.inPlace && !a.cupola then ((laneTicks s h (tick s)).filter fun e => e.2.1 = 0).length
          else if a.cupola && ((cupUnits s h)[a.unit]?.any fun u => u.op.isSome) then 0 else 1
        { a with left := a.left - n } }

/-- A core at a tick boundary: line `TICK` (R447), the end of a wait (R438). -/
def CoreSt.atTick (t : BitVec 56) (c : CoreSt) : CoreSt :=
  let c := { c with ip := setBit c.ip 0 true }
  match c.waiting with
  | some r => { c.setW r (t.setWidth 32) with waiting := none }
  | none => c

/-- Units advance their operations by one tick; an operation overwrites its unit's operand memory (R261, R276). -/
def ageUnits (s : State) : State :=
  let busy := (List.range 18).filter fun u => (nth {} (cupUnits s (unitHalf u)) (u % 9)).op.isSome
  let s := if busy.isEmpty then s else bump (busy.foldl fillOp s)
  updCup s fun c =>
    { c with
      credited := ⟨false, false⟩
      units := c.units.map fun us => us.map fun u =>
        { u with left := none, op := u.op.map fun o => { o with age := o.age + 1 } } }

/-- The slots of the closing tick in the serving halves: those of active lanes, and those that held confirmed work (R515). -/
def countSlots (s : State) : State :=
  let up := [Half.cope, .drag].filter (serving s)
  updRcd s fun r =>
    { r with
      sinceSecond := r.sinceSecond + 1
      slots := r.slots + sumNat (up.map fun h => 8 * (activeLanes s h).length)
      slotsHeld := r.slotsHeld + sumNat (up.flatMap fun h => (heldSlots s h).map (·.len)) }

/-- Counters of the recorder and of Reliquary line 2 (R283, R511, R513, R518), seconds of life (R505). -/
def countTime (s : State) : State :=
  let s := updRcd s fun r =>
    { r with minuteTicks := r.minuteTicks + 1, sinceRefresh := r.sinceRefresh + 1, sinceCheckpoint := r.sinceCheckpoint + 1 }
  let s := updSrm s fun r => { r with seedAge := r.seedAge + 1 }
  if tick s % 1000000 = 0 then
    updTmp s fun t => { t with lifeSeconds := BitVec.ofNat 32 (sat32 t.lifeSeconds.toNat) }
  else s

/-- A frame with a good CRC grows old (R553). -/
def ageChain (s : State) : State :=
  { s with chn := { s.chn with lastFrame := (s.chn.lastFrame.map (· + 1)).filter (· < 1000) } }

/-- An RNG_RESEED that no reseed answered within 4 parting windows (R467). -/
def endReseeds (s : State) : State :=
  (s.adm.filter fun c => c.phase == .running && c.op = 0x93 && 4 ≤ c.mark).foldl (fun s c => fails s c .noEntropy) s

/-- A SPAN_ECHO ends with its counts as R484 lays them out. -/
def echoDone (s : State) (c : AdminCmd) : State :=
  let (_, back, differ) := s.spn.echo
  let s := updSpn s fun x => { x with reqs := x.reqs.filter fun r => r.cls ≠ 8 }
  doneWith s c (le 4 (c.p 4 4) ++ le 4 back ++ le 4 (differ.getD 0xFFFFFFFF))

/-- A SPAN_ECHO whose messages have not all returned within 1,000,000 ticks (R484, R551). -/
def endEchoes (s : State) : State :=
  (s.adm.filter fun c => c.phase == .running && c.op = 0x58 && c.mark + 1000000 ≤ tick s).foldl echoDone s

/-- The readings of the 18 rails in mV, free values (entry 5), extend the extremes of those whose domain is powered (R514). -/
def sampleRails (s : State) : State :=
  updLive s fun l =>
    { l with rails := (l.rails.zip ((monitorNos.take 18).zip (List.range 18))).map fun e =>
        let v := fromLe (freeBytesAt s (5 + e.2.2) 2)
        if monPowered s e.2.1 then (Nat.min e.1.1 v, Nat.max e.1.2 v) else e.1 }

/-- The power of the domains and the voltages of the cell domain as sampled every 1,000 ticks: free values (entry 5),
zero for a domain that is not powered (R588). -/
def samplePower (s : State) : State :=
  if tick s % 1000 = 0 then
    let s := sampleRails s
    let v := fun k => freeBytesAt s k 2
    let watts := fun h k => if (s.pwr.feed.get h).valid then BitVec.ofNat 16 (fromLe (v k)) else 0
    bump { s with pwr := { s.pwr with
      vqrMv := BitVec.ofNat 12 (fromLe (v 0)), vcellMv := BitVec.ofNat 12 (fromLe (v 1)), watts := ⟨watts .cope 2, watts .drag 3⟩
      wattsAtrium := BitVec.ofNat 16 (fromLe (v 4)) } }
  else s

/-- Slots used by preparation, and slots of the tick before `t` that refused jobs released, are gone. -/
def endPrep (t : Nat) (x : LaneHalf) : LaneHalf :=
  { x with prepSlots := [], held := [], released := x.released.filter fun b => t ≤ b.tick }

/-- `LID_OPEN` holds from an event of the lid to the end of a tick without one (entry 89). -/
def lidClosed (s : State) : State :=
  if (monEntry s 0xC0).last = some (tick s) then s else updTmp s fun t => { t with lidOpen := false }

/-- The next tick begins: outputs of the old one are gone, queues set aside may be served again (R155), allowances follow
the slots lent (R152). -/
def beginTick (s : State) : State :=
  let t := tick s + 1
  let lent := fun h g => lentSlots s h g t
  let s : State := { s with
    gen := { s.gen with a := s.gen.a + 1, b := s.gen.b + 1, windowDone := false }
    sqs := s.sqs.mapAll {} fun _ q => { q with aside := false }
    jobs := s.jobs.map fun j => { j with tried := false }
    lanes := { s.lanes with half := s.lanes.half.map (endPrep t) }
    galv := (galleries s).foldl
      (fun v g => v.upd {} g fun x => { x with allowance := ⟨lent .cope g, lent .drag g⟩ }) s.galv }
  { s with cores := s.cores.map fun c => if c.running then c.atTick s.gen.a else c }

/-- Finished jobs without output writes are delivered once their completions are produced (R171, entry 33). -/
def settleJobs (s : State) : State :=
  { s with jobs := s.jobs.map fun j => if j.phase == .finished && j.outs.isEmpty then { j with delivered := true, outSent := true } else j }

/-- TICK_BOUNDARY (R51): after the tick's parting window. -/
def execTickBoundary (s : State) : Out :=
  .next <|
    if !s.gen.windowDone then s
    else
      let s := settleJobs (statusPages { s with out := {} })
      let s := updLcs s fun l => { l with measured := some (measure s) }
      let s := (s.cqs.filter (·.2.exist)).foldl (fun s e => signalCq s e.1) s
      let s := lidClosed (countSlots (scrubLanes (scrubLanes s .cope) .drag))
      let s := slotMap (endBurns (endEchoes (endReseeds s))) (tick s + 1)
      let s := updateCredits (updateCredits s .cope) .drag
      let s := assayTime (assayTime s .cope) .drag
      let s := samplePower (ageChain (countTime (ageUnits (beginTick s))))
      let s := bookWaiting (bookWaiting (bookChains s (tick s)) .cope (tick s)) .drag (tick s)
      flushOutbox s

/-- SHARE_PERIOD_BOUNDARY (R37, R41, R157). -/
def execSharePeriodBoundary (s : State) : Out :=
  .next <|
    if tick s % 128 ≠ 0 || s.pwr.phase == .off then s
    else
      let s := { s with galv := s.galv.mapAll {} fun _ v => { v with fills := ⟨0, 0⟩ } }
      let one := fun h s =>
        let n := (s.lanes.half.get h).ending
        let s := updLaneHalf s h fun x => { x with shortfall := BitVec.ofNat 16 n }
        if n = 0 then s else reportOnly s (halfSrc h 3) 1 (Nat.min 255 n) 0
      one .drag (one .cope s)

/-! ### Waits that end -/

/-- ENTROPY_WAIT_EXPIRY (R463): the fourth slot-map step has passed. -/
def execEntropyWaitExpiry (id : Nat) (s : State) : Out :=
  .next <| match job s id with
  | none => s
  | some j =>
    let waits := (j.phase == .confirmed && j.book.isNone) || (j.phase == .cupola && (s.cup.waiting.get j.half).any fun o => o.job = some id)
    if waits && s.gen.windowDone && (j.deadline.any (· ≤ tick s)) then
      let s := updRng (takeOps s false fun o => o.job = some id) fun r => { r with noEntropy := satInc31 r.noEntropy }
      failJob s j .noEntropy 0 (tick s + 2)
    else s

/-- An outstanding handoff job ends; its ticket is answered. -/
def endTicket (s : State) (j : Job) (st : Status) (detail outCount : Nat) (result : Bytes) (outs : List (BitVec 64 × Bytes)) : State :=
  endJob (dropTicket s j) j.id st detail outCount result outs (tick s + 1)

/-- The job whose ticket a record names (R408). -/
def ticketJob (s : State) (p : Program) (t : Nat) : Option (Job × Nat) :=
  ((p.tickets.find? (·.1 = t)).bind fun x => (job s x.2.1).map fun j => (j, x.2.2.1)).filter fun x => x.1.phase == .handoff

/-- HANDOFF_RESULT (R408): the record at the result consumer index, once sampled. A record whose ticket names no
outstanding job has no job to complete and is passed over. -/
def execHandoffResult (h : Half) (g : Gallery) (s : State) : Out :=
  .next <| match program s h g.toNat with
  | none => s
  | some p =>
    if p.resCons = p.resProd || !s.gen.windowDone then s
    else
      let r := partRead s h p (0x400 + 32 * (p.resCons % 16)) 32
      let s := partWords (updProgram s h g.toNat fun p => { p with resCons := (p.resCons + 1) % 32 }) h g.toNat
      match ticketJob s p (leAt r 0 4) with
      | none => s
      | some (j, k) =>
        match Status.ofProgram (byteAt r 4) with
        | none => endTicket s j .faultUnresolved 0x0E03 0 [] []
        | some st =>
          let n := leAt r 8 4
          if j.req.outCap < n then endTicket s j .faultUnresolved 0x0E03 0 [] []
          else
            let outs := if st = .done && n ≠ 0 then [(j.req.outAddr, partRead s h p (0x1400 + 0x800 * k) n)] else []
            endTicket s j st (leAt r 6 2) n (slice r 16 16) outs

/-- HANDOFF_DEADLINE (R409). -/
def execHandoffDeadline (id : Nat) (s : State) : Out :=
  .next <| match job s id with
  | none => s
  | some j =>
    if j.phase == .handoff && s.gen.windowDone && (j.deadline.any (· ≤ tick s)) then endTicket s j .faultUnresolved 0x0E01 0 [] []
    else s

end Sys2Proof.Machine
end

