-- ==== Sys2Proof/Machine/Entropy.lean ====
section
/-!
DEFINITION. Entropy: the tests of a source (R454 to R456), conditioning (R457), DRBG instances (R458 to R461), raw modes
and the commands 0x90 to 0x93 (R464 to R467), the registers (R468).
-/
namespace Sys2Proof.Machine

def srcHalfOf (n : Nat) : Half := if n < 8 then .cope else .drag

/-! ### Tests (R455, R456) -/

/-- A test of source `n` fails with `cause`: a source not in raw mode becomes EXCLUDED and is reported. -/
def srcFail (s : State) (n cause : Nat) : State :=
  let st := (srcAt s n).state
  if st == .starting || st == .healthy then
    reportOnly (excludeSource s n cause) (halfSrc (srcHalfOf n) 13) 1 n 0
  else updSource s n fun x => { x with cause := BitVec.ofNat 3 cause }

/-- `LAGk` of a window: round(128 (A − D) / (A + D)), clamped. -/
def lagOf (w : List Bool) (k : Nat) : Int :=
  let prs := w.zip (w.drop k)
  let n : Int := prs.length
  let a : Int := (prs.filter fun p => p.1 == p.2).length
  if n = 0 then 0 else max (-128) (min 127 ((256 * (a - (n - a)) + n) / (2 * n)))

def signed8 (v : Int) : BitVec 8 := BitVec.ofInt 8 v

/-- The trim after a window: one step against its surplus (entry 17 gives the sign). -/
def moveTrim (t : BitVec 8) (ones : Nat) : BitVec 8 :=
  if 2048 < ones then (if t = 0x80#8 then t else t - 1)
  else if ones < 2048 then (if t = 0x7F#8 then t else t + 1)
  else t

/-- The first test of the 4,096-bit window that fails. -/
def windowCause (ones : Nat) (lags : List Int) (trim : BitVec 8) : Option Nat :=
  if ones < 1848 || 2248 < ones then some 3
  else if lags.any fun l => 16 ≤ l.natAbs then some 4
  else if trim = 0x80#8 || trim = 0x7F#8 then some 5
  else none

/-- End of the 4,096-bit window. -/
def endWindow (s : State) (n : Nat) : State :=
  let x := srcAt s n
  let ones := (x.win.filter id).length
  let lags := [1, 2, 3, 4].map (lagOf x.win)
  let s := updSource s n fun x =>
    { x with win := [], ones := BitVec.ofNat 13 ones, lags := lags.map signed8, trim := moveTrim x.trim ones }
  match windowCause ones lags x.trim with
  | some c => srcFail s n c
  | none => if x.state == .starting then updSource s n fun x => { x with state := .healthy } else s

/-- The window's first bit value occurs 800 times or more. -/
def aptFails (w : List Bool) : Bool :=
  match w with
  | [] => false
  | b :: _ => 800 ≤ (w.filter (· == b)).length

/-- End of the 1,024-bit window: a block that a HEALTHY source passed is ready for the conditioner (R457). -/
def endBlock (s : State) (n : Nat) : State :=
  let w := (srcAt s n).apt
  let s := updSource s n fun x => { x with apt := [] }
  if aptFails w then srcFail s n 2
  else if (srcAt s n).state == .healthy then updSource s n fun x => { x with block := some w }
  else s

/-- The windows that are complete are evaluated. -/
def endWindows (s : State) (n : Nat) : State :=
  let s := if 4096 ≤ (srcAt s n).win.length then endWindow s n else s
  if 1024 ≤ (srcAt s n).apt.length then endBlock s n else s

/-- SOURCE_WINDOW_END (R455). -/
def execSourceWindowEnd (src : Fin 16) (s : State) : Out := .next (endWindows s src.val)

/-- A raw bit of the source that feeds the FIFO (R465). -/
def pushFifo (s : State) (b : Bool) : State :=
  updRng s fun r =>
    if r.fifo.length < 4096 then { r with fifo := r.fifo ++ [b] }
    else { r with overflow := BitVec.ofNat 11 (satInc 2047 r.overflow.toNat) }

/-- RAW_BIT (R454, R455, R465): a bit of a source whose half is powered. -/
def execRawBit (src : Fin 16) (b : Bool) (s : State) : Out :=
  .next <|
    let n := src.val
    if (srcAt s n).state == .off then s
    else
      let s := endWindows s n
      let s := updSource s n fun x =>
        { x with run := if x.last = some b then x.run + 1 else 1, last := some b, apt := x.apt ++ [b], win := x.win ++ [b] }
      let s := if (srcAt s n).state == .raw && s.rng.fifoSrc.toNat = n then pushFifo s b else s
      if 41 ≤ (srcAt s n).run then srcFail s n 1 else if aptFails (srcAt s n).apt then srcFail s n 2 else s

/-! ### Conditioner (R457) -/

/-- Bits as bytes, the oldest in bit 0 of the first byte (entry 17). -/
def packBits (w : List Bool) : Bytes :=
  (List.range ((w.length + 7) / 8)).map fun i =>
    BitVec.ofNat 8 (((w.drop (8 * i)).take 8).foldr (fun b v => b2n b + 2 * v) 0)

/-- The HEALTHY source with a block ready that comes next in turn. -/
def nextSource (s : State) (h : Half) : Option Nat :=
  ((List.range 8).map fun i => 8 * halfNo h + (s.rng.turn.get h + 1 + i) % 8).find? fun n =>
    (srcAt s n).state == .healthy && (srcAt s n).block.isSome

/-- CONDITIONED_VALUE (R457). -/
def execConditionedValue (h : Half) (s : State) : Out :=
  .next <| match nextSource s h with
  | none => s
  | some n =>
    let v := sha384 (packBits ((srcAt s n).block.getD []))
    let s := updSource s n fun x => { x with block := none }
    updRng s fun r =>
      { r with turn := r.turn.set h (n % 8), held := if outputFlows s h then r.held.upd h fun l => l ++ [v] else r.held }

/-! ### DRBG instances (R458 to R461) -/

/-- The half that feeds instance `i`, when a value is held for it. -/
def feedOf (s : State) (i : Nat) : Option Half :=
  let has := fun h => !(s.rng.held.get h).isEmpty && outputFlows s h
  if i = 0 then (if has .cope then some .cope else none)
  else if i = 1 then (if has .drag then some .drag else none)
  else if has s.rng.feedTurn then some s.rng.feedTurn
  else if has (other s.rng.feedTurn) then some (other s.rng.feedTurn)
  else none

/-- The personalisation string. -/
def persString (s : State) (i : Nat) : Bytes := padTo 48 (le 8 s.lcs.fuses.dieId.toNat ++ le 1 i ++ le 7 (tick s))

/-- Instance `i` takes a conditioned value from half `h`. -/
def seedDrbg (s : State) (i : Nat) (h : Half) (pers : Bytes) : State :=
  let v := ((s.rng.held.get h).head?).getD []
  let t := tick s
  let s := updRng s fun r =>
    { r with held := r.held.upd h (List.drop 1), feedTurn := if i < 2 then r.feedTurn else other h }
  setDrbg s i fun _ => { state := .ready, lastReseed := t, seed := v, pers }

/-- DRBG_INSTANTIATE (R461). -/
def execDrbgInstantiate (i : Fin 4) (s : State) : Out :=
  .next <| match feedOf s i.val with
  | some h => if drbgNotReady s i.val && !s.rng.deviceRaw then seedDrbg s i.val h (persString s i.val) else s
  | none => s

/-- RNG_RESEED commands for instance `i` that wait. -/
def reseedCmds (s : State) (i : Nat) : List AdminCmd := s.adm.filter fun c => c.phase == .running && c.op = 0x93 && c.p 0 1 = i

/-- DRBG_RESEED (R459, R460, R467): in the background step, its own reasons or a command. -/
def execDrbgReseed (i : Fin 4) (s : State) : Out :=
  .next <| match feedOf s i.val with
  | none => s
  | some h =>
    let d := nth {} s.rng.drbg i.val
    let cmds := (reseedCmds s i.val).filter fun c => 1 ≤ c.mark
    if s.gen.windowDone && d.state != .notReady &&
        (d.lastReseed + 1000 ≤ tick s || drbgLimit i.val ≤ d.requests || !cmds.isEmpty) then
      cmds.foldl (fun s c => done s c) (seedDrbg s i.val h d.pers)
    else s

/-! ### Raw modes and commands (R464 to R467) -/

def rawSource (s : State) : Option Nat := (List.range 16).find? fun n => (srcAt s n).state == .raw

/-- A source enters RAW. -/
def enterRaw (s : State) (n : Nat) : State :=
  checkFlow (updSource s n fun x => { x with state := .raw, wasHealthy := x.state == .healthy, block := none }) (srcHalfOf n)

def feedFifo (s : State) (n : Nat) : State :=
  updRng s fun r => { r with fifo := [], overflow := 0, fifoSrc := BitVec.ofNat 4 n, rawActive := true }

/-- RNG_SOURCE_RAW (R465). -/
def execRngSourceRaw (g : Gallery) (q : QIndex) (s : State) : Out :=
  .next <| runAdmin s g q 0x90 fun s c =>
    let n := c.p 0 1
    let en := c.p 1 1
    let st := (srcAt s n).state
    let left := healthy s (srcHalfOf n) - b2n (st == .healthy)
    if 15 < n || 1 < en then fails s c .badInput
    else if en = 1 then
      if (rawSource s).isSome || !(st == .healthy || st == .excluded) then fails s c .badInput
      else if left < 2 then fails s c .quota
      else done (feedFifo (enterRaw s n) n) c
    else if st != .raw then fails s c .badInput
    else
      let s := updSource s n fun x => x.restart (if x.wasHealthy then .starting else .excluded)
      done (updRng s fun r => { r with rawActive := (rawSource s).isSome }) c

/-- RNG_DEVICE_RAW (R466). -/
def execRngDeviceRaw (g : Gallery) (q : QIndex) (s : State) : Out :=
  .next <| runAdmin s g q 0x91 fun s c =>
    let en := c.p 0 1
    let n := c.p 1 1
    if 1 < en || 15 < n then fails s c .badInput
    else if s.lcs.state != .test then fails s c .notAuthorised
    else if en = 1 then
      let s := (List.range 16).foldl (fun s n => if (srcAt s n).state == .off || (srcAt s n).state == .raw then s else enterRaw s n) s
      let s := updRng s fun r => { r with deviceRaw := true, drbg := List.replicate 4 {}, held := ⟨[], []⟩ }
      done (feedFifo s n) c
    else if s.rng.deviceRaw then
      let s := (List.range 16).foldl (fun s n => if (srcAt s n).state == .off then s else updSource s n fun x => x.restart .starting) s
      done (updRng s fun r => { r with deviceRaw := false, rawActive := false }) c
    else done s c

/-- RNG_READMIT (R456). -/
def execRngReadmit (g : Gallery) (q : QIndex) (s : State) : Out :=
  .next <| runAdmin s g q 0x92 fun s c =>
    let n := c.p 0 1
    if 15 < n || (srcAt s n).state != .excluded then fails s c .badInput
    else done (updSource s n fun x => x.restart .starting) c

/-- RNG_RESEED: completes at the reseed, or at the end of the fourth parting window. -/
def execRngReseed (g : Gallery) (q : QIndex) (s : State) : Out :=
  .next <| runAdmin s g q 0x93 fun s c =>
    if 3 < c.p 0 1 then fails s c .badInput else updAdm s c fun x => { x with phase := .running, mark := 0 }

/-! ### Registers (R468) -/

/-- A read of `RNG_RAW_DATA`. -/
def rawRead (s : State) : Word × State :=
  if s.rng.fifo.length < 32 then (0, s)
  else
    (BitVec.ofNat 32 ((s.rng.fifo.take 32).foldr (fun b v => b2n b + 2 * v) 0), updRng s fun r => { r with fifo := r.fifo.drop 32 })

/-- RNG_RAW_READ. -/
def execRngRawRead (s : State) : Out :=
  let r := rawRead s
  .next { r.2 with response := r.1 }

/-- A read of `RNG_SW_DATA` by core `c` (R464): 32 bits of instance 3, or zero. -/
def swRead (s : State) (c : Nat) : Word × State :=
  if drbgReady s 3 then
    (BitVec.ofNat 32 (fromLe (freeBytes s 4)), updCore (bump (drawFrom s 3)) c fun x => { x with rngValid := true })
  else (0, updCore s c fun x => { x with rngValid := false })

def SrcState.code : SrcState → Nat
  | .off => 0 | .starting => 1 | .healthy => 2 | .excluded => 3 | .raw => 4

def DrbgState.code : DrbgState → Nat
  | .notReady => 0 | .ready => 1 | .exhausted => 2

/-- Registers of the RNG window but for `RNG_RAW_DATA`. -/
def rngWord (s : State) (o : Nat) : Word :=
  let r := s.rng
  if o = 0 then word [(b2n (outputFlows s .cope), 0), (b2n (outputFlows s .drag), 1), (b2n r.deviceRaw, 2)]
  else if o = 8 then
    word [(r.overflow.toNat, 0), (r.fifo.length, 11), (r.fifoSrc.toNat, 24), (b2n (rawSource s).isSome, 31)]
  else if o = 0x10 then r.noEntropy.setWidth 32
  else if 0x20 ≤ o && o < 0x30 then
    let d := nth {} r.drbg ((o - 0x20) / 4)
    word [(d.requests % 2 ^ 30, 0), (d.state.code, 30)]
  else if 0x100 ≤ o && o < 0x140 then
    let x := srcAt s ((o - 0x100) / 4)
    word [(x.trim.toNat, 0), (x.ones.toNat, 13), (x.cause.toNat, 26), (x.state.code, 29)]
  else if 0x140 ≤ o && o < 0x180 then
    let x := srcAt s ((o - 0x140) / 4)
    word ((List.range 4).map fun k => ((nth 0 x.lags k).toNat, 8 * k))
  else 0

end Sys2Proof.Machine
end

