-- ==== Sys2Proof/Machine/Regs.lean ====
section
/-!
DEFINITION. What a read of each register returns: the windows of the physical-function BAR0 (R19, R24 and the register
tables of every chapter) and the gallery window (R23); which offsets are assigned (R20).
-/
namespace Sys2Proof.Machine

/-! ### Small parts of registers -/

/-- A half holds a pour while it pours or serves. -/
def poured (s : State) (h : Half) : Bool :=
  (s.atr.half.get h == .pouring || s.atr.half.get h == .serving) && (s.mld.runHalf.get h).isSome

def HalfState.code : HalfState → Nat
  | .off => 0 | .reset => 1 | .pouring => 2 | .serving => 3

def slotCode (x : Option Bool) : Nat := match x with
  | none => 0
  | some false => 1
  | some true => 2

/-- Word `i` of a byte string in registers: byte 4i in bits 7:0. -/
def wordAt (b : Bytes) (i : Nat) : Word := BitVec.ofNat 32 (leAt b (4 * i) 4)

/-- Half `k` of a 64-bit register. -/
def wordOf (v : BitVec 64) (k : Nat) : Word := BitVec.ofNat 32 (v.toNat / 2 ^ (32 * k))

def countReg (c : BitVec 31) : Word := c.setWidth 32

/-! ### ATR window (R24, spec/02) -/

/-- `ATR_TICK_POS`; the cycle within the tick is a free value below 1,250 (entry 5). -/
def tickPos (s : State) : Word := word [(tick s % 128, 0), (fromLe (freeBytes s 4) % 1250, 16)]

def fwVersion (s : State) : Word :=
  let fl := fun h => if poured s h then ((halfCfg s h).map fun c => c.fw.version.toNat % 256).getD 0 else 0
  word [((s.mld.runAtrium.map fun m => m.atrium.fw.version.toNat).getD 0, 0), (fl .cope, 16), (fl .drag, 24)]

def halfStatus (s : State) : Word :=
  word [((s.atr.half.get .cope).code, 0), ((s.atr.half.get .drag).code, 4), (b2n s.pwr.feed.cope.valid, 7),
    (b2n s.pwr.feed.drag.valid, 8), (if s.atr.srcB then 2 else 1, 9), (b2n s.atr.restarting, 11)]

def atrWord (s : State) (o : Nat) : Word :=
  match o with
  | 0x00 => 0x47009128
  | 0x04 => word [(b2n (burned s.lcs.fuses.gradeE), 0), (0xA, 8)]
  | 0x08 => wordOf s.lcs.fuses.dieId 0
  | 0x0C => wordOf s.lcs.fuses.dieId 1
  | 0x10 => word [(Config.romMinor.toNat, 0), (Config.romMajor.toNat, 8)]
  | 0x14 => fwVersion s
  | 0x20 => halfStatus s
  | 0x24 => s.atr.event.setWidth 32
  | 0x28 => s.atr.eventEn.setWidth 32
  | 0x30 => word [(s.atr.errLast.toNat, 0), (s.atr.errCount.toNat, 21)]
  | 0x3C => s.atr.scratch
  | 0x100 => BitVec.ofNat 32 (tick s)
  | 0x108 => tickPos s
  | _ => 0

/-! ### FLT window (R488) -/

def assayWord (s : State) : Word :=
  let f := fun h lo => match (s.lanes.half.get h).assay with
    | none => []
    | some a => [(a.unit + (match h with | .cope => 0 | .drag => if a.cupola then 9 else 40), lo), (b2n a.cupola, lo + 7), (1, lo + 8)]
  word (f .cope 7 ++ f .drag 23)

def fltWord (s : State) (o : Nat) : Word :=
  let f := s.flt
  if o < 0x20 then
    wordOf (match o / 8 with | 0 => f.status | 1 => f.corr | 2 => f.cont | _ => f.fatal) (o / 4 % 2)
  else if o = 0x20 then fltMode s
  else if o = 0x24 then countReg f.clearRefused
  else if o = 0x28 then fltLastFatal s
  else if o = 0x30 then assayWord s
  else if 0x100 ≤ o && o < 0x200 then (fltSrc s ((o - 0x100) / 4)).syn
  else if 0x200 ≤ o && o < 0x300 then countReg (fltSrc s ((o - 0x200) / 4)).count
  else if 0x300 ≤ o && o < 0x500 then
    let x := fltSrc s ((o - 0x300) / 8)
    if o % 8 = 0 then word [(x.countN.toNat, 0), (x.cls.toNat, 24)] else x.window.setWidth 32
  else 0

/-! ### PWR window (spec/21) -/

def pwrWord (s : State) (o : Nat) : Word :=
  let p := s.pwr
  let rail := fun (f : Feed) => word [(f.good.toNat, 0), (f.lowSeen.toNat, 8)]
  match o with
  | 0x00 => word [(b2n p.vqrOk, 0), (b2n p.cellLow, 1), (b2n p.cellOnlySeen, 2)]
  | 0x04 => rail p.feed.cope
  | 0x08 => rail p.feed.drag
  | 0x0C => word [(p.vcellMv.toNat, 0), (p.vqrMv.toNat, 16)]
  | 0x10 => countReg p.switchovers
  | 0x14 => word [(p.cause.toNat, 0), (p.halfResets.cope.toNat, 8), (p.halfResets.drag.toNat, 16)]
  | 0x20 => p.watts.cope.setWidth 32
  | 0x24 => p.watts.drag.setWidth 32
  | 0x28 => p.wattsAtrium.setWidth 32
  | _ => 0

/-! ### TMP and REC windows (R510, spec/18) -/

def tmpWinWord (s : State) (o : Nat) : Word :=
  if o < 0x400 then tmpWord s (o / 4)
  else if o % 8 = 0 then tmpMon s ((o - 0x400) / 8) else tmpWin s ((o - 0x400) / 8)

def recWord (s : State) (o : Nat) : Word :=
  if o = 0 then word [((storedRecs s).length, 0), (b2n s.rcd.full, 31)]
  else if o = 4 then s.rcd.minutes
  else if o = 8 then s.tmp.powerCycles
  else if o = 0xC then s.rcd.sel.setWidth 32
  else if 0x200 ≤ o && o < 0x400 then wordAt s.rcd.aperture ((o - 0x200) / 4)
  else if 0x400 ≤ o && o < 0x600 then wordAt (nth [] (storedRecs s) s.rcd.sel.toNat) ((o - 0x400) / 4)
  else 0

/-! ### LCS and MLD windows (spec/12, spec/03) -/

def lcsWord (s : State) (o : Nat) : Word :=
  let l := s.lcs
  match o with
  | 0x00 => word [(l.state.code, 0), ((fused s).code, 4), (b2n l.debug, 11), (b2n l.session, 12), (b2n (burned l.fuses.wiped), 13),
      (b2n l.rootFail, 14), (b2n l.chain.isSome, 15)]
  | 0x04 => word [(bitsOf l.fuses.consumed, 0), (bitsOf l.fuses.ended, 8), (nextToken l.fuses, 16)]
  | 0x08 => l.restarts
  | 0x0C => l.restartsLife
  | 0x10 => word [(l.completed.toNat, 0), (l.lastKind.toNat, 8)]
  | _ => 0

/-- The running Moulds of the three domains. -/
def running (s : State) : List Mould := s.mld.runAtrium.toList ++ s.mld.runHalf.cope.toList ++ s.mld.runHalf.drag.toList

def mldStatus (s : State) : Word :=
  let m := s.mld
  let pend := (running s).any fun x => s.lcs.fuses.secVer < x.secVer
  word [(slotCode m.runSlotHalf.cope, 0), (slotCode m.runSlotHalf.drag, 2), (slotCode m.runSlotAtrium, 4),
    (b2n m.fallbackAtrium, 7), (b2n m.fallback.cope, 8), (b2n m.fallback.drag, 9), (slotCode (stagedSlot s), 10),
    (b2n pend, 12), (b2n (ownerBound s), 13), (b2n (pourBusy s), 14), (b2n m.noMould, 15)]

def minSecVer (s : State) : Nat :=
  match (running s).map (·.secVer) with
  | [] => 0
  | a :: t => t.foldl Nat.min a

def verOf (x : Option Mould) : Word := (x.map (·.version)).getD 0
def digestOf (x : Option Mould) : Bytes := (x.map (·.digest)).getD []

def mldWord (s : State) (o : Nat) : Word :=
  let m := s.mld
  if o = 0 then mldStatus s
  else if o = 4 then word [(s.lcs.fuses.secVer, 0), (minSecVer s, 8)]
  else if o = 8 then word [(m.errReason.toNat, 0), (m.errSection.toNat, 16)]
  else if o = 0x10 then verOf m.runHalf.cope
  else if o = 0x14 then verOf m.runHalf.drag
  else if o = 0x18 then verOf m.runAtrium
  else if 0x100 ≤ o && o < 0x130 then wordAt (digestOf m.runHalf.cope) ((o - 0x100) / 4)
  else if 0x140 ≤ o && o < 0x170 then wordAt (digestOf m.runHalf.drag) ((o - 0x140) / 4)
  else if 0x180 ≤ o && o < 0x1B0 then wordAt (digestOf m.runAtrium) ((o - 0x180) / 4)
  else if 0x1C0 ≤ o && o < 0x1F0 then
    wordAt (((stagedSlot s).bind (slotImage s)).elim [] mouldDigest) ((o - 0x1C0) / 4)
  else if o = 0x200 then wordOf m.recAddr 0
  else if o = 0x204 then wordOf m.recAddr 1
  else if o = 0x208 then m.recLen.setWidth 32
  else if o = 0x20C then word [(b2n m.recDone, 1), (b2n m.recFail, 2)]
  else 0

/-! ### CHN and SPN windows (spec/19) -/

def chnWord (s : State) (o : Nat) : Word :=
  let c := s.chn
  match o with
  | 0x0 => word [(b2n c.head, 0), (b2n c.lastFrame.isSome, 1), (b2n c.valid, 2), (b2n c.roll.isSome, 3), (b2n c.rollFail, 4)]
  | 0x4 => word [(c.addr.toNat % 1024, 0), (c.epoch.toNat, 16)]
  | 0x8 => c.count.setWidth 32
  | 0xC => countReg c.frameErr
  | _ => 0

def LinkState.code : LinkState → Nat
  | .notBonded => 0 | .down => 1 | .training => 2 | .hello => 3 | .up => 4 | .refused => 5 | .loop => 6

def PairState.code : PairState → Nat
  | .none => 0 | .pending => 1 | .active => 2 | .unreachable => 3 | .resync => 4

def linkAt (s : State) (l : Nat) : Link := s.spn.links.get {} l

def spnWord (s : State) (o : Nat) : Word :=
  let x := s.spn
  if o = 0 then
    word [(b2n x.topoLoaded, 0), (b2n x.routesLoaded, 1), ((x.pairs.filter fun e => e.2.state == .active).length, 8),
      ((x.links.filter fun e => e.2.state == .up).length, 16)]
  else if o < 0x20 then
    countReg (nth 0 [x.dropEpoch, x.dropLate, x.dropBuffer, x.dropRoute, x.replRefused, x.pairMismatch, x.pairLost] (o / 4 - 1))
  else if 0x100 ≤ o && o < 0x300 then
    let l := linkAt s ((o - 0x100) / 4)
    word [(l.peer.toNat, 0), (l.firstLane.toNat, 16), (l.width.toNat, 23), (l.reason.toNat, 25), (l.state.code, 29)]
  else if 0x400 ≤ o && o < 0x600 then countReg (linkAt s ((o - 0x400) / 4)).retry
  else if 0x800 ≤ o && o < 0x1000 then
    let p := pairAt s ((o - 0x800) / 8)
    if o % 8 = 0 then word [(p.partner.toNat, 8), (p.unit.toNat, 16), (p.policy.toNat, 26), (p.state.code, 29)]
    else word [(p.pending.length, 0)]
  else 0

/-! ### CUS and ARC windows (R357, R358) -/

def CardState.code : CardState → Nat
  | .empty => 0 | .activating => 1 | .authenticating => 2 | .ready => 3 | .waitHolder => 4 | .done => 5 | .refused => 6 | .error => 7
  | .disabled => 8

def ArcState.code : ArcState → Nat
  | .empty => 0 | .init => 1 | .ready => 2 | .busy => 3 | .error => 4 | .disabled => 5

def cardPort (s : State) (n : Nat) : CardPort := s.cus.ports.get {} n
def arcPort (s : State) (n : Nat) : ArcPort := s.arc.ports.get {} n

def cusWord (s : State) (o : Nat) : Word :=
  let c := s.cus
  if o = 0 then word [(c.m, 0), (c.n, 8), (b2n c.classC, 30), (b2n c.installed, 31)]
  else if o = 4 then c.event.setWidth 32
  else if o = 8 then countReg c.refused
  else if 0x100 ≤ o && o < 0x140 then
    let p := cardPort s ((o - 0x100) / 4)
    word [(p.ifsc.toNat, 0), (p.ta1.toNat, 8), (p.index.toNat, 20), (p.reason.toNat, 24), (p.state.code, 28)]
  else if 0x200 ≤ o && o < 0x240 then
    match nth none c.cer ((o - 0x200) / 8) with
    | none => 0
    | some x =>
      if o % 8 = 0 then x.ref
      else word [(x.uses % 8192, 0), (if x.complete then c.m else x.shares.length, 13), (x.gallery, 18), (x.purpose, 26), (if x.complete then 2 else 1, 30)]
  else 0

def arcWord (s : State) (o : Nat) : Word :=
  let a := s.arc
  if o = 0 then word [(b2n a.uhsEn, 0), (b2n a.v18, 1)]
  else if o = 4 then
    match a.write with
    | none => 0
    | some w => word [(w.seq % 2 ^ 24, 0), (w.port, 28), (b2n w.waitCard, 30), (1, 31)]
  else if o = 8 then countReg a.rewrites
  else if 0x100 ≤ o && o < 0x110 then
    let p := arcPort s ((o - 0x100) / 4)
    word [(p.reason.toNat, 16), (b2n p.no18, 20), (b2n p.switchWp, 21), (b2n p.tmpWp, 22), (b2n p.permWp, 23), (p.speed, 24),
      (p.type.val, 26), (p.state.code, 28)]
  else 0

/-! ### SRM window (R317) -/

/-- Next slot of a task that runs per bank: the lower of the available banks' positions. -/
def posOf (s : State) (on : Bool) (p : Two Nat) : Nat :=
  if !on then 0
  else match bankUp s .cope, bankUp s .drag with
    | true, true => Nat.min p.cope p.drag
    | true, false => p.cope
    | _, _ => p.drag

def srmWord (s : State) (o : Nat) : Word :=
  let r := s.srm
  let stale := fun (h : Half) => (r.bank.get h).stale.length
  if o = 0 then
    word [(rootSel s, 0), (b2n (bankUp s .cope), 8), (b2n (bankUp s .drag), 9), (b2n (0 < stale .cope), 10), (b2n (0 < stale .drag), 11),
      (b2n r.dirReady, 12), (b2n r.epoch, 13), (b2n r.reseal, 14), (b2n r.overwrite, 15), (b2n r.quenched, 16)]
  else if o < 0x20 then
    BitVec.ofNat 32 (match o / 4 with
      | 1 => posOf s r.reseal r.resealPos
      | 2 => posOf s r.overwrite r.overwritePos
      | 3 => stale .cope
      | 4 => stale .drag
      | 5 => (assignedSlots s).length
      | 6 => (r.dir.filter fun e => e.2.state == .good).length
      | _ => (r.dir.filter fun e => e.2.state == .bad).length)
  else if o = 0x20 then countReg r.corrected
  else if o = 0x24 then word [(r.reseals.toNat, 0), (r.quenches.toNat, 16)]
  else if 0x100 ≤ o && o < 0x130 then wordAt (deviceId s) ((o - 0x100) / 4)
  else 0

/-! ### CUP and LANE windows (R278, spec/06) -/

def cupWord (s : State) (o : Nat) : Word :=
  let c := s.cup
  if o = 0 then cupSummary s .cope
  else if o = 4 then cupSummary s .drag
  else if 0x20 ≤ o && o < 0x30 then countReg (nth 0 [c.mismatch.cope, c.mismatch.drag, c.unresolved, c.abandoned] ((o - 0x20) / 4))
  else if o = 0x30 then word [(c.waitCount.cope.toNat, 0), (c.waitCount.drag.toNat, 16)]
  else if 0x100 ≤ o && o < 0x148 then cupState s ((o - 0x100) / 4)
  else 0

def laneSummary (s : State) (h : Half) : Word :=
  let ls := (s.lanes.half.get h).lanes
  let n := fun st => (ls.filter fun (l : Lane) => l.state == st).length
  if !poured s h then 0 else word [((ls.filter (·.role == .off)).length, 0), (n .retired, 6), (n .spare, 12), (n .active, 18)]

def laneState (s : State) (n : Nat) : Word :=
  let h := if n < 40 then Half.cope else .drag
  let x := nth {} (s.lanes.half.get h).lanes (n % 40)
  word [(x.role.code, 0), (x.state.code, 8), (x.cause.toNat, 16), (recentFails s h x.fails, 24)]

def laneWord (s : State) (o : Nat) : Word :=
  let l := s.lanes
  let lib := fun h (f : LaneHalf → Word) => if poured s h then f (l.half.get h) else 0
  let both := fun (x : Two Nat) => word [(x.cope, 0), (x.drag, 16)]
  if o = 0 then laneSummary s .cope
  else if o = 4 then laneSummary s .drag
  else if o = 0x10 then lib .cope (·.libId)
  else if o = 0x14 then lib .cope (·.libVer)
  else if o = 0x18 then lib .drag (·.libId)
  else if o = 0x1C then lib .drag (·.libVer)
  else if o = 0x20 then countReg l.half.cope.mismatch
  else if o = 0x24 then countReg l.half.drag.mismatch
  else if o = 0x28 then countReg l.unresolved
  else if o = 0x2C then countReg l.prepFault
  else if o = 0x30 then word [(l.half.cope.shortfall.toNat, 0), (l.half.drag.shortfall.toNat, 16)]
  else if o = 0x34 then countReg l.reexec
  else if 0x100 ≤ o && o < 0x240 then laneState s ((o - 0x100) / 4)
  else if 0x400 ≤ o && o < 0xC00 then
    let v := gv s ((o - 0x400) / 8)
    both ((if o % 8 = 0 then v.ways else v.blocks).map (·.length))
  else 0

/-! ### Mailboxes (spec/04) -/

/-- Word at offset `o` of a mailbox. -/
def mbxWord (s : State) (n o : Nat) : Word :=
  let m := (gv s n).mbx
  if !hasMbx s n then 0
  else if o < 0x7F0 then nth 0 m.outData (o / 4)
  else if o = 0x7F0 then m.outLen.setWidth 32
  else if o = 0x7F4 then word [(b2n m.busy, 1)]
  else if 0x800 ≤ o && o < 0xFF0 then nth 0 m.inData ((o - 0x800) / 4)
  else if o = 0xFF0 then m.inLen.setWidth 32
  else if o = 0xFF4 then word [(b2n m.full, 1)]
  else 0

def galWinWord (s : State) (o : Nat) : Word :=
  if o < 0x40 then poolWord s (o / 4)
  else if o = 0x40 then s.mbxSel.setWidth 32
  else if 0x60 ≤ o && o < 0x80 then BitVec.ofNat 32 (s.mbxAcked.toNat / 2 ^ (32 * ((o - 0x60) / 4)))
  else if 0x8000 ≤ o && o < 0x9000 then mbxWord s s.mbxSel.toNat (o % 0x1000)
  else 0

/-! ### The gallery window (R23, R108, R558) -/

def sqWord (s : State) (k i : Nat) : Word :=
  let q := sq s k
  let c := cq s (cqKey s k)
  match i with
  | 0 => word [(q.pi, 0), (q.gen.toNat, 28)]
  | 1 => word [(q.ci, 0), (q.gen.toNat, 28)]
  | 2 =>
    let st := if !q.exist then 0 else if q.closing then 3 else if c.full || c.error || holdFree c = 0 then 2 else 1
    word [(if q.exist then q.cq else 0, 4), (b2n q.openChain, 10), (q.depthLog2, 11), (b2n q.admin, 16), (halfNo q.port, 17), (st, 18), (q.id, 20)]
  | _ => word [(q.stale, 0), (q.invalid, 16)]

def cqWord (s : State) (k i : Nat) : Word :=
  let c := cq s k
  match i with
  | 0 => word [(c.ci, 0), (c.gen.toNat, 28)]
  | 1 => word [(c.pi, 0), (c.gen.toNat, 28)]
  | 2 =>
    let st := if !c.exist then 0 else if c.error then 3 else if c.full then 2 else 1
    word [(b2n c.intEn, 6), (c.holdLog2, 7), (c.depthLog2, 11), (b2n c.mirror, 16), (halfNo c.port, 17), (st, 18), (c.id, 20)]
  | _ => word [(c.stale, 0), (c.invalid, 16)]

def aqWord (s : State) (g i : Nat) : Word :=
  let a := (gv s g).aq
  match i with
  | 0 => wordOf a.sqBase 0
  | 1 => wordOf a.sqBase 1
  | 2 => wordOf a.cqBase 0
  | 3 => wordOf a.cqBase 1
  | _ => word [(b2n a.enable, 0), (b2n a.refused, 1), (a.sqDepth.toNat, 6), (a.cqDepth.toNat, 11), (b2n a.portB, 16), (b2n a.intEn, 19),
      (a.vector.toNat, 20), (b2n a.ready, 31)]

def msixWord (s : State) (g v i : Nat) : Word :=
  let e := s.hst.msix.get {} (2048 * g + v)
  if vectorCount s g ≤ v then 0
  else match i with
    | 0 => wordOf e.addr 0
    | 1 => wordOf e.addr 1
    | 2 => e.data
    | _ => word [(b2n e.mask, 0)]

def pendWord (s : State) (g i : Nat) : Word :=
  word ((List.range 32).map fun b =>
    (b2n (32 * i + b < vectorCount s g && (let e := s.hst.pend.get ⟨false, false⟩ (2048 * g + 32 * i + b); e.cope || e.drag)), b))

/-- Word at offset `o` of the window of gallery `g`. -/
def galleryWord (s : State) (g o : Nat) : Word :=
  if o < 0x30 then galWord s g (o / 4)
  else if 0x100 ≤ o && o < 0x114 then aqWord s g ((o - 0x100) / 4)
  else if 0x1000 ≤ o && o < 0x2000 then mbxWord s g (o % 0x1000)
  else if 0x2000 ≤ o && o < 0x2400 then sqWord s (qkey g (o % 0x400 / 16)) (o / 4 % 4)
  else if 0x2400 ≤ o && o < 0x2800 then cqWord s (qkey g (o % 0x400 / 16)) (o / 4 % 4)
  else if 0x4000 ≤ o && o < 0xC000 then msixWord s g (o / 16 - 0x400) (o / 4 % 4)
  else if 0xC000 ≤ o && o < 0xC100 then pendWord s g (o % 0x100 / 4)
  else 0

/-! ### The whole BAR0 (R19, R20) -/

/-- Word-aligned offset `o` of window `w` (offset / 0x1_0000) of the physical function. -/
def winWord (s : State) (w o : Nat) : Word :=
  match w with
  | 0x0 => atrWord s o
  | 0x1 => fltWord s o
  | 0x2 => pwrWord s o
  | 0x3 => tmpWinWord s o
  | 0x4 => recWord s o
  | 0x5 => rngWord s o
  | 0x6 => lcsWord s o
  | 0x7 => mldWord s o
  | 0x8 => chnWord s o
  | 0x9 => spnWord s o
  | 0xA => cusWord s o
  | 0xB => arcWord s o
  | 0xC => srmWord s o
  | 0xD => cupWord s o
  | 0xE => laneWord s o
  | 0xF => galWinWord s o
  | 0x10 => galleryWord s 0 o
  | _ => 0

/-- Ranges of assigned word offsets: first and last. -/
def assignedRanges (w : Nat) : List (Nat × Nat) :=
  match w with
  | 0x0 => [(0, 0x14), (0x20, 0x28), (0x30, 0x30), (0x3C, 0x3C), (0x100, 0x108)]
  | 0x1 => [(0, 0x28), (0x30, 0x30), (0x100, 0x4FC)]
  | 0x2 => [(0, 0x18), (0x20, 0x28)]
  | 0x3 => [(0, 0x18), (0x400, 0xA04)]
  | 0x4 => [(0, 0xC), (0x200, 0x5FC)]
  | 0x5 => [(0, 0), (8, 0x10), (0x20, 0x2C), (0x100, 0x17C)]
  | 0x6 => [(0, 0x10)]
  | 0x7 => [(0, 8), (0x10, 0x18), (0x100, 0x12C), (0x140, 0x16C), (0x180, 0x1AC), (0x1C0, 0x1EC), (0x200, 0x20C)]
  | 0x8 => [(0, 0xC)]
  | 0x9 => [(0, 0x1C), (0x100, 0x2FC), (0x400, 0x5FC), (0x800, 0xFFC)]
  | 0xA => [(0, 8), (0x100, 0x13C), (0x200, 0x23C)]
  | 0xB => [(0, 8), (0x100, 0x10C)]
  | 0xC => [(0, 0x24), (0x100, 0x12C)]
  | 0xD => [(0, 4), (0x20, 0x30), (0x100, 0x144)]
  | 0xE => [(0, 4), (0x10, 0x34), (0x100, 0x23C), (0x400, 0xBFC)]
  | 0xF => [(0, 0x14), (0x20, 0x40), (0x60, 0x7C), (0x8000, 0x87F4), (0x8800, 0x8FF4)]
  | _ => [(0, 0x2C), (0x100, 0x110), (0x1000, 0x17F4), (0x1800, 0x1FF4), (0x2000, 0x27FC), (0x4000, 0xC0FC)]

def inRanges (l : List (Nat × Nat)) (o : Nat) : Bool := l.any fun r => r.1 ≤ o && o ≤ r.2

/-- A BAR0 offset of function `fn` is assigned (R20); window 0x10 is a gallery window. -/
def assignedAt (fn off : Nat) : Bool :=
  let o := off / 4 * 4
  if fn ≠ 0 then inRanges (assignedRanges 0x10) o
  else off / 65536 ≤ 0x10 && inRanges (assignedRanges (off / 65536)) (o % 65536)

/-- A counted access (R20, R21, ATR_ACCESS_ERR). -/
def accessErr (s : State) (off : BitVec 21) : State :=
  { s with atr := { s.atr with errCount := BitVec.ofNat 10 (satInc 1023 s.atr.errCount.toNat), errLast := off } }

/-- Who reads a register: a host port, a core, the debug port. -/
inductive Reader where
  | port (p : Half)
  | core (c : Nat)
  | debug
  deriving DecidableEq, Repr

/-- Bits 55:32 of the count go into the latch of the reader (R54). -/
def latchHi (s : State) (r : Reader) : State :=
  let hi := BitVec.ofNat 24 (tick s / 2 ^ 32)
  { s with gen := match r with
      | .port p => { s.gen with hiLatch := s.gen.hiLatch.set p hi }
      | _ => { s.gen with hiInner := hi } }

def hiOf (s : State) (r : Reader) : Word :=
  match r with
  | .port p => (s.gen.hiLatch.get p).setWidth 32
  | _ => s.gen.hiInner.setWidth 32

/-- A read of a word of the physical function's BAR0 with what it changes: the latch of R54, the raw FIFO (R465), the
software port's word, which cores alone reach (R464), and the free value that a cycle takes. -/
def readWord (s : State) (r : Reader) (off : Nat) : Word × State :=
  let w := off / 65536
  let o := off % 65536 / 4 * 4
  if w = 0 && o = 0x100 then (atrWord s o, latchHi s r)
  else if w = 0 && o = 0x104 then (hiOf s r, s)
  else if w = 0 && o = 0x108 then (tickPos s, bump s)
  else if w = 5 && o = 0xC then rawRead s
  else if w = 5 && o = 0x800 then
    match r with
    | .port _ => (0, s)
    | .core c => (word [(b2n (drbgReady s 3), 0), (b2n (core s c).rngValid, 31)], s)
    | .debug => (word [(b2n (drbgReady s 3), 0)], s)
  else if w = 5 && o = 0x804 then
    match r with
    | .port _ => (0, s)
    | .core c => swRead s c
    | .debug => swRead s 9
  else (winWord s w o, s)

/-- TICK_LO_READ (R54): a read of the tick count through a port. A 4-byte read of `ATR_TICK_LO` latches the upper bits, one
of `ATR_TICK_HI` returns the latch, and an 8-byte read returns both words of one count. -/
def execTickLoRead (r : TickRead) (s : State) : Out :=
  .next <| match r.part with
  | .lo =>
    let x := readWord s (.port r.port) 0x100
    { x.2 with response := x.1 }
  | .hi => { s with response := (readWord s (.port r.port) 0x104).1 }
  | .both =>
    let x := readWord s (.port r.port) 0x100
    let t := { x.2 with response := x.1 }
    { t with gen := { t.gen with upper := (readWord t (.port r.port) 0x104).1 } }

end Sys2Proof.Machine
end

