-- ==== Sys2Proof/Machine/RegWrite.lean ====
section
/-!
DEFINITION. What a write to each register does (R3, R19 to R25, R80, R83, R100, R103, R558 to R561, R570), and accesses that
the part counts (R20, R21).
-/
namespace Sys2Proof.Machine

/-- A count register written with `v`: bit 31 clears it. -/
def clr (v : Word) (c : BitVec 31) : BitVec 31 := if bit v 31 then 0 else c

/-- Write one to clear the low bits of a field. -/
def w1c {n : Nat} (x : BitVec n) (v : Word) : BitVec n := x &&& ~~~(v.setWidth n)

def updAtr (s : State) (f : AtrRegs → AtrRegs) : State := { s with atr := f s.atr }
def updHst (s : State) (f : HostPorts → HostPorts) : State := { s with hst := f s.hst }

/-! ### Windows of the physical function -/

/-- While an enabled event bit is 1 the part raises vector 0 (R25). -/
def raiseAtr (s : State) : State := if s.atr.event &&& s.atr.eventEn = 0 then s else raise s 0 0

def atrWrite (s : State) (o : Nat) (v : Word) : State :=
  match o with
  | 0x24 => updAtr s fun a => { a with event := w1c a.event v }
  | 0x28 =>
    let fresh := s.atr.event &&& v.setWidth 5 &&& ~~~s.atr.eventEn
    let s := updAtr s fun a => { a with eventEn := v.setWidth 5 }
    if fresh = 0 then s else raiseAtr s
  | 0x30 => if bit v 31 then updAtr s fun a => { a with errCount := 0, errLast := 0 } else s
  | 0x3C => updAtr s fun a => { a with scratch := v }
  | _ => s

def fltWrite (s : State) (o : Nat) (v : Word) : State :=
  if o = 0 then (clearFaults s (v.setWidth 64)).1
  else if o = 4 then (clearFaults s (v.setWidth 64 <<< 32)).1
  else if o = 0x24 then updFlt s fun f => { f with clearRefused := clr v f.clearRefused }
  else if o = 0x28 then if bit v 31 then updFlt s fun f => { f with lastValid := false, lastSource := 0, lastUnit := 0 } else s
  else if 0x200 ≤ o && o < 0x300 then updSrc s ((o - 0x200) / 4) fun x => { x with count := clr v x.count }
  else s

/-- `PWR_RESET_CTL`: the key and `DEVICE` (R584). -/
def resetCtl (s : State) (v : Word) : State := if fld v 31 24 = 0xA5 && bit v 0 then deviceReset s 5 else s

def pwrWrite (s : State) (o : Nat) (v : Word) : State :=
  let rail := fun h => updPwr s fun p => { p with feed := p.feed.upd h fun f => { f with lowSeen := w1c f.lowSeen (v >>> 8) } }
  match o with
  | 0x00 => updPwr s fun p => { p with cellOnlySeen := p.cellOnlySeen && !bit v 2 }
  | 0x04 => rail .cope
  | 0x08 => rail .drag
  | 0x10 => updPwr s fun p => { p with switchovers := clr v p.switchovers }
  | 0x18 => resetCtl s v
  | _ => s

def tmpWrite (s : State) (o : Nat) (v : Word) : State :=
  if o = 0 then updTmp s fun t => { t with cellCopied := t.cellCopied && !bit v 4 } else s

def recWrite (s : State) (o : Nat) (v : Word) : State :=
  if o = 0xC then updRcd s fun r => { r with sel := v.setWidth 12 } else s

def rngWrite (s : State) (o : Nat) (v : Word) : State :=
  if o = 0x10 then updRng s fun r => { r with noEntropy := clr v r.noEntropy } else s

def lcsWrite (s : State) (o : Nat) (v : Word) : State :=
  if o = 0x10 && bit v 31 then updLcs s fun l => { l with lastKind := 0, completed := 0 } else s

/-- The recovery port (R557). -/
def recoveryPort (s : State) : Half := if s.pwr.feed.cope.valid then .cope else .drag

/-- `GO`: the recovery read starts through the recovery port (R68, R80). -/
def recoveryGo (s : State) : State :=
  if !s.mld.noMould || s.mld.recBusy then s
  else
    let s := updMld s fun m => { m with recBusy := true, recFail := false, recDone := false }
    emit { s with nextRid := s.nextRid + 1 } (.read s.nextRid (recoveryPort s) s.mld.recAddr s.mld.recLen.toNat)

/-- The low and high words of a 64-bit register. -/
def setWord (x : BitVec 64) (k : Nat) (v : Word) : BitVec 64 :=
  if k = 0 then x &&& 0xFFFFFFFF00000000 ||| v.setWidth 64 else x &&& 0xFFFFFFFF ||| v.setWidth 64 <<< 32

def mldWrite (s : State) (o : Nat) (v : Word) : State :=
  match o with
  | 0x00 => updMld s fun m =>
      { m with
        fallbackAtrium := m.fallbackAtrium && !bit v 7
        fallback := ⟨m.fallback.cope && !bit v 8, m.fallback.drag && !bit v 9⟩ }
  | 0x08 => if bit v 31 then updMld s fun m => { m with errSection := 0, errReason := 0 } else s
  | 0x200 => if s.mld.noMould then updMld s fun m => { m with recAddr := setWord m.recAddr 0 v } else s
  | 0x204 => if s.mld.noMould then updMld s fun m => { m with recAddr := setWord m.recAddr 1 v } else s
  | 0x208 => if s.mld.noMould then updMld s fun m => { m with recLen := v.setWidth 22 } else s
  | 0x20C => if bit v 0 then recoveryGo s else s
  | _ => s

def updChn (s : State) (f : Chain → Chain) : State := { s with chn := f s.chn }

def chnWrite (s : State) (o : Nat) (v : Word) : State :=
  match o with
  | 0x0 => updChn s fun c => { c with rollFail := c.rollFail && !bit v 4 }
  | 0xC => updChn s fun c => { c with frameErr := clr v c.frameErr }
  | _ => s

def spnWrite (s : State) (o : Nat) (v : Word) : State :=
  match o with
  | 0x04 => updSpn s fun x => { x with dropEpoch := clr v x.dropEpoch }
  | 0x08 => updSpn s fun x => { x with dropLate := clr v x.dropLate }
  | 0x0C => updSpn s fun x => { x with dropBuffer := clr v x.dropBuffer }
  | 0x10 => updSpn s fun x => { x with dropRoute := clr v x.dropRoute }
  | 0x14 => updSpn s fun x => { x with replRefused := clr v x.replRefused }
  | 0x18 => updSpn s fun x => { x with pairMismatch := clr v x.pairMismatch }
  | 0x1C => updSpn s fun x => { x with pairLost := clr v x.pairLost }
  | o =>
    if 0x400 ≤ o && o < 0x600 then
      updSpn s fun x => { x with links := x.links.upd {} ((o - 0x400) / 4) fun l => { l with retry := clr v l.retry } }
    else s

def cusWrite (s : State) (o : Nat) (v : Word) : State :=
  match o with
  | 4 => updCus s fun c => { c with event := w1c c.event v }
  | 8 => updCus s fun c => { c with refused := clr v c.refused }
  | _ => s

def arcWriteReg (s : State) (o : Nat) (v : Word) : State :=
  match o with
  | 0 => updArc s fun a => { a with uhsEn := bit v 0 }
  | 8 => updArc s fun a => { a with rewrites := clr v a.rewrites }
  | _ => s

def srmWrite (s : State) (o : Nat) (v : Word) : State :=
  match o with
  | 0x00 => updSrm s fun r => { r with quenched := r.quenched && !bit v 16 }
  | 0x20 => updSrm s fun r => { r with corrected := clr v r.corrected }
  | _ => s

def cupWrite (s : State) (o : Nat) (v : Word) : State :=
  match o with
  | 0x20 => updCup s fun c => { c with mismatch := c.mismatch.upd .cope (clr v) }
  | 0x24 => updCup s fun c => { c with mismatch := c.mismatch.upd .drag (clr v) }
  | 0x28 => updCup s fun c => { c with unresolved := clr v c.unresolved }
  | 0x2C => updCup s fun c => { c with abandoned := clr v c.abandoned }
  | _ => s

def laneWrite (s : State) (o : Nat) (v : Word) : State :=
  match o with
  | 0x20 => updLaneHalf s .cope fun x => { x with mismatch := clr v x.mismatch }
  | 0x24 => updLaneHalf s .drag fun x => { x with mismatch := clr v x.mismatch }
  | 0x28 => { s with lanes := { s.lanes with unresolved := clr v s.lanes.unresolved } }
  | 0x2C => { s with lanes := { s.lanes with prepFault := clr v s.lanes.prepFault } }
  | 0x34 => { s with lanes := { s.lanes with reexec := clr v s.lanes.reexec } }
  | _ => s

/-! ### Mailboxes (R99, R100, R103) -/

/-- A list with element `i` set, zeros standing before it where the list is shorter. -/
def setWordAt (l : List Word) (i : Nat) (v : Word) : List Word :=
  if i < l.length then setNth l i v else l ++ List.replicate (i - l.length) 0 ++ [v]

/-- A write to the gallery's side of its own mailbox. -/
def mbxWrite (s : State) (n o : Nat) (v : Word) : State :=
  let m := (gv s n).mbx
  if !hasMbx s n then s
  else if o = 0x7F4 then if bit v 0 then mbxOutRing s n else s
  else if o = 0xFF4 then if bit v 0 then mbxGalleryAck s n else s
  else if m.busy then s
  else if o < 0x7F0 then updMbx s n fun m => { m with outData := setWordAt m.outData (o / 4) v }
  else if o = 0x7F0 then updMbx s n fun m => { m with outLen := v.setWidth 11 }
  else s

/-- A write to the Curator's aperture: the roles are exchanged. -/
def apertureWrite (s : State) (o : Nat) (v : Word) : State :=
  let n := s.mbxSel.toNat
  let m := (gv s n).mbx
  if !hasMbx s n then s
  else if o = 0x7F4 then if bit v 0 then mbxCuratorAck s else s
  else if o = 0xFF4 then if bit v 0 then mbxInRing s else s
  else if m.full then s
  else if 0x800 ≤ o && o < 0xFF0 then updMbx s n fun m => { m with inData := setWordAt m.inData ((o - 0x800) / 4) v }
  else if o = 0xFF0 then updMbx s n fun m => { m with inLen := v.setWidth 11 }
  else s

/-- Bits of word `k` of a 256-bit register cleared by ones. -/
def w1c256 (x : BitVec 256) (k : Nat) (v : Word) : BitVec 256 := x &&& ~~~(v.setWidth 256 <<< (32 * k))

def galWinWrite (s : State) (o : Nat) (v : Word) : State :=
  if 0x20 ≤ o && o < 0x40 then raiseMbx { s with mbxPending := w1c256 s.mbxPending ((o - 0x20) / 4) v }
  else if o = 0x40 then { s with mbxSel := v.setWidth 8 }
  else if 0x60 ≤ o && o < 0x80 then raiseMbx { s with mbxAcked := w1c256 s.mbxAcked ((o - 0x60) / 4) v }
  else if 0x8000 ≤ o && o < 0x9000 then apertureWrite s (o % 0x1000) v
  else s

/-! ### MSI-X (R558, R560; entry 9) -/

/-- Pending vectors of function `g` that are no longer masked are sent. -/
def sendPending (s : State) (g : Nat) : State :=
  (s.hst.pend.filter fun e => e.1 / 2048 = g).foldl (fun s e =>
    if (s.hst.msix.get {} e.1).mask then s
    else
      let s := updHst s fun x => { x with pend := x.pend.put ⟨false, false⟩ e.1 ⟨false, false⟩ }
      let one := fun h s => if e.2.get h then raiseOn s h g (e.1 % 2048) else s
      one .drag (one .cope s)) s

def msixWrite (s : State) (g vec i : Nat) (v : Word) : State :=
  if vectorCount s g ≤ vec then s
  else sendPending (updHst s fun x => { x with msix := x.msix.upd {} (2048 * g + vec) fun e =>
    match i with
    | 0 => { e with addr := setWord e.addr 0 v }
    | 1 => { e with addr := setWord e.addr 1 v }
    | 2 => { e with data := v }
    | _ => { e with mask := bit v 0 } }) g

/-! ### The gallery window -/

/-- GAL_ST_EVENT and its enables (R104). -/
def eventWrite (s : State) (g o : Nat) (v : Word) : State :=
  if o = 0x20 then updGv s g fun x => { x with event := w1c x.event v }
  else if o = 0x24 then
    let fresh := (gv s g).event &&& v.setWidth 6 &&& ~~~(gv s g).eventEn
    let s := updGv s g fun x => { x with eventEn := v.setWidth 6 }
    if fresh = 0 then s else raise s g 0
  else s

/-- The base registers of the admin pair, while `READY` is 0 (R112). -/
def aqBaseWrite (s : State) (g i : Nat) (v : Word) : State :=
  if (gv s g).aq.ready then s
  else updGv s g fun x => { x with aq :=
    if i < 2 then { x.aq with sqBase := setWord x.aq.sqBase i v } else { x.aq with cqBase := setWord x.aq.cqBase (i - 2) v } }

def sqRegWrite (s : State) (k i : Nat) (v : Word) : State :=
  match i with
  | 0 => sqDoorbell s k v
  | 3 => if bit v 31 then updSq s k fun q => { q with stale := 0, invalid := 0 } else s
  | _ => s

def cqRegWrite (s : State) (k i : Nat) (v : Word) : State :=
  match i with
  | 0 => cqDoorbell s k v
  | 3 => if bit v 31 then updCq s k fun c => { c with stale := 0, invalid := 0 } else s
  | _ => s

def galleryWrite (s : State) (g o : Nat) (v : Word) : State :=
  if 0x4000 ≤ o && o < 0xC000 then msixWrite s g (o / 16 - 0x400) (o / 4 % 4) v
  else if (gal s g).state == .free then s
  else if o < 0x30 then eventWrite s g o v
  else if 0x100 ≤ o && o < 0x110 then aqBaseWrite s g ((o - 0x100) / 4) v
  else if o = 0x110 then aqWrite s g v
  else if 0x1000 ≤ o && o < 0x2000 then mbxWrite s g (o % 0x1000) v
  else if 0x2000 ≤ o && o < 0x2400 then sqRegWrite s (qkey g (o % 0x400 / 16)) (o / 4 % 4) v
  else if 0x2400 ≤ o && o < 0x2800 then cqRegWrite s (qkey g (o % 0x400 / 16)) (o / 4 % 4) v
  else s

/-! ### The whole BAR0 -/

def winWrite (s : State) (w o : Nat) (v : Word) : State :=
  match w with
  | 0x0 => atrWrite s o v
  | 0x1 => fltWrite s o v
  | 0x2 => pwrWrite s o v
  | 0x3 => tmpWrite s o v
  | 0x4 => recWrite s o v
  | 0x5 => rngWrite s o v
  | 0x6 => lcsWrite s o v
  | 0x7 => mldWrite s o v
  | 0x8 => chnWrite s o v
  | 0x9 => spnWrite s o v
  | 0xA => cusWrite s o v
  | 0xB => arcWriteReg s o v
  | 0xC => srmWrite s o v
  | 0xD => cupWrite s o v
  | 0xE => laneWrite s o v
  | 0xF => galWinWrite s o v
  | 0x10 => galleryWrite s 0 o v
  | _ => s

/-- A 4-byte write to the BAR0 of function `fn`: an unassigned offset is counted (R20). -/
def barWrite (s : State) (fn : Nat) (off : BitVec 21) (v : Word) : State :=
  if !assignedAt fn off.toNat then accessErr s off
  else if fn ≠ 0 then galleryWrite s fn off.toNat v
  else winWrite s (off.toNat / 65536) (off.toNat % 65536) v

/-- The windows that the recovery port serves (R68, R372, R476, R557, spec/12). -/
def recoveryWindow (s : State) (w : Nat) : Bool :=
  w = 0 || w = 6 || (w = 7 && (s.mld.noMould || s.flt.deviceHold)) || (w = 1 && s.flt.deviceHold)

/-- An access of `fn` at `off` through `port` reaches the registers: the part runs, the function's reset is over (R561),
and in recovery the recovery port serves the window to the physical function (R557). -/
def barOpen (s : State) (port : Half) (fn off : Nat) : Bool :=
  s.pwr.phase != .off && windowOpen s port fn &&
    (s.pwr.phase != .recovery || (port == recoveryPort s && fn = 0 && recoveryWindow s (off / 65536)))

/-! ### Configuration space (R82, R560, R563, R570) -/

/-- Every queue of the galleries whose functions leave port `p` is destroyed (R82). -/
def setVfs (s : State) (p : Half) (en : Bool) (n : Byte) : State :=
  let before := fun g => fnEnabled s p g
  let t := updPort s p fun x => { x with vfEnable := en, numVfs := n }
  ((List.range 256).filter fun g => before g && !fnEnabled t p g).foldl (fun s g => killPortQueues s g p) t

/-- `HST_VEC` (R559). -/
def vecWrite (s : State) (v : Word) : State :=
  let pf := fld v 11 0
  let vf := fld v 23 16
  if !s.hst.port.cope.vfEnable && !s.hst.port.drag.vfEnable && 3 ≤ pf && pf ≤ 2048 && 2 ≤ vf && pf + 255 * vf ≤ 2048 then
    updHst s fun x => { x with vecPf := BitVec.ofNat 12 pf, vecVf := BitVec.ofNat 8 vf }
  else s

def cfgWrite (s : State) (p : Half) (fn : Nat) (reg : RegTarget) (v : Word) : State :=
  match reg with
  | .bar0 off => if barOpen s p fn off.toNat then barWrite s fn off v else s
  | .command => sendPending (updFn s p fn fun f => { f with busMaster := bit v 2 }) fn
  | .msixControl =>
    let s' := sendPending (updFn s p fn fun f => { f with msixEn := bit v 15, fnMask := bit v 14 }) fn
    if bit v 15 && !(fnCfg s p fn).msixEn then assertFn s' p fn else s'
  | .sriov => if fn = 0 && s.pwr.phase != .recovery then setVfs s p (bit v 0) (BitVec.ofNat 8 (fld v 31 16)) else s
  | .hst off =>
    if fn ≠ 0 then s
    else match off.toNat with
      | 0x410 => vecWrite s v
      | 0x414 => updPort s p fun x => { x with ideReq := v.setWidth 5 }
      | 0x418 => updHst s fun x => { x with loss := x.loss.upd p (clr v) }
      | 0x41C => updPort s p fun x => { x with ideFail := clr v x.ideFail }
      | _ => s

/-- REGISTER_WRITE (R3, R19 to R25, R83, R570). -/
def execRegisterWrite (port : Half) (fn : Gallery) (reg : RegTarget) (val : Word) (s : State) : Out :=
  .next (if s.pwr.phase == .off || !windowOpen s port fn.toNat then s else cfgWrite s port fn.toNat reg val)

/-- UNASSIGNED_ACCESS (R20): a write is counted, a read returns zero. -/
def execUnassignedAccess (port : Half) (fn : Gallery) (off : BitVec 21) (isWrite : Bool) (s : State) : Out :=
  .next <|
    if assignedAt fn.toNat off.toNat || s.pwr.phase == .off then s
    else if isWrite then (if windowOpen s port fn.toNat then accessErr s off else s)
    else { s with response := 0 }

/-- MISALIGNED_ACCESS (R21). -/
def execMisalignedAccess (port : Half) (fn : Gallery) (off : BitVec 21) (size : Nat) (isWrite : Bool) (s : State) : Out :=
  .next <|
    if ((size = 4 || size = 8) && off.toNat % size = 0) || s.pwr.phase == .off then s
    else if isWrite then (if windowOpen s port fn.toNat then accessErr s off else s)
    else { accessErr s off with response := 0xFFFFFFFF }

/-- HST_VEC_WRITE (R559). -/
def execHstVecWrite (port : Half) (val : Word) (s : State) : Out :=
  .next (if s.pwr.phase == .off || !windowOpen s port 0 then s else vecWrite s val)

/-- PWR_RESET_CTL_DEVICE (R584, R587). -/
def execPwrResetCtlDevice (val : Word) (s : State) : Out := .next (if s.pwr.phase == .off then s else resetCtl s val)

/-- VF_DISABLE (R82): `VF Enable` cleared (`numVfs` zero) or the number of functions lowered. -/
def execVfDisable (port : Half) (numVfs : Byte) (s : State) : Out :=
  .next <|
    let p := s.hst.port.get port
    if p.vfEnable && numVfs.toNat < p.numVfs.toNat || numVfs = 0 then setVfs s port (numVfs != 0 && p.vfEnable) numVfs else s

/-- RECOVERY_GO (R68, R80). -/
def execRecoveryGo (port : Half) (s : State) : Out := .next (if barOpen s port 0 0x7020C then recoveryGo s else s)

end Sys2Proof.Machine
end

