-- ==== Sys2Proof/Machine/Fabric.lean ====
section
/-!
DEFINITION. The internal address map and who may reach what: region rules, gates, refusals, the local cipher unit, the data
L1 of a core (R387 to R395, R412 to R416, R422 to R424).
-/
namespace Sys2Proof.Machine

/-! ### Initiators and refusals -/

/-- The maker of an access: `WLD_WHOAMI.CORE` (0xFF the debug port), world, level, partition. -/
structure Init where
  code : Nat
  reserve : Bool
  level : Bool := false
  part : Nat := 0
  core : Option Nat := none
  deriving DecidableEq, Repr

def initOf (s : State) (c : Nat) : Init :=
  let x := core s c
  { code := coreCode c, reserve := c = 0, level := x.level, part := if x.level then x.curPart.toNat else 0, core := some c }

/-- The debug port carries Reserve-world rights at System level (R377). -/
def debugInit : Init := { code := 0xFF, reserve := true }

inductive AccKind where
  | read | write | execute
  deriving DecidableEq, Repr

def AccKind.code : AccKind → Nat
  | .read => 0 | .write => 1 | .execute => 2

/-- A refused access is counted and recorded (R390). -/
def refuse (s : State) (i : Init) (addr cause : Nat) (k : AccKind) : State :=
  updWld s fun w =>
    { w with
      refused := satInc31 w.refused
      lastAddr := BitVec.ofNat 32 addr
      lastInfo := word [(b2n i.level, 9), (i.part, 10), (i.code, 16), (k.code, 26), (cause, 28)] }

/-! ### The address map (R387) -/

inductive Area where
  | rom
  | reserveRam
  | reliquary (line : Nat)
  | floor (h : Half)
  | mram (h : Half)
  | bar (off : Nat)
  | wld (off : Nat)
  | lcu (off : Nat)
  /-- Byte `off` of the operand memory of Cupola unit `u` (R277). -/
  | aperture (u off : Nat)
  deriving DecidableEq, Repr

def floorBytes (s : State) (h : Half) : Nat := ((halfCfg s h).map fun c => 1024 * c.floorKib).getD 0

def areaOf (s : State) (a : Nat) : Option Area :=
  if a < 0x10000 then some .rom
  else if 0x100000 ≤ a && a < 0x300000 then some .reserveRam
  else if 0x300000 ≤ a && a < 0x300800 then some (.reliquary (a % 0x800 / 64))
  else if 0x1000000 ≤ a && a < 0x1400000 then if a % 0x400000 < floorBytes s .cope then some (.floor .cope) else none
  else if 0x1400000 ≤ a && a < 0x1800000 then if a % 0x400000 < floorBytes s .drag then some (.floor .drag) else none
  else if 0x10000000 ≤ a && a < 0x11000000 then some (.mram .cope)
  else if 0x11000000 ≤ a && a < 0x12000000 then some (.mram .drag)
  else if 0x20000000 ≤ a && a < 0x20200000 then some (.bar (a % 0x200000))
  else if 0x21000000 ≤ a && a < 0x21020000 then some (.wld (a % 0x20000))
  else if 0x21020000 ≤ a && a < 0x21021000 then some (.lcu (a % 0x1000))
  else if 0x30000000 ≤ a && a < 0x30120000 && a % 65536 < 32768 then some (.aperture (a / 65536 % 256) (a % 65536))
  else none

/-- The controller that checks an access to an area. -/
def Area.ctrl : Area → Option Nat
  | .reserveRam => some 0x00
  | .bar _ | .wld _ | .lcu _ => some 0x01
  | .floor .cope => some 0x10
  | .mram .cope => some 0x11
  | .floor .drag => some 0x20
  | .mram .drag => some 0x21
  | _ => none

/-! ### Region rules (R388, R389, R392) -/

/-- The bit of a `PERM` word that an access needs. -/
def permBit (i : Init) (k : AccKind) : Nat := (if i.reserve then 0 else if i.level then 6 else 3) + k.code

/-- A `PERM` word grants an access. -/
def permGrants (p : Word) (i : Init) (k : AccKind) : Bool :=
  bit p (permBit i k) && (i.reserve || !i.level || bit p 9 || fld p 21 16 = i.part)

/-- An enabled region contains an address; a bad region counts as enabled. -/
def Region.contains (r : Region) (a : Nat) : Bool :=
  (r.en || r.bad) && r.base.toNat ≤ a / 4096 && a / 4096 < r.limit.toNat

def regionAt (s : State) (ctrl ix : Nat) : Region := s.wld.regions.get {} (regionKey ctrl ix)

/-- The rule that Reserve firmware sets for a loaded program's partition: its own Program-level code, Floor System and
Reserve read, write and execute (R402; which region register holds it is not stated). -/
def partitionRules (s : State) (ctrl : Nat) : List Region :=
  let h := if ctrl = 0x10 then some Half.cope else if ctrl = 0x20 then some .drag else none
  match h with
  | none => []
  | some h => (programsOf s h).filterMap fun g => (program s h g).map fun p =>
      { base := BitVec.ofNat 20 (p.base / 4096), limit := BitVec.ofNat 20 ((p.base + partBytes s h g) / 4096)
        perm := word [(0x1FF, 0), (p.part, 16)], en := true }

/-- Every region that contains the address grants the access, and there is one. -/
def regionGrants (s : State) (ctrl a : Nat) (i : Init) (k : AccKind) : Bool :=
  let rs := ((List.range 32).map (regionAt s ctrl) ++ partitionRules s ctrl).filter (·.contains a)
  !rs.isEmpty && rs.all fun r => !r.bad && permGrants r.perm i k

/-! ### Gates (R393, R394) -/

def gateAt (s : State) (g : Nat) : Gate := s.wld.gates.get {} g

/-- Gates whose peripherals the Floor world owns. -/
def floorGate (g : Nat) : Bool := 2 ≤ g && g ≤ 6

/-- The gate of an area for initiator `i`; the two Span engines share one window. -/
def gateOf (a : Area) (i : Init) : Option Nat :=
  match a with
  | .lcu _ => some 0
  | .bar off =>
    match off / 65536 with
    | 0x0 => some 7
    | 0x1 | 0x2 | 0x3 | 0x4 => some 9
    | 0x5 => some 1
    | 0x6 | 0x7 | 0xC => some 8
    | 0x8 => some 4
    | 0x9 => some (if 0x14 ≤ i.code && i.code < 0x18 then 6 else 5)
    | 0xA => some 2
    | 0xB => some 3
    | 0xD | 0xE | 0xF | 0x10 => some 10
    | _ => none
  | _ => none

/-- A gate grants an access: rights by world and level; at Program level of the ATR window the tick registers alone. -/
def gateGrants (s : State) (a : Area) (i : Init) (k : AccKind) : Bool :=
  match gateOf a i with
  | none => true
  | some g =>
    let lo := if i.reserve then 0 else if i.level then 4 else 2
    k != .execute && (gateAt s g).rights.getLsbD (lo + k.code) &&
      (g ≠ 7 || i.reserve || !i.level || (match a with
        | .bar off => 0x100 ≤ off && off < 0x10C
        | _ => false))

/-- The access is granted (R387, R389). -/
def granted (s : State) (i : Init) (a : Nat) (k : AccKind) : Bool :=
  match areaOf s a with
  | none => false
  | some x =>
    match x with
    | .rom => i.reserve && k != .write
    | .reliquary n => i.reserve && i.code ≠ 0xFF && 3 ≤ n && k != .execute
    | .aperture _ _ => i.code = 0xFF && s.lcs.debug && k != .execute
    | x =>
      match x.ctrl with
      | some c => regionGrants s c a i k && gateGrants s x i k
      | none => false

/-- The target answers: its half runs (a runner whose half is off or in reset is isolated). -/
def answers (s : State) (x : Area) : Bool :=
  match x with
  | .floor h => s.atr.half.get h == .pouring || s.atr.half.get h == .serving
  | .mram h => bankUp s h
  | _ => true

/-! ### The local cipher unit (R412 to R416) -/

def updLcu (s : State) (f : Lcu → Lcu) : State := { s with lcu := f s.lcu }

/-- An owner's write to `LCU_LOCK`: the outcome, and whether it is refused. -/
def lcuLock (s : State) (i : Init) (v : Word) : Bool × State :=
  if bit v 31 && i.reserve then (true, releaseLcu s)
  else
    let o := fld v 7 0
    if o = 0 then
      if s.lcu.owner = 0 then (true, s)
      else if s.lcu.owner.toNat = i.code then (true, releaseLcu s)
      else (false, s)
    else if s.lcu.owner = 0 && o = i.code then (true, updLcu s fun u => { u with owner := BitVec.ofNat 8 o })
    else (true, s)

/-- `LCU_CTRL`: `INIT`, then `GO`; a `GO` while a block is in progress is ignored. -/
def lcuCtrl (s : State) (v : Word) : State :=
  let s := updLcu s fun u =>
    { u with final := bit v 30, len := BitVec.ofNat 8 (fld v 15 8), op := BitVec.ofNat 4 (fld v 7 4), decrypt := bit v 3
             keyLen := BitVec.ofNat 2 (fld v 1 0) }
  let s := if bit v 29 then updLcu s fun u => { u with chainV := [], hashed := [] } else s
  if bit v 31 && !s.lcu.busy then updLcu s fun u => { u with busy := true, done := false } else s

/-- Four bytes of a byte register bank replaced. -/
def putWord (b : Bytes) (i : Nat) (v : Word) : Bytes := b.take (4 * i) ++ le 4 v.toNat ++ b.drop (4 * i + 4)

def lcuWrite (s : State) (o : Nat) (v : Word) : State :=
  if o = 4 then lcuCtrl s v
  else if 0x20 ≤ o && o < 0x40 then updLcu s fun u => { u with key := putWord u.key ((o - 0x20) / 4) v }
  else if 0x40 ≤ o && o < 0x50 then updLcu s fun u => { u with iv := putWord u.iv ((o - 0x40) / 4) v }
  else if 0x100 ≤ o && o < 0x180 then updLcu s fun u => { u with din := putWord u.din ((o - 0x100) / 4) v }
  else s

def lcuWord (s : State) (o : Nat) : Word :=
  let u := s.lcu
  if o = 0 then u.owner.setWidth 32
  else if o = 4 then word [(u.keyLen.toNat, 0), (b2n u.decrypt, 3), (u.op.toNat, 4), (u.len.toNat, 8), (b2n u.final, 30)]
  else if o = 8 then word [(b2n u.busy, 0), (b2n u.done, 1)]
  else if 0x40 ≤ o && o < 0x50 then wordAt u.iv ((o - 0x40) / 4)
  else if 0x60 ≤ o && o < 0xA0 then wordAt u.dout ((o - 0x60) / 4)
  else 0

/-- The block in progress ends. An `OP` or `KEY_LEN` that the table does not list gives a free result (entry 5). -/
def lcuBlock (s : State) : State :=
  let u := s.lcu
  if !u.busy then s
  else
    let fin := fun (f : Lcu → Lcu) => updLcu s fun u => { f u with busy := false, done := true }
    let kl := nth 0 [16, 24, 32] u.keyLen.toNat
    let key := u.key.take kl
    let x := u.din.take 16
    let c := if u.chainV.isEmpty then u.iv else u.chainV
    let out := fun (b : Bytes) => padTo 64 b
    let free := bump (fin fun v => { v with dout := freeBytes s 64 })
    let op := u.op.toNat
    if 1 ≤ op && op ≤ 3 && kl = 0 then free
    else match op with
      | 1 => fin fun v => { v with dout := out (aes (!u.decrypt) key x) }
      | 2 =>
        let y := if u.decrypt then xorBytes (aes false key x) c else aes true key (xorBytes x c)
        fin fun v => { v with dout := out y, chainV := if u.decrypt then x else y }
      | 3 => fin fun v => { v with dout := out (xorBytes x (aes true key c)), chainV := be 16 ((fromBe c + 1) % 2 ^ 128) }
      | 8 | 9 | 10 =>
        let h := op - 6
        let n := hashBlock h
        if u.final then fin fun v => { v with dout := out (digest h (u.hashed ++ u.din.take (Nat.min n u.len.toNat))) }
        else fin fun v => { v with hashed := u.hashed ++ u.din.take n }
      | _ => free

/-! ### WLD registers (R415) -/

def Init.whoami (i : Init) : Word := word [(i.code, 0), (b2n !i.reserve, 8), (b2n i.level, 9), (i.part, 10)]

def gateWord (s : State) (g : Nat) : Word :=
  let x := gateAt s g
  word [(x.rights.toNat, 0), (b2n x.pwrOff, 8), (b2n x.clkOff, 9), (b2n (floorGate g), 16)]

def knownCtrl (c : Nat) : Bool := [0x00, 0x01, 0x10, 0x11, 0x20, 0x21].contains c

def wldWord (s : State) (i : Init) (o : Nat) : Word :=
  if o = 0 then i.whoami
  else if o = 4 then countReg s.wld.refused
  else if o = 8 then s.wld.lastAddr
  else if o = 0xC then s.wld.lastInfo
  else if o = 0x10 then s.wld.cause.setWidth 32
  else if 0x100 ≤ o && o < 0x12C then gateWord s ((o - 0x100) / 4)
  else if 0x10000 ≤ o then
    let c := o % 0x10000 / 0x400
    let x := regionAt s c (o % 0x400 / 16)
    if !knownCtrl c || 0x200 ≤ o % 0x400 then 0
    else match o / 4 % 4 with
      | 0 => word [(x.base.toNat, 12)]
      | 1 => word [(x.limit.toNat, 12)]
      | 2 => x.perm
      | _ => word [(b2n (x.en && x.base < x.limit), 0), (b2n x.lock, 1)]
  else 0

/-- Reserved bits of a `PERM` word read zero. -/
def permMask (v : Word) : Word := v &&& 0x003F03FF

/-- A region register written by the Reserve world (R391, R392, R61): granted, or refused with cause 2. -/
def regionWrite (s : State) (i : Init) (c ix reg : Nat) (v : Word) : Bool × State :=
  let x := regionAt s c ix
  if !knownCtrl c then (true, s)
  else if x.lock then (false, s)
  else if !i.reserve then (true, s)
  else
    let y : Region := match reg with
      | 0 => { x with base := BitVec.ofNat 20 (fld v 31 12), bad := false }
      | 1 => { x with limit := BitVec.ofNat 20 (fld v 31 12), bad := false }
      | 2 => { x with perm := permMask v, bad := false }
      | _ => { x with en := bit v 0, bad := false }
    (true, updWld s fun w => { w with regions := w.regions.put {} (regionKey c ix) y })

/-- `WLD_GATE_g` (R393, R394): cause 1 for rights changed by another initiator than the Reserve world, cause 3 for power or
clock changed from the world that does not own them; 0 when the write is granted. -/
def gateWrite (s : State) (i : Init) (g : Nat) (v : Word) : Nat × State :=
  let x := gateAt s g
  let y : Gate := { rights := v.setWidth 6, clkOff := bit v 9, pwrOff := bit v 8 }
  if x.rights ≠ y.rights && !i.reserve then (1, s)
  else if (x.clkOff ≠ y.clkOff || x.pwrOff ≠ y.pwrOff) && i.reserve = floorGate g then (3, s)
  else (0, updWld s fun w => { w with gates := w.gates.put {} g y })

/-- A write to a `WLD_` register that its controller granted: the cause of R390, or 0. -/
def wldWrite (s : State) (i : Init) (o : Nat) (v : Word) : Nat × State :=
  if o = 4 then (0, updWld s fun w => { w with refused := clr v w.refused })
  else if o = 0x10 then (0, if bit v 31 && i.reserve && !s.atr.restarting then reserveRestart s 4 else s)
  else if o = 0x14 then (0, if i.reserve then updWld s fun w => { w with heartbeat := tick s } else s)
  else if 0x100 ≤ o && o < 0x12C then gateWrite s i ((o - 0x100) / 4) v
  else if 0x10000 ≤ o && o % 0x400 < 0x200 then
    let r := regionWrite s i (o % 0x10000 / 0x400) (o % 0x400 / 16) (o / 4 % 4) v
    (if r.1 then 0 else 2, r.2)
  else (0, s)

/-! ### Memory behind the map -/


/-- Bytes of the area at absolute address `a`. -/
def memRead (s : State) (x : Area) (a n : Nat) : Bytes :=
  match x with
  | .rom => tabulate n fun k => Config.romByte (a + k)
  | .reserveRam => s.mem.reserve.readN a n
  | .floor h => (s.mem.floor.get h).readN a n
  | .mram h => (s.mem.mram.get h).readN a n
  | .reliquary l => slice (s.srm.lines.get [] l) (a % 64) n
  | _ => []

def memWrite (s : State) (x : Area) (a : Nat) (b : Bytes) : State :=
  match x with
  | .reserveRam => { s with mem := { s.mem with reserve := s.mem.reserve.writeN a b } }
  | .floor h => { s with mem := { s.mem with floor := s.mem.floor.upd h fun m => m.writeN a b } }
  | .mram h => { s with mem := { s.mem with mram := s.mem.mram.upd h fun m => m.writeN a b } }
  | .reliquary l =>
    updSrm s fun r => { r with lines := r.lines.upd [] l fun d => splice (padTo 64 d) (a % 64) b }
  | _ => s

/-- Areas that the data L1 holds (R424). -/
def Area.cached : Area → Bool
  | .reserveRam | .floor _ => true
  | _ => false

/-! ### The data L1 (R424, R437) -/

def l1Find (x : CoreSt) (a : Nat) : Option L1Line := x.l1.find? (·.addr = a)

/-- The line of address `a`, filled from memory when the L1 does not hold it. -/
def l1Fill (s : State) (c : Nat) (x : Area) (a : Nat) : State :=
  let la := a / 64 * 64
  match l1Find (core s c) la with
  | some _ => s
  | none => updCore s c fun k => { k with l1 := k.l1 ++ [⟨la, memRead s x la 64, false⟩] }

def l1Read (s : State) (c a n : Nat) : Bytes :=
  match l1Find (core s c) (a / 64 * 64) with
  | some l => slice l.data (a % 64) n
  | none => []

def l1Write (s : State) (c a : Nat) (b : Bytes) : State :=
  updCore s c fun k => { k with l1 := k.l1.map fun l =>
    if l.addr = a / 64 * 64 then { l with data := splice (padTo 64 l.data) (a % 64) b, dirty := true } else l }

/-- Every dirty line is written back. -/
def l1Back (s : State) (c : Nat) : State :=
  let s := ((core s c).l1.filter (·.dirty)).foldl (fun s l => match areaOf s l.addr with
    | some x => if answers s x then memWrite s x l.addr l.data else s
    | none => s) s
  updCore s c fun k => { k with l1 := k.l1.map fun l => { l with dirty := false } }

def l1Drop (s : State) (c : Nat) : State := updCore s c fun k => { k with l1 := [] }

/-- A switch of R395: the L1 is written back and invalidated. -/
def switchCore (s : State) (c : Nat) : State := l1Drop (l1Back s c) c

/-! ### One access (R390, R423, R424) -/

/-- A word of the register fabric, or none when the access is refused with cause 4. -/
def fabricRead (s : State) (i : Init) (x : Area) : Option Word × State :=
  match x with
  | .bar off =>
    let r := readWord s (match i.core with | some c => .core c | none => .debug) off
    (some r.1, r.2)
  | .wld o => (some (wldWord s i (o / 4 * 4)), s)
  | .lcu o => if o / 4 ≠ 0 && s.lcu.owner.toNat ≠ i.code then (none, s) else (some (lcuWord s (o / 4 * 4)), s)
  | .aperture u o => (some (BitVec.ofNat 32 (fromLe (tabulate 4 fun i => opByte s u (o / 4 * 4 + i)))), s)
  | _ => (some 0, s)

/-- A word written to the register fabric: the cause of a refusal, or 0. -/
def fabricWrite (s : State) (i : Init) (x : Area) (v : Word) : Nat × State :=
  match x with
  | .bar off => (0, barWrite s 0 (BitVec.ofNat 21 (off / 4 * 4)) v)
  | .wld o => wldWrite s i (o / 4 * 4) v
  | .lcu o =>
    if o / 4 = 0 then let r := lcuLock s i v; (if r.1 then 0 else 4, r.2)
    else if s.lcu.owner.toNat ≠ i.code then (4, s)
    else (0, lcuWrite s (o / 4 * 4) v)
  | .aperture u o => (0, writeOp s u (o / 4 * 4) (le 4 v.toNat))
  | _ => (0, s)

def Area.fabric : Area → Bool
  | .bar _ | .wld _ | .lcu _ | .aperture _ _ => true
  | _ => false

/-- The next access of `i` carries a beat whose code failed (R13): it is discarded, and the bad beat is used up. -/
def takeBadBeat (s : State) (i : Init) : Option State :=
  if s.wld.badBeats.contains i.code then some (updWld s fun w => { w with badBeats := w.badBeats.erase i.code }) else none

/-- An access whose beats pass their check reads `n` bytes at `a` for `i`; none for an error response. -/
def goodRead (s : State) (i : Init) (a n : Nat) : Option Nat × State :=
  match areaOf s a with
  | none => (none, refuse s i a 1 .read)
  | some x =>
    if !granted s i a .read then (none, refuse s i a 1 .read)
    else if !answers s x then (none, s)
    else if x.fabric then
      match fabricRead s i x with
      | (some w, s) => (some (w.toNat / 2 ^ (8 * (a % 4)) % 2 ^ (8 * n)), s)
      | (none, s) => (none, refuse s i a 4 .read)
    else
      match i.core, x.cached with
      | some c, true =>
        let s := l1Fill s c x a
        (some (fromLe (l1Read s c a n)), s)
      | _, _ => (some (fromLe (memRead s x a n)), s)

/-- `n` bytes read at `a` by `i`; none for an error response (R13). -/
def busRead (s : State) (i : Init) (a n : Nat) : Option Nat × State :=
  match takeBadBeat s i with
  | some s => (none, s)
  | none => goodRead s i a n

/-- The word that a store of `n` bytes presents to the register fabric; the byte lanes that it does not drive hold a free
value (entry 5). -/
def laneWordOf (s : State) (a n v : Nat) : Word × State :=
  if n = 4 then (BitVec.ofNat 32 v, s)
  else
    let k := a % 4
    (BitVec.ofNat 32 (fromLe ((freeBytes s 4).take k ++ le n v ++ (freeBytes s 4).drop (k + n))), bump s)

/-- An access whose beats pass their check writes `n` bytes at `a` for `i`: whether the access is granted. -/
def goodWrite (s : State) (i : Init) (a n v : Nat) : Bool × State :=
  match areaOf s a with
  | none => (false, refuse s i a 1 .write)
  | some x =>
    if !granted s i a .write then (false, refuse s i a 1 .write)
    else if !answers s x then (false, s)
    else if x.fabric then
      let w := laneWordOf s a n v
      match fabricWrite w.2 i x w.1 with
      | (0, s) => (true, s)
      | (c, s) => (false, refuse s i a c .write)
    else
      match i.core, x.cached with
      | some c, true => (true, l1Write (l1Fill s c x a) c a (le n v))
      | _, _ => (true, memWrite s x a (le n v))

/-- `n` bytes written at `a` by `i`: false for an error response (R13). -/
def busWrite (s : State) (i : Init) (a n v : Nat) : Bool × State :=
  match takeBadBeat s i with
  | some s => (false, s)
  | none => goodWrite s i a n v

end Sys2Proof.Machine
end

