-- ==== Sys2Proof/Machine/Cores.lean ====
section
/-!
DEFINITION. The Tieno cores: the frame of an instruction, exceptions and interrupts (R440 to R448), return (R446), control
and status registers (R436, R443, R449, R450).
-/
namespace Sys2Proof.Machine

/-- Full 32-bit address of an offset in the current code page (R420). -/
def CoreSt.codeAddr (x : CoreSt) (pc : BitVec 16) : Word := (nth 0 x.bk 7).setWidth 32 <<< 16 ||| pc.setWidth 32

/-- A core that executes instructions. -/
def runs (s : State) (c : Nat) : Bool :=
  let x := core s c
  x.running && !x.stopped && x.waiting.isNone

/-- PC after an instruction that does not transfer control (R420). -/
def CoreSt.advance (x : CoreSt) : CoreSt := { x with pc := x.pc + 4 }

/-! ### Exceptions and interrupts -/

/-- R444: the saved level and enable, cause, address and EPC; System level; the handler's address. -/
def CoreSt.enter (x : CoreSt) (cause epc eaddr : Word) : CoreSt :=
  { x with
    eLevel := x.level, eIe := x.ie, epc, ecause := cause, eaddr, level := false, ie := false, exc := true, curPart := 0
    bk := setNth x.bk 7 (BitVec.ofNat 16 (fld x.evec 31 16)), pc := BitVec.ofNat 16 (fld x.evec 15 0) }

/-- Taking an exception or interrupt on core `c`; from Program level with the switch of R395. -/
def enterHandler (s : State) (c : Nat) (cause epc eaddr : Word) : State :=
  let s := if (core s c).level then switchCore s c else s
  updCore s c fun x => x.enter cause epc eaddr

/-- The half of a Floor core. -/
def coreHalf (c : Nat) : Half := if c < 5 then .cope else .drag

/-- The program that the core runs at Program level. -/
def runProgram (s : State) (c : Nat) : Option Nat :=
  let x := core s c
  if x.level then (programsOf s (coreHalf c)).find? fun g => (program s (coreHalf c) g).any fun p => p.part = x.curPart.toNat
  else none

/-- The program's stop falls due at the next parting window (R404). -/
def markStop (s : State) (c cause : Nat) : State :=
  match runProgram s c with
  | some g => updProgram s (coreHalf c) g fun p => { p with running := false, lastCause := cause }
  | none => s

/-- A double fault (R445): the core stops; a Floor core reports it. -/
def doubleFault (s : State) (c : Nat) : State :=
  let s := updCore s c fun x => { x with running := false, stopped := true }
  if c = 0 then s else report s (halfSrc (coreHalf c) 10) 1 (coreCode c) 0 (if s.gen.windowDone then 1249 else 0) true

/-- An exception with code `code` (R440): an exception at Program level but for system call 0 and a wait request stops the
program (R403, R404). -/
def takeException (s : State) (c code info : Nat) (epc eaddr : Word) : State :=
  if (core s c).exc then doubleFault s c
  else
    let s := if code = 0x0A || (code = 0x09 && info = 0) then s else markStop s c 3
    enterHandler s c (word [(info, 0), (code, 16)]) epc eaddr

/-- An exception whose EPC is the instruction itself. -/
def except_ (s : State) (c code : Nat) (eaddr : Word) : State :=
  takeException s c code 0 ((core s c).codeAddr (core s c).pc) eaddr

def illegal (s : State) (c : Nat) : State := except_ s c 0x01 0
def privileged (s : State) (c : Nat) : State := except_ s c 0x02 0

/-- The lowest line that is pending and enabled (R448). -/
def pendingLine (x : CoreSt) : Option Nat := (List.range 6).find? fun n => (x.ip &&& x.ien).getLsbD n

/-- An interrupt on line `n`: EPC is the next instruction not executed. -/
def takeInterrupt (s : State) (c n : Nat) : State :=
  enterHandler s c (word [(n, 16), (1, 31)]) ((core s c).codeAddr (core s c).pc) 0

/-- RET (R446). -/
def returnFrom (s : State) (c : Nat) : State :=
  let x := core s c
  let lv := x.eLevel && c ≠ 0
  let s := if lv then switchCore s c else s
  let s := updCore s c fun x =>
    { x with
      bk := setNth x.bk 7 (BitVec.ofNat 16 (fld x.epc 31 16)), pc := BitVec.ofNat 16 (fld x.epc 15 0), level := lv, ie := x.eIe
      exc := false, curPart := if lv then x.partition else 0 }
  match runProgram s c with
  | some g => updProgram s (coreHalf c) g fun p => { p with turnEnd := tick s + 50 }
  | none => s

/-! ### Control and status registers -/

/-- Numbers that a core lists (R436). -/
def csrListed (c n : Nat) : Bool :=
  [0x000, 0x001, 0x002, 0x003, 0x004, 0x005, 0x006, 0x010, 0x011, 0x021, 0x030, 0x031, 0x040, 0x041, 0x042, 0x050].contains n ||
    (n = 0x020 && c ≠ 0)

/-- Registers that Program level reads (R443). -/
def csrProgram (n : Nat) : Bool := [0x030, 0x031, 0x040, 0x041, 0x042, 0x050].contains n

/-- Registers that are RO as wholes. -/
def csrReadOnly (n : Nat) : Bool := [0x003, 0x004, 0x030, 0x031, 0x040, 0x041, 0x042, 0x050].contains n

/-- The value of a register, and the state after the read: the latches of R449 and the free values of the cycle counts. -/
def csrRead (s : State) (c n : Nat) : Word × State :=
  let x := core s c
  match n with
  | 0x000 => (word [(b2n x.ie, 0), (b2n x.level, 1), (b2n x.exc, 2)], s)
  | 0x001 => (word [(b2n x.eIe, 0), (b2n x.eLevel, 1)], s)
  | 0x002 => (x.epc, s)
  | 0x003 => (x.ecause, s)
  | 0x004 => (x.eaddr, s)
  | 0x005 => (x.evec, s)
  | 0x006 => (x.escratch, s)
  | 0x010 => (x.ien.setWidth 32, s)
  | 0x011 => (x.ip.setWidth 32, s)
  | 0x020 => (x.partition.setWidth 32, s)
  | 0x030 =>
    let t := x.cycle + BitVec.ofNat 64 (fromLe (freeBytes s 4))
    (t.setWidth 32, updCore (bump s) c fun x => { x with cycle := t, cycleH := (t >>> 32).setWidth 32 })
  | 0x031 => (x.cycleH, s)
  | 0x040 =>
    (s.gen.a.setWidth 32, updCore s c fun x => { x with tickHi := (s.gen.a >>> 32).setWidth 32 })
  | 0x041 => (x.tickHi, s)
  | 0x042 => (tickPos s, bump s)
  | 0x050 => ((initOf s c).whoami, s)
  | _ => (0, s)

/-- The cores that core `c` may signal, by the code of `SIGNAL` (R450). -/
def signalTarget (c : Nat) (t : Nat) : Option Nat :=
  (List.range 9).find? fun d => coreCode d = t && d ≠ c && (c = 0 || d = 0 || coreHalf d == coreHalf c)

/-- A write of `v` to register `n` would change a field that is RO, or names no core to signal. -/
def csrBars (s : State) (c n : Nat) (v : Word) : Bool :=
  let x := core s c
  csrReadOnly n || (n = 0 && bit v 1 != x.level) || (n = 1 && c = 0 && bit v 1) || (n = 5 && fld v 1 0 ≠ 0) ||
    (n = 0x021 && (signalTarget c (fld v 7 0)).isNone)

/-- The register written with `v` (`IP` by ones). -/
def csrPut (s : State) (c n : Nat) (v : Word) : State :=
  match n with
  | 0x000 => updCore s c fun x => { x with ie := bit v 0, exc := bit v 2 }
  | 0x001 => updCore s c fun x => { x with eIe := bit v 0, eLevel := bit v 1 }
  | 0x002 => updCore s c fun x => { x with epc := v }
  | 0x005 => updCore s c fun x => { x with evec := v }
  | 0x006 => updCore s c fun x => { x with escratch := v }
  | 0x010 => updCore s c fun x => { x with ien := v.setWidth 6 }
  | 0x011 => updCore s c fun x => { x with ip := w1c x.ip v }
  | 0x020 => updCore s c fun x => { x with partition := v.setWidth 6 }
  | 0x021 => match signalTarget c (fld v 7 0) with
    | some d => setIp s [d] 1
    | none => s
  | _ => s

/-- How a CSR instruction combines the old value with w[rs1]. -/
inductive CsrOp where
  | write | set | clear
  deriving DecidableEq, Repr

def CsrOp.value (o : CsrOp) (old v : Word) : Word :=
  match o with
  | .write => v
  | .set => old ||| v
  | .clear => old &&& ~~~v

/-- CSRR (R436, R443, R449). -/
def csrLoad (s : State) (c : Nat) (rd rs1 : BitVec 5) (n : Nat) : State :=
  if rs1 ≠ 0 || !csrListed c n then illegal s c
  else if (core s c).level && !csrProgram n then privileged s c
  else
    let r := csrRead s c n
    updCore r.2 c fun x => (x.setW rd r.1).advance

/-- CSRW, CSRS, CSRC: illegal, then privileged (R442), then the exchange. -/
def csrOp (s : State) (c : Nat) (o : CsrOp) (rd rs1 : BitVec 5) (n : Nat) : State :=
  let x := core s c
  let r := csrRead s c n
  let old := if n = 0x021 then 0 else r.1
  let v := o.value old (x.getW rs1)
  if !csrListed c n || csrReadOnly n || (n = 0x011 && o != .write) || csrBars s c n v then illegal s c
  else if x.level then privileged s c
  else updCore (csrPut s c n v) c fun x => (x.setW rd old).advance

/-! ### Loads, stores, jumps -/

/-- Short address and data address (R419). -/
def dataAddr (x : CoreSt) (base : BitVec 5) (bank : BitVec 3) (off : BitVec 13) : Word :=
  let short := (x.getW base).setWidth 16 + off.signExtend 16
  (nth 0 x.bk bank.toNat).setWidth 32 <<< 16 ||| short.setWidth 32

/-- A load of `n` bytes, extended by `ext` (R422, R430). -/
def load (s : State) (c : Nat) (rt base : BitVec 5) (bank : BitVec 3) (off : BitVec 13) (n : Nat) (ext : Nat → Word) : State :=
  let a := dataAddr (core s c) base bank off
  if a.toNat % n ≠ 0 then except_ s c 0x05 a
  else match busRead s (initOf s c) a.toNat n with
    | (some v, s) => updCore s c fun x => (x.setW rt (ext v)).advance
    | (none, s) => except_ s c 0x07 a

/-- A store of the low `n` bytes of w[rt]. -/
def store (s : State) (c : Nat) (rt base : BitVec 5) (bank : BitVec 3) (off : BitVec 13) (n : Nat) : State :=
  let x := core s c
  let a := dataAddr x base bank off
  if a.toNat % n ≠ 0 then except_ s c 0x06 a
  else match busWrite s (initOf s c) a.toNat n ((x.getW rt).toNat % 2 ^ (8 * n)) with
    | (true, s) => if runs s c then updCore s c CoreSt.advance else s
    | (false, s) => except_ s c 0x08 a

def sextByte (v : Nat) : Word := (BitVec.ofNat 8 v).signExtend 32
def sextHalf (v : Nat) : Word := (BitVec.ofNat 16 v).signExtend 32

/-- PC of a taken branch (R431). -/
def CoreSt.branch (x : CoreSt) (disp : BitVec 16) : CoreSt := { x with pc := x.pc + 4 * disp }

def branchIf (s : State) (c : Nat) (t : Bool) (disp : BitVec 16) : State :=
  updCore s c fun x => if t then x.branch disp else x.advance

/-- An instruction of core `c` runs when the core executes instructions (entry 11). -/
def onCore (c : CoreId) (s : State) (f : State → Nat → State) : Out := .next (if runs s c.val then f s c.val else s)

/-- A register operation (R428). -/
def alu (c : CoreId) (rd : BitVec 5) (s : State) (f : CoreSt → Word) : Out :=
  onCore c s fun s c => updCore s c fun x => (x.setW rd (f x)).advance

/-- An operation with a field that this chapter marks zero (R426). -/
def aluIf (c : CoreId) (ok : Bool) (rd : BitVec 5) (s : State) (f : CoreSt → Word) : Out :=
  onCore c s fun s c => if ok then updCore s c fun x => (x.setW rd (f x)).advance else illegal s c

end Sys2Proof.Machine
end

