-- ==== Sys2Proof/Machine/Worlds.lean ====
section
/-!
DEFINITION. World registers, the watchdog and restart requests, region and gate registers, the local cipher unit, the debug
port (R377, R391 to R398, R412 to R416).
-/
namespace Sys2Proof.Machine

/-- A word written by core `c` at an internal address (R390). -/
def coreWrite (s : State) (c : CoreId) (a : Nat) (v : Word) : State := (busWrite s (initOf s c.val) a 4 v.toNat).2

/-- WLD_HEARTBEAT_WRITE (R397). -/
def execWldHeartbeatWrite (c : CoreId) (val : Word) (s : State) : Out := .next (coreWrite s c 0x21000014 val)

/-- WLD_RESTART_REQUEST (R415). -/
def execWldRestartRequest (c : CoreId) (s : State) : Out := .next (coreWrite s c 0x21000010 0x80000000)

/-- The Reserve pair has been started and does not restart. -/
def reserveUp (s : State) : Bool := s.mld.runAtrium.isSome && !s.atr.restarting

/-- A Reserve restart with its report to the fault collector; a report that resets the part ends there. -/
def restartReported (s : State) (src unit info cause : Nat) : State :=
  let s := reportOnly s src 1 unit info
  if reserveUp s then reserveRestart s cause else s

/-- WATCHDOG_EXPIRY (R397). -/
def execWatchdogExpiry (s : State) : Out :=
  .next (if reserveUp s && s.wld.heartbeat + 1000 ≤ tick s then restartReported s 1 1 0 1 else s)

/-- LOCKSTEP_DIVERGENCE (R396, R453). -/
def execLockstepDivergence (s : State) : Out := .next (if reserveUp s then restartReported s 1 2 0 2 else s)

/-- RESERVE_SRAM_DOUBLE_BIT (R396). -/
def execReserveSramDoubleBit (line : BitVec 16) (s : State) : Out :=
  .next (if reserveUp s then restartReported s 2 0 line.toNat 3 else s)

/-! ### Region registers and gates -/

def regionAddr (ctrl ix reg : Nat) : Nat := 0x21010000 + 0x400 * ctrl + 0x10 * ix + 4 * reg

/-- REGION_REGISTER_WRITE (R391, R392, R415). -/
def execRegionRegisterWrite (c : CoreId) (ctrl : Byte) (ix : BitVec 5) (reg : BitVec 2) (val : Word) (s : State) : Out :=
  .next (coreWrite s c (regionAddr ctrl.toNat ix.toNat reg.toNat) val)

/-- REGION_SYNC_READ (R391): accesses are checked and complete within their own step, so the read returns at once. -/
def execRegionSyncRead (c : CoreId) (ctrl : Byte) (s : State) : Out :=
  .next <| match busRead s (initOf s c.val) (0x21010200 + 0x400 * ctrl.toNat) 4 with
  | (some v, s) => { s with response := BitVec.ofNat 32 v }
  | (none, s) => s

/-- REGION_PARITY_FAIL (R392): the region counts as enabled with `PERM` zero; a contained fault of its controller. The
action of R392 stands in place of a restart or half reset. -/
def execRegionParityFail (ctrl : Byte) (ix : BitVec 5) (s : State) : Out :=
  .next <|
    let c := ctrl.toNat
    if !knownCtrl c || s.pwr.phase == .off then s
    else
      let s := updWld s fun w => { w with regions := w.regions.upd {} (regionKey c ix.toNat) fun r => { r with bad := true } }
      reportOnly s (if c < 0x10 then 3 else halfSrc (if c < 0x20 then .cope else .drag) 17) 1 c 0

def gateAddr (g : Fin 11) : Nat := 0x21000100 + 4 * g.val

/-- GATE_RIGHTS_WRITE (R393): the rights of `val`, power and clock as they are. -/
def execGateRightsWrite (c : CoreId) (gate : Fin 11) (val : Word) (s : State) : Out :=
  .next (coreWrite s c (gateAddr gate) (val &&& 0x3F ||| gateWord s gate.val &&& 0x300))

/-- GATE_POWER_CLOCK (R394): power and clock of `val`, the rights as they are. -/
def execGatePowerClock (c : CoreId) (gate : Fin 11) (val : Word) (s : State) : Out :=
  .next (coreWrite s c (gateAddr gate) (val &&& 0x300 ||| gateWord s gate.val &&& 0x3F))

/-! ### The local cipher unit -/

/-- LCU_ACQUIRE (R412): the identity `owner` written to `LCU_LOCK`. -/
def execLcuAcquire (c : CoreId) (owner : Byte) (s : State) : Out :=
  .next (if owner = 0 then s else coreWrite s c 0x21020000 (owner.setWidth 32))

/-- LCU_RELEASE (R412, R413). -/
def execLcuRelease (c : CoreId) (s : State) : Out := .next (coreWrite s c 0x21020000 0)

/-- LCU_FORCE (R412, R413). -/
def execLcuForce (c : CoreId) (s : State) : Out := .next (coreWrite s c 0x21020000 0x80000000)

/-- `LCU_CTRL` as it reads, with one more bit. -/
def lcuCtrlWith (s : State) (b : Word) : Word := lcuWord s 4 ||| b

/-- LCU_GO (R416). -/
def execLcuGo (c : CoreId) (s : State) : Out := .next (coreWrite s c 0x21020004 (lcuCtrlWith s 0x80000000))

/-- LCU_INIT (R416). -/
def execLcuInit (c : CoreId) (s : State) : Out := .next (coreWrite s c 0x21020004 (lcuCtrlWith s 0x20000000))

/-- LCU_BLOCK_DONE (R416). The event reaches the Reserve pair on line `PERIPH` (R447). -/
def execLcuBlockDone (s : State) : Out := .next (if s.lcu.busy then setIp (lcuBlock s) [0] 2 else s)

/-! ### The debug port (R377) -/

/-- DEBUG_MEM_ADDR. -/
def execDebugMemAddr (addr : Word) (s : State) : Out :=
  .next (if s.lcs.debug then updLcs s fun l => { l with dbgAddr := addr } else s)

/-- The word address that the debug port reaches. -/
def dbgWord (s : State) : Nat := s.lcs.dbgAddr.toNat / 4 * 4

/-- DEBUG_MEM_DATA_CAPTURE; what a refused access captures is a free value (entry 5). -/
def execDebugMemDataCapture (s : State) : Out :=
  .next <|
    if !s.lcs.debug then s
    else
      let r := busRead s debugInit (dbgWord s) 4
      let v := BitVec.ofNat 32 (r.1.getD (fromLe (freeBytes r.2 4)))
      { updLcs (bump r.2) fun l => { l with dbgData := v } with response := v }

/-- DEBUG_MEM_DATA_UPDATE: bit 32 writes; the address rises by 4 after each update. -/
def execDebugMemDataUpdate (val : BitVec 33) (s : State) : Out :=
  .next <|
    if !s.lcs.debug then s
    else
      let s := if val.getLsbD 32 then (busWrite s debugInit (dbgWord s) 4 (val.toNat % 2 ^ 32)).2 else s
      updLcs s fun l => { l with dbgAddr := l.dbgAddr + 4 }

end Sys2Proof.Machine
end

