-- ==== Sys2Proof/Machine/FaultCmds.lean ====
section
/-!
DEFINITION. The admin commands 0x70 to 0x7C: faults, assays, half reset, loop-backs (R481 to R486), tamper (R499 to R501,
R509), recorder (R521).
-/
namespace Sys2Proof.Machine

/-- The command is still there after an effect that may have reset the part. -/
def ifLive (s : State) (c : AdminCmd) (f : State → State) : State := if s.adm.any (·.seq = c.seq) then f s else s

def le8 (v : BitVec 64) : Bytes := le 8 v.toNat

/-! ### Fault collector -/

/-- The 576 bytes of FAULT_QUERY. -/
def faultReport (s : State) : Bytes :=
  let f := s.flt
  le8 f.status ++ le8 f.corr ++ le8 f.cont ++ le8 f.fatal ++ le 4 (fltMode s).toNat ++ le 4 (fltLastFatal s).toNat ++ zeros 24 ++
    (List.range 64).flatMap (fun n => le 4 (fltSrc s n).syn.toNat) ++ (List.range 64).flatMap fun n => le 4 (fltSrc s n).count.toNat

/-- FAULT_QUERY (R486). -/
def execFaultQuery (g : Gallery) (q : QIndex) (writeOk : Bool) (s : State) : Out :=
  .next <| runAdmin s g q 0x70 fun s c => query s c 0 writeOk (faultReport s) []

/-- FAULT_CLEAR (R477). -/
def execFaultClear (g : Gallery) (q : QIndex) (s : State) : Out :=
  .next <| runAdmin s g q 0x71 fun s c =>
    let r := clearFaults s (BitVec.ofNat 64 (c.p 0 8))
    doneWith r.1 c (le8 r.2)

/-- FAULT_SET_POLICY (R56, R486). -/
def execFaultSetPolicy (g : Gallery) (q : QIndex) (s : State) : Out :=
  .next <| runAdmin s g q 0x72 fun s c =>
    let n := c.p 0 1
    let r : FaultRow := ⟨c.p 1 1, c.p 2 1, c.p 4 4⟩
    let x := fltSrc s n
    if 63 < n || !faultRowOk n r then fails s c .badInput
    else if r.cls < x.cls.toNat || x.countN.toNat < r.count || r.window < x.window.toNat then fails s c .notAuthorised
    else
      done (updSrc s n fun x =>
        { x with cls := BitVec.ofNat 2 r.cls, countN := BitVec.ofNat 8 r.count, window := BitVec.ofNat 24 r.window }) c

/-! ### Assays (R49, R50, R272, R481, R482) -/

def spareOf (l : List UnitState) : Option Nat := (List.range l.length).find? fun i => nth .off l i == .spare

/-- Lane `u` of half `h` goes under assay: rotated out while a spare takes over, or in place. -/
def assayLaneStart (s : State) (h : Half) (u : Nat) (cmd : Option Nat) : State :=
  let x := s.lanes.half.get h
  let st := (nth {} x.lanes u).state
  let spare := spareOf (x.lanes.map (·.state))
  let inPlace := st == .active && spare.isNone
  let a : Assay := { cupola := false, unit := u, inPlace, left := 64, cmd }
  updLaneHalf s h fun x =>
    let ls := if inPlace then x.lanes else updNth x.lanes u fun l => { l with state := .assay }
    let ls := match spare with
      | some i => if st == .active then updNth ls i fun l => { l with state := .active } else ls
      | none => ls
    { x with assay := some a, lanes := ls }

/-- Unit `u` of half `h` goes under assay. -/
def assayUnitStart (s : State) (h : Half) (u : Nat) (cmd : Option Nat) : State :=
  let us := s.cup.units.get h
  let st := (nth {} us u).state
  let spare := (List.range 9).find? fun i => freeUnit s h i .spare
  let inPlace := st == .active && spare.isNone
  let a : Assay := { cupola := true, unit := u, inPlace, left := 5000, cmd }
  let s := updLaneHalf s h fun x => { x with assay := some a }
  let us := if inPlace then us else updNth us u fun l => { l with state := .assay }
  let us := match spare with
    | some i => if st == .active then updNth us i fun l => { l with state := .active } else us
    | none => us
  updCup s fun c => { c with units := c.units.set h us }

/-- ASSAY_REQUEST (R481). -/
def execAssayRequest (g : Gallery) (q : QIndex) (s : State) : Out :=
  .next <| runAdmin s g q 0x73 fun s c =>
    let cup := c.p 0 1 = 1
    let n := c.p 1 1
    let per := if cup then 9 else 40
    let h := halfOf (n / per)
    let st := if cup then (nth {} (s.cup.units.get h) (n % per)).state else (nth {} (s.lanes.half.get h).lanes (n % per)).state
    if 1 < c.p 0 1 || 2 * per ≤ n then fails s c .badInput
    else if (s.lanes.half.get h).assay.isSome then fails s c .reserveBusy
    else if !(st == .active || st == .spare) then fails s c .badInput
    else keepRunning (if cup then assayUnitStart s h (n % per) (some c.key) else assayLaneStart s h (n % per) (some c.key)) c

/-- ASSAY_END (R482): once its time has passed. -/
def execAssayEnd (h : Half) (passed : Bool) (s : State) : Out :=
  .next <| match (s.lanes.half.get h).assay with
  | some a => if a.left = 0 && s.gen.windowDone then finishAssay s h passed else s
  | none => s

/-! ### HALF_RESET (R475, R480, R584) -/

/-- The hold of a half ends and its count returns to 0 (R475). -/
def releaseHold (s : State) (h : Half) : State :=
  updFlt s fun f => { f with hold := f.hold.set h false, failedPours := f.failedPours.set h 0 }

/-- A half is reset by a command into slot `b`; the command waits for the pour; a command that waited before ends (entry 5). -/
def halfResetBy (s : State) (h : Half) (b : Bool) (c : AdminCmd) : State :=
  let s := match (s.mld.pour.get h).bind (·.cmd) with
    | some k => bump (endPourCmd s (some k) (freeStatus s))
    | none => s
  let s := updMld s fun m => { m with pour := m.pour.upd h fun p => p.map fun x => { x with cmd := none } }
  let s := halfResetTo s h b (some c.key)
  if (s.mld.pour.get h).isSome then s
  else match s.adm.find? (·.seq = c.seq) with
    | some x => bump (fails s x (freeStatus s))
    | none => s

/-- HALF_RESET. A half without its feed does not pour. -/
def execHalfReset (g : Gallery) (q : QIndex) (s : State) : Out :=
  .next <| runAdmin s g q 0x74 fun s c =>
    let h := halfOf (c.p 0 1)
    if 1 < c.p 0 1 || (sq s c.key).port == h || !serving s (other h) then fails s c .badInput
    else if !(s.pwr.feed.get h).valid then
      let s := releaseHold s h
      bump (fails s c (freeStatus s))
    else halfResetBy (keepRunning (releaseHold s h) c) h (activeSlot s h) c

/-! ### Loop-backs (R484, R485) -/

/-- A port or link that a loop-back test has. -/
def looped (s : State) (kind ix : Nat) : Bool := s.flt.loops.any fun l => l.kind = kind && l.index = ix

def loopCount (kind : Nat) : Nat := nth 0 [2, 128, 16, 4, 1] kind

/-- A card of a ceremony or a set creation is in the port. -/
def cardInUse (s : State) (n : Nat) : Bool :=
  let st := (s.cus.ports.get {} n).state
  st != .empty && st != .disabled &&
    (s.cus.cer.any (fun c => c.any fun x => x.ports.getLsbD n) || s.cus.run.any fun r => r.ports.getLsbD n)

/-- LOOPBACK is refused (R485). -/
def loopBusy (s : State) (c : AdminCmd) (kind ix : Nat) : Bool :=
  match kind with
  | 0 => !serving s (other (halfOf ix)) || c.half == halfOf ix
  | 2 => cardInUse s ix
  | 3 => s.arc.write.isSome
  | 4 => s.chn.roll.isSome
  | _ => false

/-- A link in L3 loop-back is keyed from the Span link root as though it were its own peer: both directions have the first key and
salt of R530, and the two HELLO1 are its own, without an ephemeral point (R285, entry 50). -/
def keyLoop (s : State) (l : Nat) : State :=
  let h := be 2 s.chn.addr.toNat ++ be 2 s.chn.epoch.toNat ++ be 1 l ++ partId s ++ dikPub s
  let k := ladderKdf (spanRoot s) "QLV-SPAN-LINK" (sha384 (h ++ h)) 72
  updLink s l fun x => { x with keyTx := slice k 0 32, keyRx := slice k 0 32, saltTx := slice k 64 4, saltRx := slice k 64 4 }

/-- The interface stands aside for the test: a host port is lost (R141, R17), a Span link is down. -/
def loopStart (s : State) (kind ix depth : Nat) : State :=
  match kind with
  | 0 =>
    let h := halfOf ix
    let t := updPort s h fun p => { p with loop := true }
    if serving s h && !(s.hst.port.get h).loop then losePort s t h else t
  | 1 => if depth = 3 then keyLoop (linkDown s ix .loop) ix else linkDown s ix .loop
  | _ => s

def loopEnd (s : State) (kind ix : Nat) : State :=
  match kind with
  | 0 => updPort s (halfOf ix) fun p => { p with loop := false }
  | 1 => linkDown s ix .training
  | _ => s

/-- LOOPBACK. -/
def execLoopback (g : Gallery) (q : QIndex) (s : State) : Out :=
  .next <| runAdmin s g q 0x75 fun s c =>
    let kind := c.p 0 1
    let ix := c.p 1 1
    let depth := c.p 2 1
    let units := c.p 4 4
    if 4 < kind || loopCount kind ≤ ix || !hasRange depth 1 3 || !hasRange units 1 16777215 then fails s c .badInput
    else if loopBusy s c kind ix then fails s c .reserveBusy
    else
      let s := loopStart (keepRunning s c) kind ix depth
      updFlt s fun f => { f with loops := f.loops ++ [⟨kind, ix, depth, units, c.key, tick s + 1000000⟩] }

/-- LOOPBACK_END: every unit has returned, or the time has passed. -/
def execLoopbackEnd (kind index : Byte) (returned : Word) (firstDiffer : Option Word) (s : State) : Out :=
  .next <| match s.flt.loops.find? fun l => l.kind = kind.toNat && l.index = index.toNat with
  | none => s
  | some l =>
    if !s.gen.windowDone || !(returned.toNat = l.units || l.deadline ≤ tick s) || l.units < returned.toNat then s
    else
      let s := updFlt s fun f => { f with loops := f.loops.filter fun x => x ≠ l }
      let s := if looped s l.kind l.index then s else loopEnd s l.kind l.index
      match s.adm.find? fun c => c.key = l.sq && c.phase == .running && c.op = 0x75 with
      | some c => doneWith s c (le 4 l.units ++ le 4 returned.toNat ++ le 4 (firstDiffer.getD 0xFFFFFFFF).toNat)
      | none => s

/-! ### Tamper (R509) -/

/-- The 64 bytes of registers and 8 bytes for each monitor number. -/
def tamperReport (s : State) : Bytes :=
  (List.range 16).flatMap (fun i => le 4 (tmpWord s i).toNat) ++
    (List.range 0xC1).flatMap fun m => le 4 (tmpMon s m).toNat ++ le 4 (tmpWin s m).toNat

/-- TAMPER_QUERY. -/
def execTamperQuery (g : Gallery) (q : QIndex) (writeOk : Bool) (s : State) : Out :=
  .next <| runAdmin s g q 0x76 fun s c => query s c 0 writeOk (tamperReport s) []

/-- TAMPER_SET_POLICY (R56, R489, R490, R498). -/
def execTamperSetPolicy (g : Gallery) (q : QIndex) (s : State) : Out :=
  .next <| runAdmin s g q 0x77 fun s c =>
    let r : TamperRow := ⟨c.p 0 2, c.p 2 1, c.p 3 1, c.p 4 4⟩
    let x := monEntry s r.monitor
    if !tamperRowOk r then fails s c .badInput
    else if r.response < x.response.toNat || x.countN.toNat < r.count || r.window < x.window.toNat then fails s c .notAuthorised
    else done (updMon s r.monitor fun x =>
      { x with response := BitVec.ofNat 2 r.response, countN := BitVec.ofNat 8 r.count, window := BitVec.ofNat 24 r.window
               history := [] }) c

/-- TAMPER_STIMULATE (R499 to R501). -/
def execTamperStimulate (g : Gallery) (q : QIndex) (detected : Bool) (s : State) : Out :=
  .next <| runAdmin s g q 0x78 fun s c =>
    let m := c.p 0 2
    if (monitorInfo m).isNone then fails s c .badInput
    else if !monPowered s m then fails s c .reserveBusy
    else ifLive (stimulated s m detected true) c fun s => doneWith s c [if detected then 1 else 0]

/-- TAMPER_LOG_READ. -/
def execTamperLogRead (g : Gallery) (q : QIndex) (writeOk : Bool) (s : State) : Out :=
  .next <| runAdmin s g q 0x79 fun s c =>
    let l := tamperLog s
    if !hasRange (c.p 2 2) 1 16384 || l.length < c.p 0 2 + c.p 2 2 then fails s c .badInput
    else query s c 4 writeOk (((l.drop (c.p 0 2)).take (c.p 2 2)).flatMap id) []

/-- TAMPER_SELFTEST (R499, R509): the rotation begins; `selfStep` runs it. One command waits for another's. -/
def execTamperSelftest (g : Gallery) (q : QIndex) (failing : List Byte) (s : State) : Out :=
  .next <| runAdmin s g q 0x7A fun s c =>
    if s.tmp.selfRun.isSome then s
    else updTmp (keepRunning s c) fun t => { t with selfRun := some { seq := c.seq, left := monitorNos, failing } }

/-! ### Recorder (R521) -/

/-- REC_EXPORT. -/
def execRecExport (g : Gallery) (q : QIndex) (writeOk : Bool) (s : State) : Out :=
  .next <| runAdmin s g q 0x7B fun s c =>
    let l := storedRecs s
    if !hasRange (c.p 2 2) 1 4096 || l.length < c.p 0 2 + c.p 2 2 then fails s c .badInput
    else query s c 4 writeOk (((l.drop (c.p 0 2)).take (c.p 2 2)).flatMap id) []

/-- REC_LIVE (R518, R520). -/
def execRecLive (g : Gallery) (q : QIndex) (writeOk : Bool) (s : State) : Out :=
  .next <| runAdmin s g q 0x7C fun s c => query s c 0 writeOk (if s.rcd.full then zeros 512 else s.rcd.live.bytes) []

end Sys2Proof.Machine
end

