-- ==== Sys2Proof/Machine/Cards.lean ====
section
/-!
DEFINITION. Custodian cards: activation, T=1 blocks, the applet, authentication, shares (R319 to R329, R332, R333, R337,
R338, R601).
-/
namespace Sys2Proof.Machine

/-! ### Ports -/

def card (s : State) (n : Nat) : CardPort := s.cus.ports.get {} n
def setCard (s : State) (n : Nat) (p : CardPort) : State := updCus s fun u => { u with ports := u.ports.put {} n p }
def updCard (s : State) (n : Nat) (f : CardPort → CardPort) : State := setCard s n (f (card s n))

def cusEvent (s : State) (b : BitVec 4) : State := updCus s fun u => { u with event := u.event ||| b }

/-- Line `PERIPH` of the core that owns the custodian ports (R393, R447). -/
def periphPort (s : State) : State := setIp s [match portHalf s with | .cope => 1 | .drag => 5] 2

/-- The port is powered by the Mould, not under a loop-back test, and the part runs. -/
def cardLive (s : State) (n : Nat) : Bool :=
  s.pwr.phase != .off && s.mld.runAtrium.isSome && (card s n).state != .disabled && !looped s 2 n

/-- A card that the part refuses is deactivated and counted (R324, R327). -/
def refuseCard (s : State) (n reason : Nat) : State :=
  let s := updCus (deactivate s n) fun u => { u with refused := satInc31 u.refused }
  updCard s n fun p => { state := .refused, reason := BitVec.ofNat 4 reason, present := p.present, ta1 := p.ta1, ifsc := p.ifsc }

def cardError (s : State) (n reason : Nat) : State :=
  updCard (deactivate s n) n fun p => { state := .error, reason := BitVec.ofNat 4 reason, present := p.present }

/-- Activation (R320), after the deactivation of a card that is active. -/
def activate (s : State) (n : Nat) (noPps1 : Bool) : State :=
  setCard (emitPins (deactivate s n) n pinsUp) n { state := .activating, power := true, waits := .power, present := true, noPps1 }

/-- CARD_DETECT (R320, R601). -/
def execCardDetect (port : Fin 16) (s : State) : Out :=
  .next <|
    let n := port.val
    if !cardLive s n || (card s n).present then s
    else
      let s := periphPort (cusEvent s 1)
      if s.pwr.vcardOk then activate s n false else updCard s n fun p => { p with present := true }

/-- CARD_POWER_TIMEOUT (R320). -/
def execCardPowerTimeout (port : Fin 16) (s : State) : Out :=
  .next (if cardLive s port.val && (card s port.val).waits == .power then cardError s port.val 11 else s)

/-- CARD_REMOVED (R324). Outside the range of the latched class the port stays in ERROR (R601). -/
def execCardRemoved (port : Fin 16) (s : State) : Out :=
  .next <|
    let n := port.val
    if !(card s n).present then s
    else
      let s := periphPort (cusEvent s 2)
      let p := card s n
      if p.state == .disabled then updCard s n fun p => { p with present := false }
      else if !s.pwr.vcardOk then setCard (deactivate s n) n { state := .error, reason := 11 }
      else setCard (deactivate s n) n {}

/-! ### T=1 blocks (R319, R322, R323) -/

/-- A block: NAD 0x00, PCB, length, information field, LRC. -/
def cardBlock (pcb : Byte) (inf : Bytes) : Bytes :=
  let b := [0, pcb, BitVec.ofNat 8 inf.length] ++ inf
  b ++ [b.foldl (· ^^^ ·) 0]

def sendCard (s : State) (n : Nat) (b : Bytes) : State := { s with out := { s.out with card := s.out.card ++ [(n, b)] } }

/-- The I-block from `txPos` on, with its chaining bit. -/
def sendChunk (s : State) (n : Nat) : State :=
  let p := card s n
  let rest := p.tx.drop p.txPos
  let m := rest.length > p.ifsc.toNat
  sendCard s n (cardBlock (BitVec.ofNat 8 (64 * b2n p.ns + 32 * b2n m)) (rest.take p.ifsc.toNat))

def sendR (s : State) (n : Nat) (err : Nat) : State :=
  sendCard s n (cardBlock (BitVec.ofNat 8 (0x80 + 16 * b2n (card s n).nr + err)) [])

/-- S(ABORT request): a chained APDU is given up (R323). -/
def sendAbort (s : State) (n : Nat) : State :=
  sendCard (updCard s n fun p => { p with waits := .abort, attempts := 0 }) n (cardBlock 0xC2 [])

def sendIfs (s : State) (n : Nat) : State :=
  sendCard (updCard s n fun p => { p with waits := .ifs, attempts := 0 }) n (cardBlock 0xC1 [254])

/-- An APDU; its response is waited for. -/
def sendApdu (s : State) (n : Nat) (b : Bytes) : State :=
  sendChunk (updCard s n fun p => { p with tx := b, txPos := 0, rx := [], attempts := 0, waits := .apdu (nth 0 b 1) }) n

/-- One more failed attempt at the block: R-block, after three S(RESYNCH), and then deactivation and ERROR (R323). -/
def badBlock (s : State) (n : Nat) (resend : Bool) : State :=
  let p := card s n
  let s := updCard s n fun p => { p with attempts := p.attempts + 1, wtx := 0 }
  if p.attempts < 2 then
    if !resend then sendR s n 1
    else match p.waits with
      | .ifs => sendCard s n (cardBlock 0xC1 [254])
      | .abort => sendCard s n (cardBlock 0xC2 [])
      | _ => sendChunk s n
  else if p.waits == .resynch then cardError s n 5
  else sendCard (updCard s n fun p => { p with waits := .resynch, attempts := 0 }) n (cardBlock 0xC0 [])

/-- An I-block: part of the response (R323). -/
def gotI (s : State) (n : Nat) (ns more : Bool) (inf : Bytes) : State :=
  let p := card s n
  if ns != p.nr || p.tx.length > p.txPos + p.ifsc.toNat then badBlock s n false
  else
    let s := updCard s n fun p =>
      { p with rx := p.rx ++ inf, nr := !p.nr, ns := if p.txPos < p.tx.length then !p.ns else p.ns, txPos := p.tx.length
               attempts := 0, wtx := 0 }
    if more then sendR s n 0 else s

/-- An R-block: the next part of a chained command, or the same block again. -/
def gotR (s : State) (n : Nat) (nr : Bool) : State :=
  let p := card s n
  if nr != p.ns && p.tx.length > p.txPos + p.ifsc.toNat then
    sendChunk (updCard s n fun p => { p with ns := !p.ns, txPos := p.txPos + p.ifsc.toNat, attempts := 0, wtx := 0 }) n
  else badBlock s n (p.txPos < p.tx.length)

/-- After S(RESYNCH) the exchange begins again. -/
def resynched (s : State) (n : Nat) : State :=
  let s := updCard s n fun p => { p with ns := false, nr := false, attempts := 0, txPos := 0, rx := [] }
  if (card s n).tx.isEmpty then sendIfs s n else sendApdu s n (card s n).tx

def aidBytes : Bytes := [0xF0, 0x57, 0x4E, 0x58, 0x43, 0x55, 0x53]

/-- The applet is selected after activation. -/
def selectApplet (s : State) (n : Nat) : State :=
  sendApdu (updCard s n fun p => { p with state := .authenticating }) n ([0x00, 0xA4, 0x04, 0x00, 7] ++ aidBytes)

def waitsBlock (w : CardWait) : Bool :=
  match w with
  | .ifs | .apdu _ | .resynch | .abort => true
  | _ => false

def isApdu (w : CardWait) : Bool :=
  match w with
  | .apdu _ => true
  | _ => false

/-- Reserve operations for what the card of port `n` has answered, and whether one waits or runs (R327). -/
def cardOwner (n : Nat) (d : Bytes) : Bytes := [6] ++ le 1 n ++ d
def cardWorking (s : State) (n : Nat) : Bool := (resWorks s).any fun w => w.owner.take 2 == [6] ++ le 1 n

/-! ### Answer to reset and PPS (R320 to R322) -/

/-- TA1 values that the part supports (R319). -/
def ta1Ok (v : Byte) : Bool := [0, 1, 9].contains (v.toNat / 16) && [1, 2, 3, 4, 5, 8].contains (v.toNat % 16)

/-- The REASON of the first check of R321 that an answer fails. -/
def atrFault (s : State) (a : Atr) : Option Nat :=
  if !a.tckOk then some 1
  else if !a.offersT1 then some 2
  else if !(if s.cus.classC then a.classC == some true else a.classB == some true || (a.classB.isNone && a.classC.isNone)) then some 3
  else if !a.lrc || !(16 ≤ a.ta3.toNat && a.ta3.toNat ≤ 254) || 9 < a.bwi.toNat then some 1
  else none

/-- An invalid answer: one warm reset, then the card is refused. -/
def badAtr (s : State) (n reason : Nat) : State :=
  if (card s n).retried then refuseCard s n reason
  else emitPins (updCard s n fun p => { p with retried := true, waits := .atr }) n [.rst false, .rst true]

def waitsAtr (w : CardWait) : Bool := w == .power || w == .atr

/-- PPS request for T=1: PPSS, PPS0, PPS1 when it is offered, PCK. -/
def ppsRequest (o : Option Byte) : Bytes :=
  let b : Bytes := match o with
    | some v => [0xFF, 0x11, v]
    | none => [0xFF, 0x01]
  b ++ [b.foldl (· ^^^ ·) 0]

/-- CARD_ATR (R319 to R322). -/
def execCardAtr (port : Fin 16) (atr : Atr) (s : State) : Out :=
  .next <|
    let n := port.val
    if !cardLive s n || !waitsAtr (card s n).waits then s
    else match atrFault s atr with
      | some r => badAtr s n r
      | none =>
        let s := updCard s n fun p => { p with ifsc := atr.ta3 }
        match atr.specific, atr.ta1 with
        | true, some v => if ta1Ok v then sendIfs (updCard s n fun p => { p with ta1 := v }) n else refuseCard s n 4
        | false, some v =>
          let o := if ta1Ok v && !(card s n).noPps1 then some v else none
          sendCard (updCard s n fun p => { p with waits := .pps, offered := o }) n (ppsRequest o)
        | _, none => sendIfs s n

/-- CARD_ATR_TIMEOUT (R320, R321). -/
def execCardAtrTimeout (port : Fin 16) (s : State) : Out :=
  .next (if cardLive s port.val && waitsAtr (card s port.val).waits then badAtr s port.val 1 else s)

/-- The PPS request is echoed or not (R322). -/
def gotPps (s : State) (n : Nat) (echoed : Bool) : State :=
  if echoed then sendIfs (updCard s n fun p => { p with ta1 := p.offered.getD 0x11 }) n
  else if (card s n).noPps1 then cardError s n 4
  else activate s n true

/-- CARD_PPS_RESPONSE (R322). -/
def execCardPpsResponse (port : Fin 16) (echoed : Bool) (s : State) : Out :=
  .next (if cardLive s port.val && (card s port.val).waits == .pps then gotPps s port.val echoed else s)

/-- CARD_WAIT_TIME_EXPIRY (R323). -/
def execCardWaitTimeExpiry (port : Fin 16) (s : State) : Out :=
  .next <|
    let n := port.val
    let w := (card s n).waits
    if !cardLive s n || cardWorking s n then s
    else if w == .pps then gotPps s n false
    else if waitsBlock w then badBlock s n false else s

/-! ### The custodian set (R330, R331) -/

/-- The installed set can be read: its map key is the one of the root in use. -/
def setThere (s : State) : Bool := s.cus.installed && s.cus.testRoot == (rootSel s == 2) && rootSel s ≠ 0

/-- The commitment of a secret. -/
def commitment (secret : Bytes) : Bytes := ladderKdf secret "QLV-CUS-SET" [] 48

/-- A running set command wants the cards of its ports. -/
def runWants (s : State) (n : Nat) : Bool := s.cus.run.any fun r => r.ports.getLsbD n

/-- The oldest open, incomplete ceremony that takes a share of index `i` from port `n` (R337). -/
def eligible (s : State) (n i : Nat) : Option Nat :=
  let cs := (List.range 8).filterMap fun c => match nth none s.cus.cer c with
    | some x => if !x.complete && x.ports.getLsbD n && !(x.shares.any (·.1 = i)) then some (x.seq, c) else none
    | none => none
  ((sortBy (fun a b => a.1 ≤ b.1) cs).head?).map (·.2)

def cerWants (s : State) (n : Nat) : Bool := s.cus.cer.any fun c => c.any fun x => !x.complete && x.ports.getLsbD n

def cardIndex (p : CardPort) : Nat := p.index.toNat + 1

/-- The custodian authority of the cards in port `n`: a set command's own, else the installed one. -/
def authorityOf (s : State) (n : Nat) : Option Bytes :=
  match s.cus.run with
  | some r => if r.ports.getLsbD n then some r.point else if setThere s then some s.cus.point else none
  | none => if setThere s then some s.cus.point else none

/-! ### The applet (R325 to R329) -/

/-- The part's ephemeral private value of an authentication. -/
def ephOf (e : Nat) : Bytes := ecScalar (tabulate 64 (Config.freeByte e))

/-- Steps 2 to 4 of R327 begin: challenge and ephemeral key pair. They wait for the key-generation DRBG. -/
def authenticate (s : State) (n : Nat) : State :=
  let e := s.freeCtr
  let ch := freeBytesAt s 1 32
  let s := updCard (bump (drawMany s 2 2)) n fun p => { p with eph := e, challenge := ch, state := .authenticating, holderTick := tick s }
  sendApdu s n ([0x80, 0x12, 0x00, 0x00, 177] ++ ch ++ partId s ++ ecPub 2 (ephOf e) ++ [195])

/-- GET_CERT is answered (R326, step 1 of R327). -/
def gotCert (s : State) (n : Nat) (d : Bytes) : State :=
  match authorityOf s n with
  | none => refuseCard s n 6
  | some a =>
    if d.length ≠ 249 || leAt d 0 4 ≠ 0x43544357 || slice d 8 48 != sha384 a then refuseCard s n 6
    else if !ecVerify 2 a (sha384 (d.take 0x99)) (slice d 0x99 96) then refuseCard s n 7
    else authenticate (updCard s n fun p => { p with cardKey := slice d 0x38 97 }) n

/-- S of a set in creation, and its coefficients, from under the key of line 23 (R331). -/
def SetRun.plain (s : State) (r : SetRun) : Bytes := lineCipher s 23 0 r.secret
def SetRun.terms (s : State) (r : SetRun) : List Bytes :=
  tabulate r.coefs.length fun k => lineCipher s 23 (17 + k) (nth [] r.coefs k)

/-- The card waits without an exchange. -/
def park (s : State) (n : Nat) (st : CardState) : State := updCard s n fun p => { p with state := st, waits := .nothing, tx := [], rx := [] }

/-- STORE_SHARE: share `i` of a set in creation goes to the card. -/
def storeShare (s : State) (n : Nat) (r : SetRun) (i : Nat) : State :=
  let p := card s n
  let iv := freeBytes s 12
  let pt := (commitment (r.plain s)).take 16 ++ le 1 i ++ shamirShare (r.plain s) (r.terms s) i ++ zeros 15
  let (ct, tag) := gcmEnc p.session iv ([0x16] ++ p.challenge) pt
  sendApdu (bump (drawFrom s 2)) n ([0x80, 0x16, 0x00, 0x00, 92] ++ iv ++ ct ++ tag)

/-- What the part wants next of an authenticated card: its holder (R329), its share (R337), or that it takes one
(R332). -/
def wantCard (s : State) (n : Nat) : State :=
  let p := card s n
  let release := fun s : State => sendApdu (updCard s n fun p => { p with state := .ready }) n [0x80, 0x14, 0x00, 0x00, 92]
  if !p.holder then park s n (if runWants s n || cerWants s n then .waitHolder else .ready)
  else match (if runWants s n then s.cus.run else none) with
    | some r =>
      if r.adopt then if p.held && p.share.isEmpty then release s else park s n .ready
      else if r.stored.contains p.cardKey then park s n .done
      else
        let order := if r.order.contains p.cardKey then r.order else r.order ++ [p.cardKey]
        let i := order.findIdx (· == p.cardKey) + 1
        let r := { r with order }
        let s := updCus s fun u => { u with run := some r }
        if r.n < i then park s n .ready else storeShare (park s n .ready) n r i
    | none => if p.held && p.share.isEmpty && (eligible s n (cardIndex p)).isSome then release s else park s n .ready

/-- AUTHENTICATE is answered (steps 3 and 4 of R327, R328). -/
def gotAuth (s : State) (n : Nat) (d : Bytes) : State :=
  let p := card s n
  let pt := d.take 97
  let st := byteAt d 97
  let ix := byteAt d 98
  let signed := ascii "QLV-CUS-AUTH" ++ partId s ++ p.challenge ++ ecPub 2 (ephOf p.eph) ++ d.take 99
  if d.length ≠ 195 || !pointOk 2 pt || !ecVerify 2 p.cardKey (sha384 signed) (slice d 99 96) then refuseCard s n 7
  else if 3 < st || (if nbit st 1 then !(1 ≤ ix && ix ≤ 16) else ix ≠ 0) then refuseCard s n 5
  else
    let k := ladderKdf (ecdh 2 (ephOf p.eph) pt) "QLV-CUS" p.challenge 32
    wantCard (updCard s n fun p =>
      { p with session := k, holder := nbit st 0, held := nbit st 1, index := BitVec.ofNat 4 (ix - 1), share := [], setId := [] }) n

/-- The Reliquary line under whose key the part holds a share of index `i` from port `n`: the set command's, or that of the ceremony
that will take it (R331, R336). -/
def shareKey (s : State) (n i : Nat) : Option Nat := if runWants s n then some 23 else (eligible s n i).map (24 + ·)

/-- RELEASE_SHARE is answered (R328, R337). A share that nothing wants any more is not kept. -/
def gotShare (s : State) (n : Nat) (d : Bytes) : State :=
  let p := card s n
  match gcmDec p.session (slice d 0 12) ([0x14] ++ p.challenge) (slice d 12 64) (slice d 76 16) with
  | none => refuseCard s n 10
  | some m =>
    if d.length ≠ 92 then refuseCard s n 10
    else if !(s.cus.run.any fun r => r.adopt && r.ports.getLsbD n) && slice m 0 16 != s.cus.commit.take 16 then refuseCard s n 9
    else
      let s := park s n .ready
      let i := byteAt m 16
      match shareKey s n i with
      | none => s
      | some l => updCard s n fun p =>
        { p with setId := slice m 0 16, share := lineCipher s l i (slice m 17 32), shareLine := l, index := BitVec.ofNat 4 (i - 1) }

/-- A new IFSC, answered alike (R319). -/
def gotIfs (s : State) (n : Nat) (size : Byte) : State :=
  if 16 ≤ size.toNat && size.toNat ≤ 254 then
    sendCard (updCard s n fun p => { p with ifsc := size, attempts := 0 }) n (cardBlock 0xE1 [size])
  else badBlock s n false

/-- CARD_BLOCK_RECEIVED (R319, R323). -/
def execCardBlockReceived (port : Fin 16) (block : CardBlock) (s : State) : Out :=
  .next <|
    let n := port.val
    let w := (card s n).waits
    if !cardLive s n || !waitsBlock w || cardWorking s n then s
    else match block with
      | .invalid => badBlock s n false
      | .iBlock ns more inf => if isApdu w then gotI s n ns more inf else badBlock s n false
      | .rBlock nr _ => if isApdu w then gotR s n nr else badBlock s n true
      | .wtxRequest mult =>
        if mult = 0 || w == .resynch then badBlock s n false
        else sendCard (updCard s n fun p => { p with wtx := mult }) n (cardBlock 0xE3 [mult])
      | .ifsRequest size => if w == .resynch then badBlock s n false else gotIfs s n size
      | .abortResponse => if w == .abort then wantCard (park s n .ready) n else badBlock s n false
      | .resynchResponse => if w == .resynch then resynched s n else badBlock s n false
      | .ifsResponse size => if w == .ifs && size = 254 then selectApplet s n else badBlock s n false
      | .abortRequest => if isApdu w then refuseCard (sendCard s n (cardBlock 0xE2 [])) n 5 else badBlock s n false

/-! ### A set command ends -/

def setCmd (s : State) (r : SetRun) : Option AdminCmd :=
  s.adm.find? fun c => c.phase == .running && (c.op = 0x33 || c.op = 0x34) && c.key = r.sq

/-- A share APDU of a set command that ends is given up: a chained one with S(ABORT) (R323). -/
def giveUp (s : State) (n : Nat) : State :=
  let p := card s n
  if !(p.waits == .apdu 0x14 || p.waits == .apdu 0x16) then s
  else if p.tx.length > p.txPos + p.ifsc.toNat || !p.rx.isEmpty then sendAbort s n else s

/-- The set command's key in Reliquary line 23 is overwritten (R331); a ceremony whose last use it had ends (R340). -/
def closeRun (s : State) (c : Option AdminCmd) : State :=
  let ports := (s.cus.run.map (·.ports)).getD 0
  let s := (List.range 16).foldl (fun s n => if ports.getLsbD n then giveUp s n else s) s
  let s := updSrm (updCus (dropShares s 23) fun u => { u with run := none }) fun r => { r with lines := r.lines.put [] 23 [] }
  match c with
  | none => s
  | some c =>
    match cerOf s (c.p 16 4) with
    | some (k, x) => if x.uses = 0 then endCeremony s k else s
    | none => s

/-- The new set is written (R331, step 4 of R332). -/
def installSet (s : State) (r : SetRun) (commit : Bytes) : State :=
  let c := setCmd s r
  let set : CusSet := { n := r.n, m := r.m, point := r.point, commit }
  let s := writeArea s 33 fun a => { a with set := some set }
  let s := updCus s fun u =>
    { u with installed := true, n := r.n, m := r.m, point := r.point, commit, testRoot := rootSel s == 2 }
  let s := closeRun s c
  match c with
  | some c => done s c
  | none => s

def failRun (s : State) (r : SetRun) : State :=
  let c := setCmd s r
  let s := closeRun s c
  match c with
  | some c => fails s c .notAuthorised
  | none => s

/-- STORE_SHARE succeeded. -/
def gotStored (s : State) (n : Nat) : State :=
  let k := (card s n).cardKey
  let s := park (updCard s n fun p => { p with held := true }) n .done
  match s.cus.run with
  | none => s
  | some r =>
    if r.adopt || r.stored.contains k then s
    else
      let r := { r with stored := r.stored ++ [k] }
      let s := updCard s n fun p => { p with index := BitVec.ofNat 4 (r.order.findIdx (· == k)) }
      if r.n ≤ r.stored.length then installSet s r (commitment (r.plain s)) else updCus s fun u => { u with run := some r }

/-- CARD_APDU_RESPONSE (R324, R325). The data are those of the blocks received, when the exchange ran by blocks. -/
def execCardApduResponse (port : Fin 16) (data : Bytes) (sw : BitVec 16) (s : State) : Out :=
  .next <|
    let n := port.val
    let p := card s n
    if !cardLive s n || !(p.rx.isEmpty || p.rx == data ++ be 2 sw.toNat) then s
    else match p.waits with
      | .apdu ins =>
        if sw ≠ 0x9000 then refuseCard s n 8
        else match ins.toNat with
          | 0xA4 => sendApdu s n [0x80, 0x10, 0x00, 0x00, 249]
          | 0x10 => if !drbgReady s 2 then s else reserveOp s (cardOwner n data) [140, 78] none fun s => gotCert s n data
          | 0x12 => reserveOp s (cardOwner n data) [140, 75] none fun s => gotAuth s n data
          | 0x14 => gotShare s n data
          | 0x16 => gotStored s n
          | _ => s
      | _ => s

/-- HOLDER_RECHECK (R329). -/
def execHolderRecheck (port : Fin 16) (s : State) : Out :=
  .next <|
    let n := port.val
    let p := card s n
    if !cardLive s n || p.state != .waitHolder || tick s < p.holderTick + 1000000 || !drbgReady s 2 then s
    else if runWants s n || cerWants s n then reserveOp s (cardOwner n p.challenge) [78] none fun s => authenticate s n
    else park s n .ready

/-! ### Shares (R333, R337, R338) -/

/-- CEREMONY_WAIT commands of a ceremony complete. -/
def wakeWaiters (s : State) (ref : Word) : State :=
  (s.adm.filter fun a => a.phase == .running && a.op = 0x31 && a.p 0 4 = ref.toNat).foldl (fun s a => done s a) s

/-- M shares are there: the secret, and its commitment against the stored one (R338). -/
def judge (s : State) (c : Nat) (x : Ceremony) : State :=
  if x.shares.length < s.cus.m then s
  else
    let secret := shamirJoin (x.shares.map fun e => (e.1, lineCipher s (24 + c) e.1 e.2))
    if commitment secret = s.cus.commit then
      let secret := lineCipher s (24 + c) 0 secret
      let s := updCus s fun u => { u with cer := setNth u.cer c (some { x with complete := true, shares := [], secret }) }
      wakeWaiters (cusEvent s 4) x.ref
    else endCeremony (updCus s fun u => { u with refused := satInc31 u.refused }) c

/-- CUSTODIAN_SET_ADOPT has M shares (R333). -/
def judgeAdopt (s : State) (r : SetRun) : State :=
  if r.shares.length < r.m then updCus s fun u => { u with run := some r }
  else
    let c := commitment (shamirJoin (r.shares.map fun e => (e.1, lineCipher s 23 e.1 e.2)))
    if r.ids.all (· == c.take 16) then installSet s r c else failRun s r

/-- SHARE_GIVEN (R333, R337). -/
def execShareGiven (port : Fin 16) (s : State) : Out :=
  .next <|
    let n := port.val
    let p := card s n
    let i := cardIndex p
    if !cardLive s n || p.state != .ready || p.share.isEmpty then s
    else
      let taken := fun s : State => updCard s n fun p => { p with state := .done, share := [], setId := [], shareLine := 0 }
      match (if runWants s n then s.cus.run else none) with
      | some r =>
        if !r.adopt || r.shares.any (·.1 = i) then s
        else judgeAdopt (taken s) { r with shares := r.shares ++ [(i, p.share)], ids := r.ids ++ [p.setId] }
      | none =>
        match eligible s n i with
        | none => s
        | some c =>
          match nth none s.cus.cer c with
          | none => s
          | some x =>
            let share := if p.shareLine = 24 + c then p.share else lineCipher s (24 + c) i (lineCipher s p.shareLine i p.share)
            let x := { x with shares := x.shares ++ [(i, share)] }
            judge (updCus (taken s) fun u => { u with cer := setNth u.cer c (some x) }) c x

/-! ### VCARD_IO (R601) -/

/-- VCARD_IO_OUT_OF_RANGE. -/
def execVcardIoOutOfRange (s : State) : Out :=
  .next <|
    if s.pwr.phase == .off || !s.pwr.vcardOk then s
    else
      let s := updPwr s fun p => { p with vcardOk := false }
      (List.range 16).foldl (fun s n => if (card s n).state == .disabled then s else cardError s n 11) s

/-- VCARD_IO_IN_RANGE: the ports leave ERROR; a card that is present is activated. -/
def execVcardIoInRange (s : State) : Out :=
  .next <|
    if s.pwr.vcardOk then s
    else
      let s := updPwr s fun p => { p with vcardOk := true }
      (List.range 16).foldl (fun s n =>
        let p := card s n
        if p.state == .error && p.reason = 11 then (if p.present then activate s n false else setCard s n {}) else s) s

end Sys2Proof.Machine
end

