-- ==== Sys2Proof/Machine/Ceremony.lean ====
section
/-!
DEFINITION. Ceremonies (R334 to R340), custodian set commands (R332, R333), archive media and archives (R341 to R355).
-/
namespace Sys2Proof.Machine

/-- During an inspection session every command of spec/11 ends `RESERVE_BUSY` (R340). -/
def noSession (s : State) (c : AdminCmd) (f : State → State) : State := if s.lcs.session then fails s c .reserveBusy else f s

/-! ### Opening, waiting, closing -/

/-- Who may open a ceremony of a purpose for a gallery field (R335). -/
def mayOpen (g purpose gal : Nat) : Bool :=
  match purpose with
  | 2 => gal = g
  | 3 => g = 0 || gal = g
  | _ => g = 0

/-- The gallery field is 0 for the purposes that name none (R335). -/
def fieldOk (purpose gal : Nat) : Bool := hasRange purpose 1 9 && (if purpose = 4 || 6 ≤ purpose then gal = 0 else true)

/-- Cards that are ready or wait for their holder look for what is wanted of them (R329, R337). -/
def wakeCards (s : State) (ports : BitVec 16) : State :=
  (List.range 16).foldl (fun s n =>
    let p := card s n
    if ports.getLsbD n && cardLive s n && p.waits == .nothing && (p.state == .ready || p.state == .waitHolder) then wantCard s n
    else s) s

/-- CEREMONY_OPEN (R335, R336). The reference: the register index below, free bits above (entry 5). -/
def execCeremonyOpen (g : Gallery) (q : QIndex) (s : State) : Out :=
  .next <| runAdmin s g q 0x30 fun s c => noSession s c fun s =>
    let purpose := c.p 0 1
    let field := c.p 1 1
    let uses := c.p 4 2
    let window := c.p 6 4
    if !hasRange purpose 1 9 then fails s c .badInput
    else if !mayOpen c.gal purpose field then fails s c .notAuthorised
    else if !fieldOk purpose field || !hasRange uses 1 8191 || window < 1000000 then fails s c .badInput
    else if !setThere s then fails s c .notAuthorised
    else match (List.range 8).find? fun k => (nth none s.cus.cer k).isNone with
      | none => fails s c .quota
      | some k =>
        if !drbgReady s 2 then s
        else
          let ref := 8 * (1 + fromLe (freeBytes s 4) % (2 ^ 29 - 1)) + k
          let x : Ceremony :=
            { ref := BitVec.ofNat 32 ref, seq := c.seq, purpose, gallery := field, opener := c.gal, ports := BitVec.ofNat 16 (c.p 2 2)
              uses, deadline := tick s + window }
          let key := sharedLine s 40 (freeBytesAt s 1 32)
          let s := updCus (bump (drawFrom s 2)) fun u => { u with cer := setNth u.cer k (some x) }
          let s := updSrm s fun r => { r with lines := r.lines.put [] (24 + k) key }
          doneWith (wakeCards s x.ports) c (le 4 ref)

/-- CEREMONY_WAIT. -/
def execCeremonyWait (g : Gallery) (q : QIndex) (s : State) : Out :=
  .next <| runAdmin s g q 0x31 fun s c => noSession s c fun s =>
    match cerOf s (c.p 0 4) with
    | none => fails s c .notAuthorised
    | some (_, x) => if x.complete then done s c else keepRunning s c

/-- CEREMONY_CLOSE: by the gallery that opened it. -/
def execCeremonyClose (g : Gallery) (q : QIndex) (s : State) : Out :=
  .next <| runAdmin s g q 0x32 fun s c => noSession s c fun s =>
    match cerOf s (c.p 0 4) with
    | none => fails s c .notAuthorised
    | some (k, x) => if x.opener = c.gal then done (closeCer s k x) c else fails s c .notAuthorised

/-- A running command loses its ceremony's window (R340, R350). -/
def windowGone (s : State) (a : AdminCmd) : State :=
  if a.op = 0x35 then fails (closeArcWrite s) a .notAuthorised
  else fails (closeRun s (some a)) a .notAuthorised

/-- CEREMONY_WINDOW_EXPIRY (R340, R350). -/
def execCeremonyWindowExpiry (c : Fin 8) (s : State) : Out :=
  .next <| match nth none s.cus.cer c.val with
  | none => s
  | some x =>
    if tick s < x.deadline || !s.gen.windowDone then s
    else
      let s := match citing s x.ref with
        | some a => windowGone s a
        | none => s
      endCeremony s c.val

/-- One use, by a command that runs on: the ceremony stays until it completes (R339, R340). A command that a Reserve restart
sent back has taken its use (`cited`, R18). -/
def useCerLong (s : State) (cited : Bool) (g ref purpose gal : Nat) : Bool × Bytes × State :=
  match cerOf s ref with
  | none => (false, [], s)
  | some (k, x) =>
    if cited then (true, lineCipher s (24 + k) 0 x.secret, s)
    else if x.complete && 0 < x.uses && x.purpose = purpose && x.gallery = gal && x.opener = g then
      (true, lineCipher s (24 + k) 0 x.secret, updCus s fun u => { u with cer := setNth u.cer k (some { x with uses := x.uses - 1 }) })
    else (false, [], s)

/-- A ceremony whose last use has been taken ends with the command that took it. -/
def dropCer (s : State) (ref : Nat) : State :=
  match cerOf s ref with
  | some (k, x) => if x.uses = 0 then endCeremony s k else s
  | none => s

/-- A command that ends before it cites its ceremony: one that was sent back gives its ceremony up. -/
def failsEarly (s : State) (c : AdminCmd) (st : Status) : State := fails (if c.cited then dropCer s c.cites else s) c st

/-! ### Custodian set commands -/

/-- Cards in the ports of a set command are activated again, to be authenticated under its authority. -/
def restartCards (s : State) (ports : BitVec 16) : State :=
  (List.range 16).foldl (fun s n =>
    if ports.getLsbD n && cardLive s n && (card s n).present && s.pwr.vcardOk then activate s n false else s) s

/-- CUSTODIAN_SET_CREATE and CUSTODIAN_SET_ADOPT begin (R332 to R334). One at a time runs: Reliquary line 23 holds one key. -/
def setCommand (s : State) (c : AdminCmd) (adopt : Bool) (point : Option Bytes) : State :=
  let n := c.p 8 1
  let m := c.p 9 1
  let ports := BitVec.ofNat 16 (c.p 10 2)
  let ref := c.p 16 4
  if s.cus.run.isSome || !drbgReady s 2 then s
  else if m < 2 || n < m || 16 < n || (!setThere s && ref ≠ 0) then fails s c .badInput
  else
    let (ok, _, s) := if setThere s then useCerLong s c.cited c.gal ref 9 0 else (true, [], s)
    if !ok then fails s c .notAuthorised
    else match point with
      | none => completeAdmin (dropCer s ref) c .dmaError 1 0 []
      | some b =>
        let pt := padTo 97 b
        if !pointOk 2 pt then fails (dropCer s ref) c .badInput
        else
          let key := sharedLine s 40 (freeBytesAt s 1 32)
          let secret := freeBytesAt s 2 32
          let coefs := (List.range (m - 1)).map fun k => freeBytesAt s (3 + k) 32
          let s := updSrm (bump (drawMany s 2 (if adopt then 1 else m + 1))) fun x => { x with lines := x.lines.put [] 23 key }
          let r : SetRun :=
            { adopt, sq := c.key, n, m, ports, deadline := tick s + c.p 12 4, point := pt
              secret := if adopt then [] else lineCipher s 23 0 secret
              coefs := if adopt then [] else tabulate coefs.length fun k => lineCipher s 23 (17 + k) (nth [] coefs k) }
          restartCards (keepRunning (updCus s fun u => { u with run := some r }) c) ports

/-- CUSTODIAN_SET_CREATE. -/
def execCustodianSetCreate (g : Gallery) (q : QIndex) (point : Option Bytes) (s : State) : Out :=
  .next <| runAdmin s g q 0x33 fun s c => noSession s c fun s => setCommand s c false point

/-- CUSTODIAN_SET_ADOPT. -/
def execCustodianSetAdopt (g : Gallery) (q : QIndex) (point : Option Bytes) (s : State) : Out :=
  .next <| runAdmin s g q 0x34 fun s c => noSession s c fun s => setCommand s c true point

/-- SET_CREATE_WINDOW_EXPIRY (R332, R356). -/
def execSetCreateWindowExpiry (s : State) : Out :=
  .next <| match s.cus.run with
  | some r => if r.deadline ≤ tick s && s.gen.windowDone then failRun s r else s
  | none => s

/-! ### Archive media ports (R341 to R343, R348, R349) -/

/-- The CSD shows TMP_WRITE_PROTECT: ARCHIVE_WRITE completes (R347 steps 3 and 4). -/
def arcClosed (s : State) (w : ArcWrite) : State :=
  let cmd := arcCmd s
  let s := closeArcWrite (updArcPort s w.port fun p => { p with tmpWp := true })
  match cmd with
  | some c => doneWith s c w.archiveId
  | none => s

def arcAt (s : State) (n : Nat) : ArcPort := s.arc.ports.get {} n

def arcLive (s : State) (n : Nat) : Bool :=
  s.pwr.phase != .off && s.mld.runAtrium.isSome && (arcAt s n).state != .disabled && !looped s 3 n

def arcActive (p : ArcPort) : Bool := (p.state == .ready || p.state == .busy) && !p.no18

def othersActive (s : State) (n : Nat) : Bool := (List.range 4).any fun k => k ≠ n && arcActive (arcAt s k)

/-- The bank's level and the tick of its change (R342, R602). -/
def setV18 (s : State) (v : Bool) : State :=
  if s.arc.v18 = v then s else updArc s fun a => { a with v18 := v, vselAt := some (tick s) }

/-- The port as initialisation leaves it. -/
def initSd (card : SdCard) (v18 : Bool) : ArcPort :=
  { state := .ready, type := card.type, speed := if v18 then 2 else if card.highSpeed then 1 else 0, permWp := card.permWp
    tmpWp := card.tmpWp, switchWp := card.switchWp, cid := card.cid, blocks := card.blocks, csd := card.csd, rca := card.rca
    highSpeed := card.highSpeed }

/-- The commands of an initialisation (R341, R342): `s18r` is asked for, `up` switches to 1.8 V. Their order and arguments are those
of the SD physical layer (PRESUMED, entry 84). -/
def initFrames (card : SdCard) (s18r up : Bool) : List Bytes :=
  let r := 65536 * card.rca.toNat
  let start := [sdFrame 0 0, sdFrame 8 0x1AA, sdFrame 55 0, sdFrame 41 (0x40FF8000 + 2 ^ 24 * b2n s18r)]
  let switch := if up then [sdFrame 11 0] else []
  let ident := [sdFrame 2 0, sdFrame 3 0, sdFrame 9 r, sdFrame 7 r, sdFrame 55 r, sdFrame 6 2]
  let len := if card.type = 0 then [sdFrame 16 512] else []
  let speed := if up then [sdFrame 6 0x80FFFF02, sdFrame 19 0] else if card.highSpeed then [sdFrame 6 0x80FFFF01] else []
  start ++ switch ++ ident ++ len ++ speed

/-- A waiting ARCHIVE_WRITE goes on when its card is back (R349); one whose card turns out to carry the protection that was being
set is closed (R347). -/
def resumeArc (s : State) (n : Nat) : State :=
  match s.arc.write with
  | none => s
  | some w =>
    let p := arcAt s n
    if w.waitCard && w.port = n && p.cid == w.cid && p.state == .ready then
      if writable p then
        emitRecord (updArcPort (updArc s fun a =>
          { a with rewrites := if w.protecting then a.rewrites else satInc31 a.rewrites, write := some { w with waitCard := false } }) n
          fun p => { p with state := .busy })
      else if w.protecting && p.tmpWp then arcClosed s w else s
    else s

/-- The bank returns to 3.3 V when no card of it is active (R342); a card that 1.8 V left unused is initialised. -/
def bankIdle (s : State) : State :=
  if (List.range 4).any (fun k => arcActive (arcAt s k)) then s
  else (List.range 4).foldl (fun s n =>
    let p := arcAt s n
    if p.no18 then
      resumeArc (updArcPort s n fun p => { p with state := .ready, no18 := false, speed := if p.highSpeed then 1 else 0 }) n
    else s) (setV18 s false)

/-- ARC_CARD_DETECT (R341 to R343, R349). -/
def execArcCardDetect (port : Fin 4) (card : SdCard) (s : State) : Out :=
  .next <|
    let n := port.val
    if !arcLive s n || (arcAt s n).state != .empty then s
    else
      let s18r := s.arc.v18 || (s.arc.uhsEn && !othersActive s n)
      let up := card.s18a && s18r
      let s := emitSd s n (initFrames card s18r up)
      let fault := fun reason => setArcPort s n { state := .error, reason }
      if !card.responds then fault 1
      else if !card.crcOk then fault 2
      else if up && !card.switchOk then fault 5
      else if s.arc.v18 && !up then setArcPort s n { initSd card false with state := .init, no18 := true }
      else resumeArc (setArcPort (setV18 s up) n (initSd card up)) n

/-- ARC_CARD_REMOVED (R342, R349). -/
def execArcCardRemoved (port : Fin 4) (s : State) : Out :=
  .next <|
    let n := port.val
    let p := arcAt s n
    if p.state == .empty || p.state == .disabled then s
    else
      let s := setArcPort s n {}
      bankIdle (if s.arc.write.any fun w => w.port = n && !w.waitCard then arcNotWritten s true else s)

/-- ARC_RECORD_WRITTEN (R347, R348): the next record; after the trailer CMD27, and once the CSD read again shows
TMP_WRITE_PROTECT the completion. -/
def execArcRecordWritten (s : State) : Out :=
  .next <| match s.arc.write with
  | none => s
  | some w =>
    if w.waitCard || !arcLive s w.port then s
    else if w.protecting then arcClosed s w
    else match w.records.tail with
      | [] => emitRecord (updArc s fun a => { a with write := some { w with records := [], protecting := true, attempts := 0 } })
      | rs => emitRecord (updArc s fun a => { a with write := some { w with records := rs, seq := w.seq + 1, block := w.block + 1, attempts := 0 } })

/-- ARC_BUSY_TIMEOUT (R348, R349): busy beyond 500 ms, or an error bit of CMD13. -/
def execArcBusyTimeout (s : State) : Out :=
  .next <| match s.arc.write with
  | none => s
  | some w =>
    if w.waitCard || !arcLive s w.port then s
    else
      let s := arcNotWritten s false
      if s.arc.write.isNone then bankIdle (updArcPort s w.port fun p => { p with state := .error, reason := 3 }) else s

/-! ### Archive records (R344 to R346) -/

/-- One record. -/
def arcRecord (kind : Nat) (aid : Bytes) (seq : Nat) (payload : Bytes) : Bytes :=
  let b := le 4 0x56524341 ++ le 1 1 ++ le 1 kind ++ le 2 payload.length ++ aid ++ le 4 seq ++ zeros 4 ++ padTo 476 payload
  b ++ le 4 (crc32 b)

def arcKey (secret aid src : Bytes) : Bytes := ladderKdf secret "QLV-ARC" (aid ++ src) 32
def arcMacKey (secret aid : Bytes) : Bytes := ladderKdf secret "QLV-ARC-MAC" aid 48

/-- The Slot Update Message of part `p` of slot `n` (R299, R346). -/
def arcSum (s : State) (ak iv : Bytes) (g n : Nat) (k : WorkKey) (p total : Nat) : Bytes :=
  let m := if total = 1 then k.material else slice k.material (320 * p) 320
  let head := le 4 0x4D555351 ++ [1, 1, 4, 3] ++ partId s ++ le 1 g ++ le 1 k.alg ++ le 2 n ++ le 4 k.attr.toNat ++
    le 8 (gal s g).counter.toNat ++ le 2 k.material.length ++ le 1 k.hash ++ le 1 (16 * total + p) ++ le 2 12 ++ le 2 m.length ++ le 2 16 ++
    zeros 46
  let (ct, tag) := gcmEnc ak iv head m
  head ++ iv ++ ct ++ tag

/-- The occupied slots of a gallery with their keys, in ascending order. -/
def arcKeys (s : State) (g : Nat) : List (Nat × WorkKey) :=
  (slotsOf s g).filterMap fun n => if (mapEnt s n).member then none else (slotKey s .cope n).map fun k => (n, k)

def partsOf (k : WorkKey) : Nat := if wideAlg k.alg then k.material.length / 320 else 1

/-- The records of an archive: header, slots, trailer (R345). Draw 1 gives `ARCHIVE_ID`; the others the nonces. -/
def arcRecords (s : State) (secret aid : Bytes) (g : Nat) : List Bytes :=
  let ks := (arcKeys s g).flatMap fun e => (List.range (partsOf e.2)).map fun p => (e.1, e.2, p)
  let ak := arcKey secret aid (partId s)
  let header := arcRecord 1 aid 0
    (partId s ++ s.cus.commit.take 16 ++ le 1 g ++ zeros 3 ++ le 4 ks.length ++ le 8 (gal s g).counter.toNat ++ zeros 48)
  let body := (ks.zip (List.range ks.length)).map fun e =>
    arcRecord 2 aid (e.2 + 1) (arcSum s ak (freeBytesAt s (2 + e.2) 12) g e.1.1 e.1.2.1 e.1.2.2 (partsOf e.1.2.1))
  let before := header :: body
  let mac := hmac 3 (arcMacKey secret aid) (before.flatMap fun r => r.take 508)
  before ++ [arcRecord 3 aid before.length (le 4 (before.length + 1) ++ mac)]

/-- A gallery's keys counted as archive records, header and trailer included. -/
def arcLength (s : State) (g : Nat) : Nat := sumNat ((arcKeys s g).map fun e => partsOf e.2) + 2

/-! ### ARCHIVE_WRITE, ARCHIVE_SEAL -/

/-- ARCHIVE_WRITE (R347): steps 1 and 2. -/
def execArchiveWrite (g : Gallery) (q : QIndex) (s : State) : Out :=
  .next <| runAdmin s g q 0x35 fun s c => noSession s c fun s =>
    let t := c.p 0 1
    let port := c.p 1 1
    let ref := c.p 2 4
    let busyHere := s.arc.write.any fun w => w.port = port
    if c.gal ≠ 0 && c.gal ≠ t then fails s c .notAuthorised
    else if 3 < port || (gal s t).state != .active then failsEarly s c .badInput
    else if busyHere then failsEarly s c .reserveBusy
    else if !slotTurn s t c || s.arc.write.isSome || !drbgReady s 2 then s
    else if !hasVek s || roomPaused s then failsEarly s c .reserveBusy
    else
      let (ok, secret, s) := useCerLong s c.cited c.gal ref 3 t
      let p := arcAt s port
      let n := arcLength s t
      if !ok then fails s c .notAuthorised
      else if !arcLive s port || p.state != .ready || !writable p || p.blocks < 2 * n then fails (dropCer s ref) c .badInput
      else if (gal s t).arcQuota < n then fails (dropCer s ref) c .quota
      else
        let aid := freeBytesAt s 1 16
        let w : ArcWrite :=
          { port, gal := c.gal, sq := c.sq, ref := BitVec.ofNat 32 ref, records := arcRecords s secret aid t, cid := p.cid, archiveId := aid }
        let s := updArc (bump (drawMany s 2 (n - 1))) fun a => { a with write := some w }
        keepRunning (emitRecord (updArcPort s port fun p => { p with state := .busy })) c

/-- ARCHIVE_SEAL (R352). -/
def execArchiveSeal (g : Gallery) (q : QIndex) (headerOk trailerOk : Bool) (s : State) : Out :=
  .next <| runAdmin s g q 0x36 fun s c => noSession s c fun s =>
    let port := c.p 0 1
    if 3 < port then fails s c .badInput
    else if s.arc.write.any fun w => w.port = port then fails s c .reserveBusy
    else
      let (ok, _, s) := useCer s c.gal (c.p 1 4) 4 0
      let p := arcAt s port
      if !ok then fails s c .notAuthorised
      else if !arcLive s port || p.state != .ready || !p.tmpWp || p.permWp || p.switchWp || !headerOk || !trailerOk then fails s c .badInput
      else done (updArcPort (emitSd s port (readCsd p ++ programCsd p true true)) port fun p => { p with permWp := true }) c

/-! ### ARCHIVE_RESTORE (R353 to R355) -/

def recSeq (r : Bytes) : Nat := leAt r 0x18 4
def recKind (r : Bytes) : Nat := byteAt r 5
def recPayload (r : Bytes) : Bytes := slice r 0x20 (leAt r 6 2)

def recOk (r : Bytes) : Bool := leAt r 0 4 = 0x56524341 && byteAt r 4 = 1 && leAt r 0x1FC 4 = crc32 (r.take 508)

/-- The reader of R353 over the blocks that are left: the records kept, newest first; `none` when unreadable. -/
def readArchive (aid : Bytes) : Nat → Nat → List Bytes → List Bytes → Option (List Bytes)
  | 0, _, _, _ => none
  | _, _, [], _ => none
  | f + 1, bad, b :: t, acc =>
    if recOk b && slice b 8 16 == aid then
      let acc := b :: acc.filter fun r => recSeq r ≠ recSeq b
      if recKind b = 3 then some acc else readArchive aid f 0 t acc
    else if 3 ≤ bad then none
    else readArchive aid f (bad + 1) t acc

/-- The header stands among the first blocks. -/
def findHeader : Nat → List Bytes → Option Bytes
  | 0, _ => none
  | _, [] => none
  | f + 1, b :: t => if recOk b && recKind b = 1 then some b else findHeader f t

/-- Slot messages by record number, with the range and mapping of a restore. -/
structure Restore where
  target : Nat
  src : Nat
  dst : Nat
  count : Nat
  sid : Bytes
  ak : Bytes

def Restore.covers (x : Restore) (n : Nat) : Bool := x.count = 0 || (x.src ≤ n && n < x.src + x.count)
def Restore.slot (x : Restore) (n : Nat) : Int := (n : Int) - x.src + x.dst

/-- Material of a slot record whose tag verifies. -/
def Restore.open (x : Restore) (m : Bytes) : Option Bytes :=
  let y := Sum.of m
  gcmDec x.ak y.epk (m.take 0x80) y.wrapped y.sig

/-- A slot record passes (R354). -/
def Restore.ok (s : State) (x : Restore) (r : Bytes) : Bool :=
  let m := recPayload r
  let y := Sum.of m
  let t := x.slot y.slot
  y.structureOk m.length && y.signer = 4 && y.wrap = 3 && slice m 8 48 == x.sid && (x.open m).isSome &&
    (!x.covers y.slot || (0 ≤ t && t < 65536 && slotFits s x.target t.toNat y.alg))

/-- A restore under way: the parts of a wide key so far, and the check of R303 that ended it. -/
structure Applied where
  s : State
  parts : Option WideParts := none
  failed : Option Nat := none

/-- A message applies under R303 and R305: a narrow key at once, a wide key with its last part. A message whose part is out of
order (check 1) or whose material fails check 8 ends the command, and what is applied stays (R355). -/
def Restore.apply (x : Restore) (a : Applied) (r : Bytes) : Applied :=
  let m := recPayload r
  let y := Sum.of m
  if a.failed.isSome || !x.covers y.slot then a
  else if !y.inOrder a.parts then { a with failed := some 1 }
  else
    let sofar := match a.parts with
      | some p => if y.part = 0 then [] else p.material
      | none => []
    let all := sofar ++ (x.open m).getD []
    if y.part + 1 < y.total then
      { a with parts := some { header := y.fixed, count := y.part + 1, counter := BitVec.ofNat 64 y.counter, material := all } }
    else if !materialOk y.alg all then { a with failed := some 8 }
    else
      let n := (x.slot y.slot).toNat
      let s := setCounter a.s x.target (BitVec.ofNat 64 (Nat.max (gal a.s x.target).counter.toNat y.counter))
      { s := applyKey s n y.alg y.attr y.hash y.keyLen (stored y.alg all) true }

/-- The first `SEQ` that fails, or the slot records to apply (R354). -/
def checkArchive (s : State) (x : Restore) (secret : Bytes) (rs : List Bytes) : Except Nat (List Bytes) :=
  let tr := (rs.find? fun r => recKind r = 3).getD []
  let n := leAt (recPayload tr) 0 4
  let at_ := fun i => rs.find? fun r => recSeq r = i
  match (List.range n).find? fun i => (at_ i).isNone with
  | some i => .error i
  | none =>
    let ordered := (List.range n).filterMap at_
    let hd := nth [] ordered 0
    let mac := hmac 3 (arcMacKey secret (slice hd 8 16)) ((ordered.take (n - 1)).flatMap fun r => r.take 508)
    if slice (recPayload hd) 0x30 16 != s.cus.commit.take 16 then .error 0
    else if n = 0 || recKind hd ≠ 1 || recSeq tr + 1 ≠ n || slice (recPayload tr) 4 48 != mac then .error (recSeq tr)
    else
      let body := (ordered.drop 1).take (n - 2)
      match body.find? fun r => recKind r ≠ 2 || !x.ok s r with
      | some r => .error (recSeq r)
      | none => .ok body

/-- ARCHIVE_RESTORE. -/
def execArchiveRestore (g : Gallery) (q : QIndex) (blocks : List Bytes) (s : State) : Out :=
  .next <| runAdmin s g q 0x37 fun s c => noSession s c fun s => roomCmd s c fun s =>
    let port := c.p 0 1
    let target := c.p 1 1
    if 3 < port || (gal s target).state != .active then fails s c .badInput
    else if s.arc.write.any fun w => w.port = port then fails s c .reserveBusy
    else if !drbgReady s 2 then s
    else
      let (ok, secret, s) := useCer s c.gal (c.p 8 4) 5 target
      if !ok then fails s c .notAuthorised
      else if !arcLive s port || (arcAt s port).state != .ready then fails s c .badInput
      else match findHeader 4 blocks with
        | none => completeAdmin s c .badInput 0 0 []
        | some h =>
          let aid := slice h 8 16
          let sid := slice (recPayload h) 0 48
          let x : Restore := { target, src := c.p 2 2, dst := c.p 4 2, count := c.p 6 2, sid, ak := arcKey secret aid sid }
          match readArchive aid (2 * (leAt (recPayload h) 0x44 4 + 2)) 0 blocks [] with
          | none => completeAdmin s c .badInput 0 0 []
          | some rs =>
            match checkArchive s x secret rs with
            | .error i => completeAdmin s c .badInput (i % 65536) 0 []
            | .ok body =>
              let a := body.foldl x.apply { s }
              match a.failed with
              | some k => completeAdmin a.s c .badInput k 0 []
              | none => done a.s c

end Sys2Proof.Machine
end

