-- ==== Sys2Proof/Machine/Identity.lean ====
section
/-!
DEFINITION. Life-cycle moves (R360, R361, R365, R367), inspection consent (R373, R374), measurements (R380), the provenance
statement (R382, R383), the identity chain (R381).
-/
namespace Sys2Proof.Machine

/-! ### Measurements and the statement -/

def reserveFwDigest (s : State) : Bytes := padTo 48 ((s.mld.runAtrium.map (·.atrium.fw.digest)).getD [])

/-- Scalar of the provenance key (R285). -/
def provPriv (s : State) : Bytes := ecScalar ((ladder s "QLV-PROV" (reserveFwDigest s) 64).getD [])
def provPub (s : State) : Bytes := ecPub 2 (provPriv s)

/-- The endorsement of an Atrium pour; its nonce is draw `k` (R383). -/
def endorse (s : State) (k : Nat) : Bytes := dikSign s k (sha384 (ascii "QLV-PROV-END" ++ reserveFwDigest s ++ provPub s))

/-- A program of the statement: half, partition, gallery, digest. -/
def provProgram (e : Half × Nat × Nat × Bytes) : Bytes :=
  le 1 (halfNo e.1) ++ le 1 e.2.1 ++ le 1 e.2.2.1 ++ zeros 5 ++ padTo 48 e.2.2.2

/-- The statement for gallery `g` and a nonce, of the last parting window's measurements; the signature's nonce is draw `k` (R378,
R382, R383). -/
def statement (s : State) (k g : Nat) (nonce : Bytes) : Bytes :=
  let m := lastMeasured s
  let dg := fun b : Option Bytes => padTo 48 (b.getD [])
  let ps := m.programs.filter fun e => g = 0 || e.2.2.1 = g
  let f := s.lcs.fuses
  let flags := b2n (ownerBound s) + 2 * b2n s.lcs.debug + 4 * b2n (bit (mldStatus s) 12) + 8 * b2n (serving s .cope) +
    16 * b2n (serving s .drag)
  let b := le 4 0x4E565250 ++ [1] ++ le 1 s.lcs.state.code ++ le 1 ((f.consumed.filter burned).length) ++ le 1 flags ++ le 1 f.secVer ++
    le 1 (minSecVer s) ++ zeros 2 ++ le 4 m.restarts ++ le 8 m.tick ++ le 1 g ++ le 1 ps.length ++ zeros 6 ++ padTo 32 nonce ++
    partId s ++ m.boot ++ dg m.reserveFw ++ dg m.floorFw.cope ++ dg m.floorFw.drag ++ dg m.mouldAtrium ++ dg m.moulds.cope ++
    dg m.moulds.drag ++
    padTo 48 f.ownerDigest ++ provPub s ++ zeros 15 ++ padTo 96 s.lcs.endorsement ++ ps.flatMap provProgram
  b ++ ecdsa 2 (provPriv s) (sha384 b) (freeBytesAt s k 48)

/-- A write of `b` to a host buffer of `cap` bytes with its length in `RESULT` (OUTPUT_SHORT). -/
def boundedOut (s : State) (c : AdminCmd) (o cap : Nat) (ok : Bool) (b : Bytes) : State :=
  if cap < b.length then completeAdmin s c .outputShort 0 b.length [] else query s c o ok b (le 2 b.length)

/-- PROVENANCE_GET. -/
def execProvenanceGet (g : Gallery) (q : QIndex) (writeOk : Bool) (s : State) : Out :=
  .next <| runAdmin s g q 0x42 fun s c => if !drbgReady s 2 then s else reserveOp s (cmdOwner c) [80] none fun s =>
    boundedOut (bump (drawFrom s 2)) c 0 (c.p 8 2) writeOk (statement s 1 c.gal (c.pb 10 32))

/-! ### The identity chain -/

/-- IDENTITY_INSTALL (R381). The certificates are read as opaque values (entry 12). -/
def execIdentityInstall (g : Gallery) (q : QIndex) (chain : Option Bytes) (s : State) : Out :=
  .next <| runAdmin s g q 0x43 fun s c => withRead s c chain fun b =>
    let b := padTo (c.p 8 2) b
    if s.lcs.chain.isSome && s.lcs.state == .production then fails s c .notAuthorised
    else if b.isEmpty || 8192 < b.length || Config.x509Leaf b ≠ some s.lcs.point || !Config.x509Verifies b Config.identityKey then
      fails s c .badInput
    else done (updLcs s fun l => { l with chain := some b }) c

/-- IDENTITY_GET. -/
def execIdentityGet (g : Gallery) (q : QIndex) (writeOk : Bool) (s : State) : Out :=
  .next <| runAdmin s g q 0x44 fun s c =>
    if 1 < c.p 0 1 then fails s c .badInput
    else match (if c.p 0 1 = 0 then s.lcs.chain else some s.lcs.request) with
      | none => fails s c .badInput
      | some b => boundedOut s c 1 (c.p 9 2) writeOk b

/-! ### Moves and consent -/

/-- A purpose-6 ceremony, or none where no set is installed (R360). -/
def endAuthorised (s : State) (c : AdminCmd) : Bool × State :=
  if setThere s || fused s != .test then
    let (ok, _, s) := useCer s c.gal (c.p 2 4) 6 0
    (ok, s)
  else (c.p 2 4 = 0, s)

/-- LIFECYCLE_MOVE (R360, R361, R365, R367). -/
def execLifecycleMove (g : Gallery) (q : QIndex) (s : State) : Out :=
  .next <| runAdmin s g q 0x40 fun s c =>
    let t := c.p 0 1
    let f := fused s
    if burning s then s
    else if 1 < c.p 1 1 || !((t = 2 && f == .test) || (t = 3 && (f == .test || f == .production))) then fails s c .badInput
    else
      let ms := running s
      let (ok, s) := if t = 2 then (s.lcs.chain.isSome && ms.length = 3 && ms.all (fun m => !m.test), s) else endAuthorised s c
      if !ok then fails s c .notAuthorised
      else if !bothBanks s then fails s c .reserveBusy
      else startBurn s c t 0 []

/-- Structure of an unlock (R373). -/
def unlockOk (b : Bytes) : Bool :=
  b.length = 4851 && leAt b 0 4 = 0x4B4C4E55 && byteAt b 4 = 1 && allZero (slice b 6 2) && allZero (slice b 0x40 64)

/-- INSPECTION_CONSENT (R367, R374). -/
def execInspectionConsent (g : Gallery) (q : QIndex) (unlock : Option Bytes) (s : State) : Out :=
  .next <| runAdmin s g q 0x41 fun s c =>
    let f := s.lcs.fuses
    let d := fun b : Bytes => sha384 (b.take 0x80)
    if burning s then s
    else if fused s != .production || (openToken f).isSome then fails s c .badInput
    else withRead s c unlock fun b =>
      let b := padTo (c.p 8 2) b
      if !unlockOk b then fails s c .badInput
      else if nextToken f = 8 then fails s c .quota
      else if byteAt b 5 ≠ nextToken f then fails s c .badInput
      else if slice b 8 48 != partId s || leAt b 0x38 8 ≠ f.dieId.toNat then fails s c .notAuthorised
      else if !ecVerify 2 Config.vendorEcdsa (d b) (slice b 0x80 96) || !Config.mldsaVerify Config.vendorMldsa [] (d b) (slice b 0xE0 4627) false then
        fails s c .notAuthorised
      else
        let (ok, _, s) := useCer s c.gal (c.p 10 4) 7 0
        if !ok then fails s c .notAuthorised
        else if !bothBanks s then fails s c .reserveBusy
        else startBurn s c 4 (byteAt b 5) []

end Sys2Proof.Machine
end

