-- ==== Sys2Proof/Machine/Ext.lean ====
section
/-!
DEFINITION. Extension programs by admin command: EXT_LOAD, EXT_UNLOAD, EXT_STATUS, EXT_STOP (R400 to R404, R414).
-/
namespace Sys2Proof.Machine

/-- Halves of a bit mask. -/
def maskHalves (n : Nat) : List Half := [Half.cope, .drag].filter fun h => n.testBit (halfNo h)

/-! ### The image (R401) -/

structure ExtImage where
  alg : Nat
  entries : Nat
  version : Nat
  size : Nat
  zero : Nat
  entry : Nat
  deadline : Nat

def extImage (b : Bytes) : ExtImage :=
  { alg := byteAt b 5, entries := leAt b 6 2, version := leAt b 8 4, size := leAt b 0xC 4, zero := leAt b 0x10 4
    entry := leAt b 0x14 4, deadline := leAt b 0x18 4 }

def extSigLen (alg : Nat) : Nat := if alg = 1 then 96 else 4627

/-- Check 1 of R402 on an image of length `n`. -/
def extStructure (b : Bytes) (n : Nat) : Bool :=
  let x := extImage b
  leAt b 0 4 = 0x54584557 && byteAt b 4 = 1 && (x.alg = 1 || x.alg = 2) && hasRange x.entries 1 4096 && hasRange x.deadline 1 1000000 &&
    allZero (slice b 0x1C 36) && 0x9000 ≤ x.entry && x.entry < 0x9000 + x.size && n = 0x40 + x.size + extSigLen x.alg

/-- The signed bytes. -/
def extSigned (b : Bytes) : Bytes := b.take (0x40 + (extImage b).size)

/-- Check 3 of R402 with the authority's key. -/
def extVerifies (b key : Bytes) : Bool :=
  let sig := b.drop (0x40 + (extImage b).size)
  if (extImage b).alg = 1 then ecVerify 2 key (sha384 (extSigned b)) sig
  else Config.mldsaVerify key [] (sha384 (extSigned b)) sig false

/-! ### Placement (R400) -/

/-- Bytes that the loaded partitions of a half hold: base and size. -/
def heldParts (s : State) (h : Half) : List (Nat × Nat) :=
  (programsOf s h).filterMap fun g => (program s h g).map fun p => (p.base, partBytes s h g)

/-- The lowest free base for `n` bytes. -/
def freeBase (s : State) (h : Half) (n : Nat) : Option Nat :=
  let b := partBase s h
  ((List.range ((partEnd s h - b) / 65536)).map fun i => b + 65536 * i).find? fun a =>
    a + n ≤ partEnd s h && (heldParts s h).all fun r => r.1 + r.2 ≤ a || a + n ≤ r.1

/-- The lowest free partition index below `MAX_EXT_PARTITIONS`. -/
def freePart (s : State) (h : Half) : Option Nat :=
  (List.range (limits s).maxExt).find? fun i => !(programsOf s h).any fun g => (program s h g).any fun p => p.part = i

/-- Check 6 of R402 for one half: where the program of gallery `g` goes. -/
def placeOf (s : State) (g : Nat) (b : Bytes) (h : Half) : Option (Nat × Nat) :=
  if partBytes s h g < 0x9000 + (extImage b).size + (extImage b).zero then none
  else match freePart s h, freeBase s h (partBytes s h g) with
    | some i, some a => some (i, a)
    | _, _ => none

/-- The partition is cleared and loaded, and the measurement recorded (R402). -/
def loadProgram (s : State) (g : Nat) (b : Bytes) (h : Half) : State :=
  match placeOf s g b h with
  | none => s
  | some (i, a) =>
    let x := extImage b
    let put := fun m : Memory => (m.clear a (partBytes s h g)).writeN (a + 0x9000) (slice b 0x40 x.size)
    let s : State := { s with mem := { s.mem with floor := s.mem.floor.upd h put } }
    setProgram s h g (some { part := i, base := a, units := (gal s g).parts.get h, version := BitVec.ofNat 32 x.version, digest := sha384 (extSigned b)
                             entries := x.entries, deadline := x.deadline })

/-- EXT_LOAD (R402). -/
def execExtLoad (g : Gallery) (q : QIndex) (image key : Option Bytes) (s : State) : Out :=
  .next <| runAdmin s g q 0x60 fun s c =>
    let hs := maskHalves (c.p 0 1)
    let x := gal s c.gal
    if hs.isEmpty || 3 < c.p 0 1 then fails s c .badInput
    else withRead s c image fun b =>
      let b := padTo (c.p 9 4) b
      let alg := (extImage b).alg
      if !extStructure b (c.p 9 4) then fails s c .badInput
      else if x.authAlg ≠ alg then fails s c .notAuthorised
      else withRead s c key fun k =>
        let k := padTo (if alg = 1 then 97 else 2592) k
        if sha384 k ≠ x.authDigest || !extVerifies b k then fails s c .notAuthorised
        else if hs.any fun h => !serving s h then fails s c .reserveBusy
        else if hs.any fun h => x.parts.get h = 0 || (program s h c.gal).isSome then fails s c .badInput
        else if hs.any fun h => (placeOf s c.gal b h).isNone then fails s c .quota
        else doneWith (hs.foldl (fun s h => loadProgram s c.gal b h) s) c (le 1 (c.p 0 1))

/-- EXT_UNLOAD (R404). -/
def execExtUnload (g : Gallery) (q : QIndex) (s : State) : Out :=
  .next <| runAdmin s g q 0x61 fun s c =>
    let hs := maskHalves (c.p 0 1)
    if hs.isEmpty || 3 < c.p 0 1 || hs.any fun h => (program s h c.gal).isNone then fails s c .badInput
    else done (hs.foldl (fun s h => stopProgram s h c.gal 1 true) s) c

/-- EXT_STOP (R404). A half without a program has nothing to stop. -/
def execExtStop (g : Gallery) (q : QIndex) (s : State) : Out :=
  .next <| runAdmin s g q 0x63 fun s c =>
    if (maskHalves (c.p 1 1)).isEmpty || 3 < c.p 1 1 then fails s c .badInput
    else done ((maskHalves (c.p 1 1)).foldl (fun s h => stopProgram s h (c.p 0 1) 2 true) s) c

/-- The 64 bytes of EXT_STATUS for one half. -/
def extReport (s : State) (g : Nat) (h : Half) : Bytes :=
  let last := s.wld.stopped.get 0 (progKey h g)
  match program s h g with
  | some p =>
    let n := (s.jobs.filter fun j => j.phase == .handoff && j.gal = g && j.half == h).length
    [1] ++ le 1 p.part ++ le 1 last ++ [0] ++ le 4 p.version.toNat ++ le 2 n ++ zeros 6 ++ padTo 48 p.digest
  | none => [if last = 0 then 0 else 2, 0] ++ le 1 last ++ zeros 61

/-- EXT_STATUS. -/
def execExtStatus (g : Gallery) (q : QIndex) (writeOk : Bool) (s : State) : Out :=
  .next <| runAdmin s g q 0x62 fun s c => query s c 0 writeOk (extReport s c.gal .cope ++ extReport s c.gal .drag) []

end Sys2Proof.Machine
end

