-- ==== Sys2Proof/Machine/Span.lean ====
section
/-!
DEFINITION. Span links: bring-up, flits that arrive, topology and routes (R523 to R532, R535 to R538, R551).
-/
namespace Sys2Proof.Machine

/-! ### Bringing a link up (R528, R529) -/

def refuseLink (s : State) (l reason : Nat) : State :=
  updLink s l fun x => { x.drop .refused with reason := BitVec.ofNat 4 reason }

/-- The enabled topology entry of a link. -/
def topoOf (s : State) (l : Nat) : Option Topo := (s.spn.topo.get none l).filter (·.enabled)

/-- HELLO1 of this unit on link `l` with the ephemeral value `e`. -/
def hello1Of (s : State) (l e : Nat) : Bytes :=
  be 2 s.chn.addr.toNat ++ be 2 s.chn.epoch.toNat ++ be 1 l ++ partId s ++ dikPub s ++ ecPub 2 (ephOf e)

/-- The hello of a trained link begins (R529). -/
def startHello (s : State) (l : Nat) : State :=
  let e := s.freeCtr
  let m := hello1Of s l e
  let s := updLink (bump (drawFrom s 2)) l fun x => { x.drop .hello with eph := e, helloTx := m }
  if s.chn.valid then sendHello s l m else s

/-- The link's engine works: its half serves or is past step 1 of its pour (R523, entry 34). -/
def linkPowered (s : State) (l : Nat) : Bool :=
  let h := (link s l).half
  serving s h || s.atr.half.get h == .pouring

/-- A step of a link's bring-up with its Reserve operations in the link's half, one link at a time (R532). -/
def linkOp (s : State) (l step : Nat) (ticks : List Nat) (f : State → State) : State :=
  let owner : Bytes := [5] ++ le 1 l ++ le 1 step ++ le 8 (link s l).eph
  if (resWorks s).any fun w => w.owner.head? = some 5 && w.owner != owner then s
  else reserveOp s owner ticks (some (link s l).half) f

/-- LINK_TRAINED (R528, R529, R532): a link without an enabled entry is held in REFUSED; a link that went back to HELLO goes on from
here. -/
def execLinkTrained (l : BitVec 7) (s : State) : Out :=
  .next <|
    let st := (link s l.toNat).state
    let waits := st == .down || st == .training || (st == .hello && (link s l.toNat).helloTx.isEmpty)
    if !waits || !linkPowered s l.toNat || s.atr.restarting then s
    else if (topoOf s l.toNat).isNone then refuseLink s l.toNat 1
    else if drbgReady s 2 then linkOp s l.toNat 0 [78] fun s => startHello s l.toNat
    else s

/-- A rebuilt hello message leaves the Span buffer. -/
def takeHello (s : State) (m : Bytes) : State :=
  updSpn s fun x => { x with inbox := x.inbox.eraseP fun b => msgClass b = 9 && msgBody b = m }

/-- Fields of a HELLO1. -/
def helloUnit (m : Bytes) : Nat := beAt m 0 2
def helloEpoch (m : Bytes) : Nat := beAt m 2 2
def helloId (m : Bytes) : Bytes := slice m 5 48
def helloPoint (m : Bytes) : Bytes := slice m 53 97
def helloEph (m : Bytes) : Bytes := slice m 150 97

/-- The first of checks 2 to 4 that a HELLO1 fails. -/
def helloCheck (t : Topo) (m : Bytes) : Option Nat :=
  if helloUnit m ≠ t.unit then some 2
  else if byteAt m 4 ≠ t.link then some 3
  else if helloId m ≠ t.id || helloId m ≠ sha384 (helloPoint m) then some 4
  else none

/-- HELLO1 (R529, R538): checks 2 to 4, then HELLO2 of this unit. A unit without a valid address exchanges no HELLO2; it
refuses the hello by check 6 or 7. -/
def execHello1 (l : BitVec 7) (msg : Bytes) (s : State) : Out :=
  .next <| if (link s l.toNat).state == .hello && (link s l.toNat).helloTx.isEmpty then s else
    (if (link s l.toNat).state == .hello then linkOp s l.toNat 1 [80] else fun f => f s) fun s =>
    let l := l.toNat
    let s := takeHello s msg
    match topoOf s l with
    | none => s
    | some t =>
      if (link s l).state != .hello || s.atr.restarting || !drbgReady s 2 then s
      else match helloCheck t msg with
        | some r => refuseLink s l r
        | none =>
          if !s.chn.valid then refuseLink s l (if helloEpoch msg ≠ s.chn.epoch.toNat then 6 else 7)
          else
            let sig := dikSign s 0 (sha384 (ascii "QLV-SPAN-HELLO" ++ (link s l).helloTx ++ msg))
            sendHello (updLink (bump (drawFrom s 2)) l fun x => { x with helloRx := msg }) l sig

/-- Keys and salts of a link (R530): the side whose identity is lower sends under the first of each. -/
def keyLink (s : State) (l : Nat) : State :=
  let x := link s l
  let low := fromBe (partId s) < fromBe (helloId x.helloRx)
  let both := if low then x.helloTx ++ x.helloRx else x.helloRx ++ x.helloTx
  let k := ladderKdf (ecdh 2 (ephOf x.eph) (helloEph x.helloRx)) "QLV-SPAN-LINK" (sha384 both) 72
  let key := fun first : Bool => if first then slice k 0 32 else slice k 32 32
  let salt := fun first : Bool => if first then slice k 64 4 else slice k 68 4
  updLink s l fun y =>
    { y.drop .up with peer := BitVec.ofNat 10 (helloUnit x.helloRx), keyTx := key low, keyRx := key (!low), saltTx := salt low
                      saltRx := salt (!low), sinceAck := tick s, fragTx := 0 }

/-- HELLO2 (R529): checks 5 to 7, then the link is UP. -/
def execHello2 (l : BitVec 7) (sig : Bytes) (s : State) : Out :=
  .next <| (if (link s l.toNat).state == .hello then linkOp s l.toNat 2 [140, 75] else fun f => f s) fun s =>
    let l := l.toNat
    let s := takeHello s sig
    let x := link s l
    if x.state != .hello || x.helloRx.isEmpty || s.atr.restarting then s
    else if !ecVerify 2 (helloPoint x.helloRx) (sha384 (ascii "QLV-SPAN-HELLO" ++ x.helloRx ++ x.helloTx)) (padTo 96 sig) then
      refuseLink s l 5
    else if helloEpoch x.helloRx ≠ s.chn.epoch.toNat then refuseLink s l 6
    else if !s.chn.valid then refuseLink s l 7
    else keyLink s l

/-- KEY_RATCHET (R531). -/
def execKeyRatchet (l : BitVec 7) (outbound : Bool) (s : State) : Out :=
  .next <|
    if !linkUp s l.toNat then s
    else updLink s l.toNat fun x => if outbound then x.ratchetOut else x.ratchetIn

/-! ### Messages that arrive (R524, R535 to R538) -/

/-- Line `PERIPH` of the core that serves the Span engine of half `h` (R447). -/
def periphSpan (s : State) (h : Half) : State := setIp s [match h with | .cope => 1 | .drag => 5] 2

/-- A message that finds no free buffer (R537). -/
def dropFull (s : State) : State := updSpn s fun x => { x with dropBuffer := satInc31 x.dropBuffer }

/-- A rebuilt message: dropped for its epoch or its class, forwarded, or kept for this unit. -/
def arrive (s : State) (l : Nat) (m : Bytes) : State :=
  if byteAt m 1 ≠ 1 || msgLen m ≠ m.length || m.length < 16 then s
  else if msgEpoch m ≠ s.chn.epoch.toNat then updSpn s fun x => { x with dropEpoch := satInc31 x.dropEpoch }
  else if !s.chn.valid || !hasRange (msgClass m) 1 8 then s
  else if spanBuffersFull s then dropFull s
  else if msgDst m ≠ s.chn.addr.toNat then
    if 2 < msgHops m + 1 then s else sendNow s (setNth m 10 (BitVec.ofNat 8 (msgHops m + 1)))
  else periphSpan (updSpn s fun x => { x with inbox := x.inbox ++ [m] }) (link s l).half

/-- A data flit that passed its CRC (R526, R527, R531). -/
def takeData (s : State) (l : Nat) (b : Bytes) : State :=
  if leAt b 0 2 % 1024 ≠ (link s l).seqRx then sendAck s l true
  else
    let x := (link s l).ratchetIn
    match gcmDec x.keyRx (x.saltRx ++ be 8 x.countRx) (slice b 0 8) (slice b 8 208) (slice b 0xD8 16) with
    | none => retrain s l
    | some p =>
      let s := updLink s l fun _ => { x with seqRx := (x.seqRx + 1) % 1024, countRx := x.countRx + 1 }
      match takeFragment s l p with
      | (s, some m) => sendAck (arrive s l m) l false
      | (s, none) => sendAck s l false

/-- FLIT_RECEIVED (R523 to R527, R535 to R537). -/
def execFlitReceived (l : BitVec 7) (flit : Bytes) (crcOk : Bool) (s : State) : Out :=
  .next <|
    let l := l.toNat
    let b := padTo 232 flit
    let ty := leAt b 0 2 / 1024 % 4
    match (link s l).state with
    | .up =>
      if !crcOk then if ty = 1 then sendAck s l true else s
      else
        let a := leAt b 2 2
        let s := takeAck s l (a % 1024) (nbit a 15)
        if linkUp s l && ty = 1 then takeData s l b else s
    | .hello =>
      if !crcOk || ty ≠ 2 then s
      else match takeFragment s l (slice b 8 208) with
        | (s, some m) => if spanBuffersFull s then dropFull s else if msgClass m ≠ 9 then s else updSpn s fun x => { x with inbox := x.inbox ++ [m] }
        | (s, none) => s
    | _ => s

/-- REPLAY_TIMEOUT (R526, R527). -/
def execReplayTimeout (l : BitVec 7) (s : State) : Out :=
  .next <|
    let x := link s l.toNat
    if x.state == .up && !x.replay.isEmpty && x.sinceAck + 1 ≤ tick s then resendAll s l.toNat else s

/-! ### Topology, routes, link reset (R528, R536, R551) -/

def bonded (s : State) (l : Nat) : Bool := l < 128 && (link s l).state != .notBonded

/-- No two rows have the same first field. -/
def distinctKeys : List Nat → Bool
  | [] => true
  | a :: t => !t.contains a && distinctKeys t

def topoRow (e : Bytes) : Nat × Topo :=
  (byteAt e 0, { enabled := nbit (byteAt e 1) 0, unit := leAt e 2 2, link := byteAt e 4, id := slice e 0x10 48 })

def topoRowOk (s : State) (e : Bytes) : Bool :=
  bonded s (byteAt e 0) && byteAt e 1 ≤ 1 && leAt e 2 2 < 1024 && allZero (slice e 5 11)

/-- A link whose entry changed goes back to HELLO, where it waits for its Reserve operation (R532), or is REFUSED without an enabled
entry. -/
def helloAgain (s : State) (l : Nat) : State :=
  match (link s l).state with
  | .hello | .up | .refused => if (topoOf s l).isNone then refuseLink s l 1 else updLink s l fun x => x.drop .hello
  | _ => s

/-- SPAN_SET_TOPOLOGY. -/
def execSpanSetTopology (g : Gallery) (q : QIndex) (table : Option Bytes) (s : State) : Out :=
  .next <| runAdmin s g q 0x50 fun s c =>
    let n := c.p 8 1
    if 128 < n then fails s c .badInput
    else withRead s c table fun b =>
      let es := tabulate n fun i => slice b (64 * i) 64
      if !es.all (topoRowOk s) || !distinctKeys (es.map fun e => byteAt e 0) then fails s c .badInput
      else
        let old := s.spn.topo
        let new := es.foldl (fun (t : Tab (Option Topo)) e => t.put none (topoRow e).1 (some (topoRow e).2)) []
        let s := updSpn s fun x => { x with topo := new, topoLoaded := true }
        let changed := (s.spn.links.map (·.1)).filter fun l => old.get none l != new.get none l
        done (changed.foldl helloAgain s) c

def routeRowOk (s : State) (e : Bytes) : Bool :=
  leAt e 0 2 < 1024 && bonded s (byteAt e 2) && (byteAt e 3 = 0xFF || bonded s (byteAt e 3)) && hasRange (byteAt e 4) 1 3 &&
    allZero (slice e 5 3)

/-- SPAN_SET_ROUTES. -/
def execSpanSetRoutes (g : Gallery) (q : QIndex) (table : Option Bytes) (s : State) : Out :=
  .next <| runAdmin s g q 0x51 fun s c =>
    let n := c.p 8 2
    if 1024 < n then fails s c .badInput
    else withRead s c table fun b =>
      let es := tabulate n fun i => slice b (8 * i) 8
      if !es.all (routeRowOk s) || !distinctKeys (es.map fun e => leAt e 0 2) then fails s c .badInput
      else
        let row := fun e : Bytes => some (⟨byteAt e 2, byteAt e 3, byteAt e 4⟩ : Route)
        let new := es.foldl (fun (t : Tab (Option Route)) e => t.put none (leAt e 0 2) (row e)) []
        done (updSpn s fun x => { x with routes := new, routesLoaded := true }) c

/-- SPAN_LINK_RESET (R527). A link that a loop-back test has is busy. -/
def execSpanLinkReset (g : Gallery) (q : QIndex) (s : State) : Out :=
  .next <| runAdmin s g q 0x56 fun s c =>
    let l := c.p 0 1
    if !bonded s l then fails s c .badInput
    else if (link s l).state == .loop then fails s c .reserveBusy
    else ifLive (retrain s l) c fun s => done s c

/-! ### The chain (R533, R534, R538, R553, R597) -/

/-- R534 with the count of the roll call. -/
def rollDone (s : State) (count : Nat) : State :=
  let t := tick s
  let s := { s with chn := { s.chn with count := BitVec.ofNat 11 (Nat.min 2047 count) } }
  updSpn s fun x =>
    { x with
      topo := [], topoLoaded := false, routes := [], routesLoaded := false, outbox := [], inbox := [], replicas := []
      links := x.links.mapAll {} fun _ l => match l.state with
        | .hello | .up | .refused => { l.drop .refused with reason := 1 }
        | _ => l
      pairs := x.pairs.mapAll {} fun _ p =>
        if p.state == .none then p else { p with state := .pending, inFlight := [], lastHello := t } }

/-- A frame leaves on the chain: its type by pass number and its payload. -/
def sendFrame (s : State) (ty a b : Nat) : State :=
  { s with out := { s.out with chain := s.out.chain ++ [le 1 ty ++ le 2 a ++ le 2 b ++ zeros 4] } }

def chainOn (s : State) : Bool := (s.mld.runAtrium.any fun m => m.atrium.chainEn) && !looped s 4 0

/-- A frame with a good CRC arrives. -/
def goodFrame (s : State) : State := periphPort { s with chn := { s.chn with lastFrame := some 0 } }

def frameError (s : State) : State := { s with chn := { s.chn with frameErr := satInc31 s.chn.frameErr } }

/-- A roll-call frame: the head takes a frame of its own in the pass that runs and discards every other (R597). -/
def rollFrame (s : State) (fromSelf : Bool) (pass : Nat) (head : State → Nat → State) (unit : State → State) : State :=
  if !chainOn s then s
  else
    let s := goodFrame s
    if !s.chn.head then unit s
    else if !fromSelf then frameError s
    else match s.chn.roll with
      | some (p, d, q) => if p = pass && tick s < d then head s q else s
      | none => s

/-- Pass `n` of the roll call of queue `q` starts. -/
def startPass (s : State) (n q : Nat) : State := { s with chn := { s.chn with roll := some (n, tick s + 100000, q) } }

def setAddr (s : State) (epoch : BitVec 16) (addr : Nat) : State :=
  { s with chn := { s.chn with
      epoch, addr := if addr < 1024 then BitVec.ofNat 16 addr else 0, valid := addr < 1024 } }

/-- ROLL_QUERY. -/
def execRollQuery (epoch : BitVec 16) (fromSelf : Bool) (s : State) : Out :=
  .next <| rollFrame s fromSelf 1
    (fun s q =>
      let e := epoch + 1
      sendFrame (startPass (setAddr s e 0) 2 q) 2 e.toNat 1)
    (fun s => sendFrame s 1 (Nat.max epoch.toNat s.chn.epoch.toNat) 0)

/-- ROLL_ASSIGN. -/
def execRollAssign (epoch addr : BitVec 16) (fromSelf : Bool) (s : State) : Out :=
  .next <| rollFrame s fromSelf 2
    (fun s q => sendFrame (startPass s 3 q) 3 epoch.toNat addr.toNat)
    (fun s => sendFrame (setAddr s epoch addr.toNat) 2 epoch.toNat (addr + 1).toNat)

/-- The running SPAN_ROLL_CALL of queue `q`. -/
def rollCmd (s : State) (q : Nat) : Option AdminCmd := s.adm.find? fun c => c.key = q && c.phase == .running && c.op = 0x52

/-- ROLL_DONE. -/
def execRollDone (epoch count : BitVec 16) (fromSelf : Bool) (s : State) : Out :=
  .next <| rollFrame s fromSelf 3
    (fun s q =>
      let s := rollDone { s with chn := { s.chn with roll := none } } count.toNat
      match rollCmd s q with
      | some c => if 1024 < count.toNat then fails s c .quota else doneWith s c (le 2 count.toNat ++ le 2 epoch.toNat)
      | none => s)
    (fun s => sendFrame (rollDone s count.toNat) 3 epoch.toNat count.toNat)

/-- ROLL_PASS_TIMEOUT (R533). -/
def execRollPassTimeout (s : State) : Out :=
  .next <| match s.chn.roll with
  | none => s
  | some (_, d, q) =>
    if tick s < d then s
    else
      let s := { s with chn := { s.chn with roll := none, rollFail := true } }
      match rollCmd s q with
      | some c => fails s c .faultUnresolved
      | none => s

/-- SPAN_ROLL_CALL (R533); the chain under a loop-back test or another roll call is busy. -/
def execSpanRollCall (g : Gallery) (q : QIndex) (s : State) : Out :=
  .next <| runAdmin s g q 0x52 fun s c =>
    if !s.chn.head || !s.mld.runAtrium.any (fun m => m.atrium.chainEn) then fails s c .badInput
    else if looped s 4 0 || s.chn.roll.isSome then fails s c .reserveBusy
    else sendFrame (startPass (keepRunning s c) 1 c.key) 1 s.chn.epoch.toNat 0

/-- CHAIN_FRAME_DISCARD (R553). -/
def execChainFrameDiscard (s : State) : Out := .next (if chainOn s then frameError s else s)

end Sys2Proof.Machine
end

