-- ==== Sys2Proof/Machine/Pairs.lean ====
section
/-!
DEFINITION. Pairs of galleries: handshake, heartbeat, replication, paired execution, provenance of a peer, echoes (R539 to
R551).
-/
namespace Sys2Proof.Machine

/-! ### Messages for this unit -/

/-- A message of class `cls` whose destination is this unit: a wrong epoch is dropped and counted (R535), another message
leaves the Span buffer and is acted on by `f`. -/
def onMsg (s : State) (cls : Nat) (m : Bytes) (f : State → State) : State :=
  if msgClass m ≠ cls || !s.chn.valid || !anyServing s then s
  else
    let s := updSpn s fun x => { x with inbox := x.inbox.erase m }
    if msgEpoch m ≠ s.chn.epoch.toNat then updSpn s fun x => { x with dropEpoch := satInc31 x.dropEpoch }
    else if msgDst m ≠ s.chn.addr.toNat then s
    else f s

/-- A message that Reserve firmware answers waits while the Reserve pair restarts (R18). -/
def onReserveMsg (s : State) (cls : Nat) (m : Bytes) (f : State → State) : State :=
  if s.atr.restarting then s else onMsg s cls m f

/-! ### Requests and replies (R540) -/

/-- A request with the next `TSEQ`. -/
def request (s : State) (r : SpanReq) (srcGal dstGal : Nat) (body : Bytes) : State :=
  let t := s.spn.tseq
  let r := { r with tseq := t, epoch := s.chn.epoch.toNat, tick := tick s }
  sendNow (updSpn s fun x => { x with tseq := (t + 1) % 65536, reqs := x.reqs ++ [r] }) (spanMsg s r.cls r.dst t srcGal dstGal body)

/-- The outstanding request that a reply answers. -/
def spanReqOf (s : State) (cls : Nat) (m : Bytes) : Option SpanReq :=
  s.spn.reqs.find? fun r => r.cls = cls && r.tseq = msgTseq m && r.dst = msgSrc m && r.epoch = msgEpoch m

def dropReq (s : State) (r : SpanReq) : State := updSpn s fun x => { x with reqs := x.reqs.filter (· ≠ r) }

/-- A reply without a request. -/
def lateReply (s : State) : State := updSpn s fun x => { x with dropLate := satInc31 x.dropLate }

/-! ### The handshake and the heartbeat (R541, R542) -/

/-- PAIR_HELLO of gallery `g` to its partner. -/
def sendPairHello (s : State) (g : Nat) : State :=
  let p := pairAt s g
  let m := spanMsg s 7 p.unit.toNat 0 g p.partner.toNat (dikPub s ++ transportKeys s 1)
  sendNow (updPair (bump (drawFrom s 2)) g fun p => { p with lastHello := tick s }) m

/-- The first two checks of R541 on a PAIR_HELLO's body. -/
def pairHelloOk (p : Pair) (b : Bytes) : Bool :=
  let point := b.take 97
  let blk := b.drop 97
  b.length = 1906 && sha384 point == p.identity && slice blk 0 48 == p.identity &&
    ecVerify 2 point (sha384 (blk.take 1713)) (slice blk 1713 96)

/-- PAIR_HELLO. The hello that makes the pair ACTIVE, and any later one, is answered by one of this unit, at most once in
1,000 ticks. -/
def execPairHello (msg : Bytes) (s : State) : Out :=
  .next <| onReserveMsg s 7 msg fun s =>
    let g := msgDstGal msg
    let b := msgBody msg
    if !fromPartner s g msg || !pairHelloOk (pairAt s g) b then s
    else
      let due := (pairAt s g).lastHello + 1000 ≤ tick s
      let s := heard s g msg
      let s := updPair s g fun p =>
        { p with point := b.take 97, transport := slice b 145 97, lastBeat := if p.state == .pending then tick s else p.lastBeat
                 state := if p.state == .pending then .active else p.state }
      if due && drbgReady s 2 then sendPairHello s g else s

/-- PAIR_HELLO_TIMER. -/
def execPairHelloTimer (g : Gallery) (s : State) : Out :=
  .next <|
    let p := pairAt s g.toNat
    if p.state == .pending && p.lastHello + 1000 ≤ tick s && anyServing s && !s.atr.restarting && drbgReady s 2 then sendPairHello s g.toNat else s

/-- HEARTBEAT_TIMER. -/
def execHeartbeatTimer (g : Gallery) (s : State) : Out :=
  .next <|
    let g := g.toNat
    let p := pairAt s g
    if p.state == .active && p.lastBeat + 1000 ≤ tick s && anyServing s then
      sendNow (updPair s g fun p => { p with lastBeat := tick s }) (spanMsg s 5 p.unit.toNat 0 g p.partner.toNat [])
    else s

/-- SPAN_HEARTBEAT. -/
def execSpanHeartbeat (msg : Bytes) (s : State) : Out := .next <| onMsg s 5 msg fun s => heard s (msgDstGal msg) msg

/-- PAIR_UNREACHABLE_TIMEOUT. -/
def execPairUnreachableTimeout (g : Gallery) (s : State) : Out :=
  .next <|
    let p := pairAt s g.toNat
    if p.state == .active && p.lastMsg + 3000 ≤ tick s then updPair s g.toNat fun p => { p with state := .unreachable } else s

/-! ### Replication (R543 to R545) -/

/-- The body of a replica of slot `n` from its record `r`; draw 1 gives the ephemeral value, draw 2 the signature's. -/
def replBody (s : State) (g n seq : Nat) (r : Rec) : Bytes :=
  let p := pairAt s g
  let m := if r.alg = 0 then [] else slotMaterial s n
  let eph := ecScalar (freeBytesAt s 1 64)
  let epk := if r.alg = 0 then zeros 97 else ecPub 2 eph
  let wlen := if r.alg = 0 then 0 else (r.keyLen + 7) / 8 * 8 + 8
  let head := le 8 seq ++ le 2 n ++ [if r.alg = 0 then 3 else 1] ++ le 1 r.alg ++ le 4 r.attr.toNat ++
    le 2 (if r.alg = 0 then 0 else r.keyLen) ++ le 1 r.hash ++ [0] ++ le 2 wlen ++ [0, 0] ++ epk
  let b := if r.alg = 0 then head else head ++ kwWrap true (replKek (ecdh 2 eph p.transport) head) (padTo r.keyLen m)
  b ++ dikSign s 2 (replSigned (partId s) p.identity g p.partner.toNat b)

/-- A replica of slot `n` leaves; an earlier one of the slot is no longer awaited. -/
def sendReplica (s : State) (g n : Nat) : State :=
  match recNow s n with
  | none => s
  | some r =>
    let p := pairAt s g
    let seq := p.replSent + 1
    let body := replBody s g n seq r
    let s := updSpn s fun x => { x with reqs := x.reqs.filter fun q => !(q.cls = 1 && q.gal = g && q.job = some n) }
    let s := updPair (bump (drawMany s 2 (if r.alg = 0 then 1 else 2))) g fun p =>
      { p with replSent := seq, inFlight := (p.inFlight.filter (·.1 ≠ n)) ++ [(n, seq, tick s)] }
    request s { tseq := 0, epoch := 0, dst := p.unit.toNat, cls := 1, tick := 0, gal := g, job := some n } g p.partner.toNat body

/-- REPLICA_SEND: the first slot of the list that is not in flight and whose record reads. -/
def execReplicaSend (g : Gallery) (s : State) : Out :=
  .next <|
    let g := g.toNat
    let p := pairAt s g
    if p.state != .active || s.atr.restarting || !anyServing s || !drbgReady s 2 then s
    else match p.pending.find? fun n => !(p.inFlight.any (·.1 = n)) && (recNow s n).isSome with
      | some n => sendReplica s g n
      | none => s

/-- REPLICA_RESEND_TIMEOUT. -/
def execReplicaResendTimeout (g : Gallery) (slot : BitVec 16) (s : State) : Out :=
  .next <|
    let p := pairAt s g.toNat
    let due := p.inFlight.any fun e => e.1 = slot.toNat && e.2.2 + 10000 ≤ tick s
    if p.state == .active && due && !s.atr.restarting && anyServing s && drbgReady s 2 then sendReplica s g.toNat slot.toNat else s

/-- REPLICA_ACK (R540, R543): whatever its result, the slot leaves the list. -/
def execReplicaAck (msg : Bytes) (s : State) : Out :=
  .next <| onMsg s 2 msg fun s =>
    match spanReqOf s 1 msg with
    | none => lateReply s
    | some r =>
      let seq := leAt (msgBody msg) 0 8
      let s := heard (dropReq s r) r.gal msg
      updPair s r.gal fun p => match p.inFlight.find? (·.2.1 = seq) with
        | some e => { p with pending := p.pending.erase e.1, inFlight := p.inFlight.filter (· ≠ e) }
        | none => p

/-- REPLICA (R545): it is checked and takes effect in the next changes step, as R304 applies a message. -/
def execReplica (msg : Bytes) (s : State) : Out :=
  .next <| onReserveMsg s 1 msg fun s =>
    updSpn (heard s (msgDstGal msg) msg) fun x => { x with replicas := x.replicas ++ [msg] }

/-! ### Paired execution (R546 to R549) -/

/-- A paired job without the partner's result: its own outcome is released, or `PAIR_LOST` (R549). -/
def losePair (s : State) (j : Job) (p : Pair) (t : Nat) : State :=
  let s := updSpn s fun x => { x with reqs := x.reqs.filter fun r => !(r.cls = 3 && r.job = some j.id) }
  if p.policy.getLsbD 2 then
    match j.phase == .pair, j.computed with
    | true, some r => endWith s j r t
    | _, _ => updJob s j.id fun j => { j with paired := false }
  else failJob (updSpn s fun x => { x with pairLost := satInc31 x.pairLost }) j .pairLost 0 t

/-- PAIR_EXEC_SEND (R547, R549). -/
def execPairExecSend (id : Nat) (s : State) : Out :=
  .next <| match job s id with
  | none => s
  | some j =>
    let p := pairAt s j.gal
    if !j.paired || j.sent.isSome || tick s < j.confirmTick + 1 then s
    else if p.state != .active || !s.chn.valid || (routeTo s p.unit.toNat).isNone then losePair s j p (tick s + 1)
    else
      let e := j.step.entry
      let e := e.take 0x18 ++ zeros 8 ++ (if j.req.inHost then zeros 8 else slice e 0x20 8) ++ slice e 0x28 24
      let s := updJob s id fun j => { j with sent := some (tick s) }
      request s { tseq := 0, epoch := 0, dst := p.unit.toNat, cls := 3, tick := 0, gal := j.gal, job := some id } j.gal p.partner.toNat
        (le 8 j.confirmTick ++ e ++ padTo j.req.inLen j.step.input)

/-- The half that runs a partner's job: a serving one in which the gallery holds units. -/
def partnerHalf (s : State) (g : Nat) : Half :=
  if serving s .cope && (0 < (gv s g).eff.cope || !serving s .drag || (gv s g).eff.drag = 0) then .cope else .drag

/-- PAIR_EXEC (R548): an entry of an internal queue of the partner gallery, fetched in this tick, or in the next one when
the parting window has run. -/
def execPairExec (msg : Bytes) (s : State) : Out :=
  .next <| onMsg s 3 msg fun s =>
    let g := msgDstGal msg
    let s := heard s g msg
    if !fromPartner s g msg || (pairAt s g).state != .active || (gal s g).state != .active then s
    else
      let b := msgBody msg
      let e := slice b 8 64
      let r := Req.of e []
      let t := if s.gen.windowDone then tick s + 1 else tick s
      let j : Job :=
        { id := s.nextJob, origin := .partner, gal := g, half := partnerHalf s g, fetch := t, waitFrom := t, phase := .redo
          steps := [{ entry := e, input := if r.inHost then slice b 72 r.inLen else [] }] }
      let s := { s with nextJob := s.nextJob + 1, jobs := s.jobs ++ [j] }
      let s := updSpn s fun x => { x with partners := x.partners ++ [⟨j.id, msgSrc msg, msgTseq msg, leAt b 0 8, msgSrcGal msg⟩] }
      if s.gen.windowDone then s else admitJob s j.id j.half

/-- PAIR_RESULT (R540, R549): the digest is compared in the parting window. -/
def execPairResult (msg : Bytes) (s : State) : Out :=
  .next <| onMsg s 4 msg fun s =>
    match spanReqOf s 3 msg with
    | none => lateReply s
    | some r =>
      match r.job.bind (job s) with
      | none => lateReply (dropReq s r)
      | some j =>
        if j.confirmTick ≠ leAt (msgBody msg) 0 8 then lateReply s
        else updJob (heard (dropReq s r) r.gal msg) j.id fun j => { j with digest := slice (msgBody msg) 8 48 }

/-- PAIR_EXEC_TIMEOUT (R549). -/
def execPairExecTimeout (id : Nat) (s : State) : Out :=
  .next <| match job s id with
  | none => s
  | some j =>
    let p := pairAt s j.gal
    if j.paired && j.digest.isEmpty && j.sent.any (· + p.timeout ≤ tick s) then losePair s j p (tick s + 1) else s

/-! ### Provenance and echoes (R539, R550) -/

/-- Whether a PROV_REQUEST is answered: it is for this unit, of its epoch, and its source is gallery 0 or the partner. -/
def provAnswered (s : State) (msg : Bytes) : Bool :=
  msgClass msg = 6 && s.chn.valid && anyServing s && msgEpoch msg = s.chn.epoch.toNat && msgDst msg = s.chn.addr.toNat &&
    (msgSrcGal msg = 0 || fromPartner s (msgDstGal msg) msg)

/-- PROV_REQUEST: answered with a signature of one Reserve operation (R550); another one is dropped at once. -/
def execProvRequest (msg : Bytes) (s : State) : Out :=
  .next <| if provAnswered s msg && !drbgReady s 2 then s else reserveOp s ([1] ++ msg) (if provAnswered s msg then [80] else []) none fun s => onReserveMsg s 6 msg fun s =>
    let g := msgDstGal msg
    let s := heard s g msg
    let reply := fun g => sendNow (bump (drawFrom s 2))
      (spanMsg s 6 (msgSrc msg) (msgTseq msg) g (msgSrcGal msg) (statement s 1 g (padTo 32 (msgBody msg))))
    if fromPartner s g msg then reply g else if msgSrcGal msg = 0 then reply 0 else s

/-- The running admin command `op` of a queue. -/
def runningCmd (s : State) (k op : Nat) : Option AdminCmd := s.adm.find? fun c => c.key = k && c.phase == .running && c.op = op

/-- PROV_REPLY (R540, R551). -/
def execProvReply (msg : Bytes) (s : State) : Out :=
  .next <| onMsg s 6 msg fun s =>
    match spanReqOf s 6 msg with
    | none => lateReply s
    | some r =>
      let s := heard (dropReq s r) r.gal msg
      match r.sq.bind fun k => runningCmd s k 0x57 with
      | some c => boundedOut s c 34 (c.p 42 2) true (msgBody msg)
      | none => s

/-- SPAN_PEER_PROVENANCE (R550, R551). -/
def execSpanPeerProvenance (g : Gallery) (q : QIndex) (s : State) : Out :=
  .next <| runAdmin s g q 0x57 fun s c =>
    let u := c.p 0 2
    let p := pairAt s c.gal
    if 1023 < u then fails s c .badInput
    else if c.gal ≠ 0 && (p.state == .none || p.unit.toNat ≠ u) then fails s c .notAuthorised
    else
      let s := updAdm s c fun x => { x with phase := .running, mark := tick s }
      request s { tseq := 0, epoch := 0, dst := u, cls := 6, tick := 0, gal := c.gal, sq := some c.key } c.gal
        (if c.gal = 0 then 0 else p.partner.toNat) (c.pb 2 32)

/-- PEER_PROVENANCE_TIMEOUT (R551). -/
def execPeerProvenanceTimeout (g : Gallery) (q : QIndex) (s : State) : Out :=
  .next <| match runningCmd s (qkey g.toNat q.toNat) 0x57 with
  | some c =>
    if tick s < c.mark + 100000 then s
    else fails (updSpn s fun x => { x with reqs := x.reqs.filter fun r => !(r.cls = 6 && r.sq = some c.key) }) c .pairLost
  | none => s

/-- `n` bytes of a PRBS31 sequence (x^31 + x^28 + 1) from all ones. -/
def prbsByte : Nat → Nat → Nat → Nat × Nat
  | 0, st, b => (st, b)
  | k + 1, st, b =>
    let x := (st / 2 ^ 30 + st / 2 ^ 27) % 2
    prbsByte k ((2 * st + x) % 2 ^ 31) (2 * b + x)

def prbsGo : Nat → Nat → Bytes
  | 0, _ => []
  | n + 1, st => let (st, b) := prbsByte 8 st 0; BitVec.ofNat 8 b :: prbsGo n st

def prbs31 (n : Nat) : Bytes := prbsGo n (2 ^ 31 - 1)

/-- One message of a SPAN_ECHO leaves. -/
def echoSend (s : State) (c : AdminCmd) : State :=
  let s := updSpn s fun x => { x with echo := (x.echo.1 + 1, x.echo.2) }
  request s { tseq := 0, epoch := 0, dst := c.p 0 2, cls := 8, tick := 0, sq := some c.key } 0 0 (prbs31 (c.p 2 2))

/-- ECHO_MESSAGE: the answer to a SPAN_ECHO, or a message to be returned with `SRC` and `DST` exchanged. The next message of
the run leaves when the last one has returned. -/
def execEchoMessage (msg : Bytes) (s : State) : Out :=
  .next <| onMsg s 8 msg fun s =>
    match spanReqOf s 8 msg with
    | some r =>
      let s := dropReq s r
      match r.sq.bind fun k => runningCmd s k 0x58 with
      | none => s
      | some c =>
        let same := msgBody msg == prbs31 (c.p 2 2)
        let s := updSpn s fun x =>
          let (sent, back, differ) := x.echo
          { x with echo := if same then (sent, back + 1, differ) else (sent, back, some (differ.getD (sent - 1))) }
        if s.spn.echo.1 < c.p 4 4 then echoSend s c else echoDone s c
    | none =>
      let m := setNth (slice msg 0 4 ++ slice msg 6 2 ++ slice msg 4 2 ++ msg.drop 8) 10 0
      sendNow s m

/-- SPAN_ECHO; one runs at a time. -/
def execSpanEcho (g : Gallery) (q : QIndex) (s : State) : Out :=
  .next <| runAdmin s g q 0x58 fun s c =>
    if 1023 < c.p 0 2 || 8176 < c.p 2 2 then fails s c .badInput
    else if s.adm.any fun x => x.phase == .running && x.op = 0x58 then s
    else
      let s := updSpn s fun x => { x with echo := (0, 0, none) }
      let s := updAdm s c fun x => { x with phase := .running, mark := tick s }
      if c.p 4 4 = 0 then echoDone s c else echoSend s c

/-! ### Pairs by command (R541, R545, R551) -/

/-- The paired jobs of gallery `g` end as on a timeout. -/
def endPairs (s : State) (g : Nat) : State :=
  let p := pairAt s g
  (s.jobs.filter fun j => j.gal = g && j.paired).foldl (fun s j => losePair s j p (tick s + 1)) s

/-- SPAN_PAIR_SET (R90, R541). -/
def execSpanPairSet (g : Gallery) (q : QIndex) (identity : Option Bytes) (s : State) : Out :=
  .next <| runAdmin s g q 0x53 fun s c =>
    let n := c.p 0 1
    if (gal s n).state != .active || 1023 < c.p 2 2 || 7 < c.p 4 1 || c.p 6 2 < 16 then fails s c .badInput
    else if !(gal s n).pairing || !(limits s).pairOk then fails s c .notAuthorised
    else withRead s c identity fun b =>
      let s := endPairs s n
      let p : Pair :=
        { state := .pending, policy := BitVec.ofNat 3 (c.p 4 1), unit := BitVec.ofNat 10 (c.p 2 2), partner := BitVec.ofNat 8 (c.p 1 1)
          timeout := c.p 6 2, identity := padTo 48 b, lastHello := tick s }
      done (setPair s n p) c

/-- SPAN_PAIR_CLEAR. -/
def execSpanPairClear (g : Gallery) (q : QIndex) (s : State) : Out :=
  .next <| runAdmin s g q 0x54 fun s c =>
    let n := c.p 0 1
    if (gal s n).state == .free then fails s c .badInput else done (setPair (endPairs s n) n {}) c

/-- Slots that SPAN_PAIR_RESYNC queues: every slot with PAIRED_REPLICATE, and every EMPTY slot, whose record carries no
attribute (R545). -/
def replicaSlots (s : State) (g : Nat) : List Nat :=
  (slotsOf s g).filter fun n => !(mapEnt s n).member &&
    ((dirEnt s n).state == .empty || (recNow s n).any fun r => r.alg ≠ 0 && replicated r.attr)

/-- SPAN_PAIR_RESYNC (R543, R545). -/
def execSpanPairResync (g : Gallery) (q : QIndex) (s : State) : Out :=
  .next <| runAdmin s g q 0x55 fun s c =>
    let n := c.p 0 1
    let p := pairAt s n
    if (gal s n).state == .free then fails s c .badInput
    else if p.state == .none || !p.policy.getLsbD 0 then done s c
    else
      let l := replicaSlots s n
      if 1024 < l.length then done (setPair s n { p with state := .resync, pending := [], inFlight := [] }) c
      else
        let st := if p.state == .resync then if p.point.isEmpty then .pending else .active else p.state
        done (setPair s n { p with state := st, pending := l, inFlight := [], lastMsg := if st == p.state then p.lastMsg else tick s }) c

end Sys2Proof.Machine
end

