-- ==== Sys2Proof/Machine/PatRows.lean ====
section
/-!
DEFINITION. The rows of the lane Patterns: the computation of a job's current step, held until LANE_EXECUTE takes it
(R147). What each Pattern computes stands in PatPay, PatData and PatPk.
-/
namespace Sys2Proof.Machine

/-- ECHO. -/
def execEcho (id : Nat) (s : State) : Out := .next (computePat s id 0x0F00 (patFn 0x0F00))
/-- NULL. -/
def execNull (id : Nat) (s : State) : Out := .next (computePat s id 0x0F01 (patFn 0x0F01))
/-- TICK_STAMP. -/
def execTickStamp (id : Nat) (s : State) : Out := .next (computePat s id 0x0F02 (patFn 0x0F02))
/-- PIN_XLATE. -/
def execPinXlate (id : Nat) (s : State) : Out := .next (computePat s id 0x0100 (patFn 0x0100))
/-- PIN_XLATE_AES. -/
def execPinXlateAes (id : Nat) (s : State) : Out := .next (computePat s id 0x0101 (patFn 0x0101))
/-- PIN_VERIFY_OFFSET. -/
def execPinVerifyOffset (id : Nat) (s : State) : Out := .next (computePat s id 0x0110 (patFn 0x0110))
/-- PIN_OFFSET_CALC. -/
def execPinOffsetCalc (id : Nat) (s : State) : Out := .next (computePat s id 0x0111 (patFn 0x0111))
/-- PIN_GENERATE. -/
def execPinGenerate (id : Nat) (s : State) : Out := .next (computePat s id 0x0112 (patFn 0x0112))
/-- MAC_ALG1. -/
def execMacAlg1 (id : Nat) (s : State) : Out := .next (computePat s id 0x0200 (patFn 0x0200))
/-- MAC_ALG3. -/
def execMacAlg3 (id : Nat) (s : State) : Out := .next (computePat s id 0x0201 (patFn 0x0201))
/-- MAC_CMAC. -/
def execMacCmac (id : Nat) (s : State) : Out := .next (computePat s id 0x0202 (patFn 0x0202))
/-- MAC_ALG1_LONG. -/
def execMacAlg1Long (id : Nat) (s : State) : Out := .next (computePat s id 0x0208 (patFn 0x0208))
/-- MAC_ALG3_LONG. -/
def execMacAlg3Long (id : Nat) (s : State) : Out := .next (computePat s id 0x0209 (patFn 0x0209))
/-- MAC_CMAC_LONG. -/
def execMacCmacLong (id : Nat) (s : State) : Out := .next (computePat s id 0x020A (patFn 0x020A))
/-- CARD_VALUE. -/
def execCardValue (id : Nat) (s : State) : Out := .next (computePat s id 0x0220 (patFn 0x0220))
/-- CARD_VALUE_DYN. -/
def execCardValueDyn (id : Nat) (s : State) : Out := .next (computePat s id 0x0228 (patFn 0x0228))
/-- ARQC_VERIFY. -/
def execArqcVerify (id : Nat) (s : State) : Out := .next (computePat s id 0x0300 (patFn 0x0300))
/-- SCRIPT_MAC. -/
def execScriptMac (id : Nat) (s : State) : Out := .next (computePat s id 0x0310 (patFn 0x0310))
/-- SCRIPT_ENC. -/
def execScriptEnc (id : Nat) (s : State) : Out := .next (computePat s id 0x0311 (patFn 0x0311))
/-- SCRIPT_PIN. -/
def execScriptPin (id : Nat) (s : State) : Out := .next (computePat s id 0x0312 (patFn 0x0312))
/-- DUKPT_AES_PIN_XLATE. -/
def execDukptAesPinXlate (id : Nat) (s : State) : Out := .next (computePat s id 0x0400 (patFn 0x0400))
/-- DUKPT_AES_MAC. -/
def execDukptAesMac (id : Nat) (s : State) : Out := .next (computePat s id 0x0401 (patFn 0x0401))
/-- DUKPT_AES_DATA. -/
def execDukptAesData (id : Nat) (s : State) : Out := .next (computePat s id 0x0402 (patFn 0x0402))
/-- DUKPT_TDES_PIN_XLATE. -/
def execDukptTdesPinXlate (id : Nat) (s : State) : Out := .next (computePat s id 0x0408 (patFn 0x0408))
/-- DUKPT_TDES_MAC. -/
def execDukptTdesMac (id : Nat) (s : State) : Out := .next (computePat s id 0x0409 (patFn 0x0409))
/-- KB_EXPORT. -/
def execKbExport (id : Nat) (s : State) : Out := .next (computePat s id 0x0500 (patFn 0x0500))
/-- KB_GENERATE. -/
def execKbGenerate (id : Nat) (s : State) : Out := .next (computePat s id 0x0501 (patFn 0x0501))
/-- KB_INSPECT. -/
def execKbInspect (id : Nat) (s : State) : Out := .next (computePat s id 0x0502 (patFn 0x0502))
/-- KW_EXPORT. -/
def execKwExport (id : Nat) (s : State) : Out := .next (computePat s id 0x0520 (patFn 0x0520))
/-- KW_IMPORT. -/
def execKwImport (id : Nat) (s : State) : Out := .next (computePat s id 0x0521 (patFn 0x0521))
/-- AES_CBC. -/
def execAesCbc (id : Nat) (s : State) : Out := .next (computePat s id 0x0600 (patFn 0x0600))
/-- AES_CBC_LONG. -/
def execAesCbcLong (id : Nat) (s : State) : Out := .next (computePat s id 0x0608 (patFn 0x0608))
/-- AES_CTR. -/
def execAesCtr (id : Nat) (s : State) : Out := .next (computePat s id 0x0601 (patFn 0x0601))
/-- AES_CTR_LONG. -/
def execAesCtrLong (id : Nat) (s : State) : Out := .next (computePat s id 0x0609 (patFn 0x0609))
/-- AES_XTS. -/
def execAesXts (id : Nat) (s : State) : Out := .next (computePat s id 0x0602 (patFn 0x0602))
/-- AES_XTS_LONG. -/
def execAesXtsLong (id : Nat) (s : State) : Out := .next (computePat s id 0x060A (patFn 0x060A))
/-- AES_GCM. -/
def execAesGcm (id : Nat) (s : State) : Out := .next (computePat s id 0x0603 (patFn 0x0603))
/-- AES_GCM_LONG. -/
def execAesGcmLong (id : Nat) (s : State) : Out := .next (computePat s id 0x060B (patFn 0x060B))
/-- AES_CCM. -/
def execAesCcm (id : Nat) (s : State) : Out := .next (computePat s id 0x0604 (patFn 0x0604))
/-- AES_CCM_LONG. -/
def execAesCcmLong (id : Nat) (s : State) : Out := .next (computePat s id 0x060C (patFn 0x060C))
/-- TDES_ECB. -/
def execTdesEcb (id : Nat) (s : State) : Out := .next (computePat s id 0x0610 (patFn 0x0610))
/-- TDES_ECB_LONG. -/
def execTdesEcbLong (id : Nat) (s : State) : Out := .next (computePat s id 0x0618 (patFn 0x0618))
/-- TDES_CBC. -/
def execTdesCbc (id : Nat) (s : State) : Out := .next (computePat s id 0x0611 (patFn 0x0611))
/-- TDES_CBC_LONG. -/
def execTdesCbcLong (id : Nat) (s : State) : Out := .next (computePat s id 0x0619 (patFn 0x0619))
/-- FF1. -/
def execFf1 (id : Nat) (s : State) : Out := .next (computePat s id 0x0700 (patFn 0x0700))
/-- FF1_LONG. -/
def execFf1Long (id : Nat) (s : State) : Out := .next (computePat s id 0x0708 (patFn 0x0708))
/-- HASH. -/
def execHash (id : Nat) (s : State) : Out := .next (computePat s id 0x0800 (patFn 0x0800))
/-- HASH_LONG. -/
def execHashLong (id : Nat) (s : State) : Out := .next (computePat s id 0x0808 (patFn 0x0808))
/-- HMAC. -/
def execHmac (id : Nat) (s : State) : Out := .next (computePat s id 0x0801 (patFn 0x0801))
/-- HMAC_LONG. -/
def execHmacLong (id : Nat) (s : State) : Out := .next (computePat s id 0x0809 (patFn 0x0809))
/-- KDF_108. -/
def execKdf108 (id : Nat) (s : State) : Out := .next (computePat s id 0x0810 (patFn 0x0810))
/-- KDF_X963. -/
def execKdfX963 (id : Nat) (s : State) : Out := .next (computePat s id 0x0811 (patFn 0x0811))
/-- LANE_CHECK: the lane's enabled function units run the known-answer sequence. -/
def execLaneCheck (id : Nat) (unitsOk : Byte) (s : State) : Out := .next (computePat s id 0x0F03 (patLaneCheck unitsOk))

end Sys2Proof.Machine
end

