-- ==== Sys2Proof/Machine/Ports.lean ====
section
/-!
DEFINITION. Host ports: usable and lost ports, function-level reset, IDE streams, DOE discovery (R82, R141, R554 to R566,
R569).
-/
namespace Sys2Proof.Machine

/-! ### The link (R554, R557, R563, R598) -/

/-- The port of half `p` may train: while its half serves or is past step 1 of its pour (entry 34), or as the recovery port. -/
def mayUp (s : State) (p : Half) : Bool :=
  let x := s.hst.port.get p
  let powered := serving s p || s.atr.half.get p == .pouring
  !x.perstLow && x.trainFrom ≤ tick s && !x.loop && if s.pwr.phase == .recovery then p == recoveryPort s else x.mayTrain && powered

/-- PORT_USABLE (R563, R564): in END OF LIFE at 2.5 GT/s on one lane (R372). Its queues return in the next parting
window. -/
def execPortUsable (port : Half) (rate : BitVec 3) (width : BitVec 5) (flit : Bool) (s : State) : Out :=
  .next <|
    if !mayUp s port || rate = 0 || rate = 7 || !([1, 2, 4, 8, 16].contains width.toNat) then s
    else
      let slow := s.lcs.state == .endOfLife
      let up := (s.hst.port.get port).linkUp
      let s := updPort s port fun p =>
        { p with linkUp := true, rate := if slow then 1 else rate, width := if slow then 1 else width
                 flit := !slow && (flit || rate = 6) }
      if up then s else assertPort s port

/-- A stream leaves Secure: a port loss when the port requires it and its half serves (R565). -/
def ideLeaves (s : State) (h : Half) (i : Nat) : State :=
  let p := s.hst.port.get h
  if !p.ideSecure.getLsbD i then s
  else
    let t := updPort s h fun p => { p with ideSecure := setBit p.ideSecure i false, ideKeys := setNth p.ideKeys i [] }
    if p.ideReq.getLsbD i && serving s h && p.linkUp then portLost s t h else t

/-- PORT_LOSS (R565, R566). -/
def execPortLoss (port : Half) (ideStream : Option (Fin 5)) (s : State) : Out :=
  .next <| match ideStream with
  | some i => ideLeaves s port i.val
  | none =>
    if !(s.hst.port.get port).linkUp then s else portDown s port

/-- IDE_CHECK_FAIL (R569): a stream is checked while it is Secure. -/
def execIdeCheckFail (port : Half) (stream : Fin 5) (s : State) : Out :=
  .next <|
    if !(s.hst.port.get port).ideSecure.getLsbD stream.val then s
    else ideLeaves (updPort s port fun p => { p with ideFail := satInc31 p.ideFail }) port stream.val

/-- The DVSEC header and the `HST_` registers of a port's configuration space (R570; the places of the header's fields are
PRESUMED from PCIe, entry 32). -/
def hstWord (s : State) (p : Half) (off : Nat) : Word :=
  let x := s.hst.port.get p
  match off with
  | 0x400 => 0x00010023
  | 0x404 => 0x02001F37
  | 0x408 => 0x00000001
  | 0x40C =>
    word [(halfNo p, 0), (b2n (serving s p), 5), (b2n x.linkUp, 6), (b2n x.flit, 7), (x.rate.toNat, 8), (x.width.toNat, 11),
      (b2n x.loop, 16), (x.ideSecure.toNat, 17)]
  | 0x410 => word [(s.hst.vecPf.toNat, 0), (s.hst.vecVf.toNat, 16)]
  | 0x414 => x.ideReq.setWidth 32
  | 0x418 => countReg (s.hst.loss.get p)
  | 0x41C => countReg x.ideFail
  | _ => 0

/-! ### Function-level reset (R141, R561, R562) -/

/-- The function exists on the port. -/
def fnThere (s : State) (p : Half) (fn : Nat) : Bool :=
  (s.hst.port.get p).linkUp && if s.pwr.phase == .recovery then fn = 0 && p == recoveryPort s else fnEnabled s p fn

/-- Configuration state of the physical function beside its command and MSI-X registers: SR-IOV, `HST_IDE_REQ`, and the DOE
sessions (R562; PRESUMED from PCIe for the last two). -/
def resetPf (s : State) (p : Half) : State :=
  updPort (setVfs s p false 0) p fun x => { x with ideReq := 0, spdm := 0, transcript := [], sessions := [] }

/-- FUNCTION_LEVEL_RESET. -/
def execFunctionLevelReset (port : Half) (fn : Gallery) (s : State) : Out :=
  .next <|
    let n := fn.toNat
    if !fnThere s port n then s
    else
      let s := killPortQueues s n port
      let s := updFn s port n fun _ => { flrEnd := some (tick s + 1000) }
      if n = 0 then resetPf s port else s

/-- FLR_COMPLETE. -/
def execFlrComplete (port : Half) (fn : Gallery) (s : State) : Out :=
  .next <| if (fnCfg s port fn.toNat).flrEnd.isSome then updFn s port fn.toNat fun f => { f with flrEnd := none } else s

/-! ### DOE (R554) -/

/-- The DOE mailbox of a port's physical function answers; the recovery port has none (R557). -/
def doeOpen (s : State) (p : Half) : Bool :=
  (s.hst.port.get p).linkUp && s.pwr.phase != .recovery && (fnCfg s p 0).flrEnd.isNone

def answerDoe (s : State) (b : Bytes) : State := { s with out := { s.out with doe := b } }

/-- DOE_DISCOVERY: vendor 0x0001, object types 0 to 2 (discovery, CMA/SPDM, secured CMA/SPDM), the next index; 0xFFFF past
the end (PRESUMED from PCIe). -/
def execDoeDiscovery (port : Half) (index : Byte) (s : State) : Out :=
  .next <|
    let i := index.toNat
    if !doeOpen s port then s
    else if i ≤ 2 then answerDoe s (le 2 1 ++ le 1 i ++ le 1 ((i + 1) % 3))
    else answerDoe s (le 2 0xFFFF ++ [0, 0])

end Sys2Proof.Machine
end

