-- ==== Sys2Proof/Machine/Pour.lean ====
section
/-!
DEFINITION. The Atrium pour (R65 to R69, R72), a half that enters SERVING, the end of a Reserve restart (R398, R73), the
Mould commands (R65 to R78) and the recovery read (R68, R80).
-/
namespace Sys2Proof.Machine

/-! ### The Atrium -/

/-- Policies of FAULT_TABLE; syndromes and counts stay. -/
def loadFaults (s : State) (rows : List FaultRow) : State :=
  (List.range 64).foldl (fun s n =>
    let r := nth {} rows n
    updSrc s n fun x =>
      { x with cls := BitVec.ofNat 2 r.cls, countN := BitVec.ofNat 8 r.count, window := BitVec.ofNat 24 r.window, history := [] }) s

/-- Settings of TAMPER_TABLE (R491). -/
def loadTamper (s : State) (rows : List TamperRow) : State :=
  let s := rows.foldl (fun s r => updMon s r.monitor fun x =>
    { x with response := BitVec.ofNat 2 r.response, countN := BitVec.ofNat 8 r.count, window := BitVec.ofNat 24 r.window
             history := [] }) s
  updTmp s fun t => { t with defaults := false }

/-- Ports that the Atrium PORT_ENABLE disables and enables. -/
def loadPorts (s : State) (a : AtriumCfg) : State :=
  let s := (List.range 16).foldl (fun s n =>
    let p := card s n
    if !a.cusEn.getLsbD n then setCard s n { state := .disabled, present := p.present }
    else if p.state == .disabled then (if p.present then activate s n false else setCard s n {}) else s) s
  (List.range 4).foldl (fun s n =>
    if !a.arcEn.getLsbD n then setArcPort s n { state := .disabled }
    else if (arcAt s n).state == .disabled then setArcPort s n {} else s) s

/-- Steps 3 and 4 of an Atrium pour with the Mould in slot `b`, which is the active slot from the pour's beginning (R65); a
fallback makes the other slot active (entry 75). -/
def applyAtrium (s : State) (b : Bool) (m : Mould) (fallback : Bool) : State :=
  let a := m.atrium
  let s := updMld s fun x =>
    { x with runAtrium := some m, runSlotAtrium := some b, activeAtrium := some b, noMould := false
             fallbackAtrium := x.fallbackAtrium || fallback }
  let s := { bump (updWld s fun w => { w with busKey := s.freeCtr }) with
    mem := { s.mem with reserve := Memory.writeN [] a.fw.load.toNat a.fw.image } }
  let s := loadRegions s [0, 1] a.regions
  let s := startCore s 0 a.fw.entry
  let s := updWld s fun w => { w with heartbeat := tick s }
  let s := loadPorts (loadTamper (loadFaults s a.faults) a.tamper) a
  let e := endorse s 1
  bump (updLcs s fun l => { l with endorsement := e })

/-- The slot that an Atrium pour takes: `b`, else the other one (R66). -/
def atriumImage (s : State) (b : Bool) : Option (Bool × Bytes × Bool) :=
  match goodImage s .atrium b with
  | some (i, _) => some (b, i, false)
  | none => (goodImage s .atrium !b).map fun (i, _) => (!b, i, true)

/-- The map, the counters and the custodian set come from the counter areas, each block checked in both banks first (R290, R331).
An inspection session takes the map and the counters as they are stored (R281, entry 83); the set cannot be read in it. -/
def loadArea (s : State) : State :=
  let check := fun s h => (List.range 34).foldl (fun s b => checkBlock s h b) s
  let s := check (check s .cope) .drag
  match [Half.cope, Half.drag].find? fun h => (s.srm.bank.get h).available with
  | none => s
  | some h =>
    let a := (s.srm.bank.get h).area
    let set := if roomPaused s || !blockGood s h 33 then none else a.set
    let s := updSrm s fun r => { r with map := a.map }
    let s := updCus s fun u => match set with
      | some c => { u with installed := true, n := c.n, m := c.m, point := c.point, commit := c.commit, testRoot := rootSel s == 2 }
      | none => { u with installed := false, n := 0, m := 0, point := [], commit := [], testRoot := false }
    { s with gals := s.gals.mapAll {} fun g x => { x with counter := a.counters.get 0 g } }

/-- The directory from the map and a check of every record (R291); assigned slots with a record whose copies are both bad are
reported (R295), but for an inspection session (R281). -/
def rebuildDir (s : State) : State :=
  let s := loadArea s
  if s.pwr.phase != .step5 then s
  else
    let s := refreshDir (updSrm s fun r => { r with dir := [], dirReady := true }) (assignedSlots s)
    let bad := (assignedSlots s).filter fun n => (dirEnt s n).state == .bad && !(mapEnt s n).member
    if roomPaused s then s else bad.foldl (fun s _ => report s 7 1 0 0 0 true) s

/-- Steps 4 and 5 of a start: both halves pour beside the Atrium's last steps and the directory rebuild (R583). A bank that is
current comes first (R297); without it the part goes on from what the other bank holds (R298). -/
def pourAll (s : State) : State :=
  let alone := fun s h => if (s.pwr.feed.get h).valid && !(s.pwr.feed.get (other h)).valid then setBehind (takeRest s h) h false else s
  let s := alone (alone s .cope) .drag
  let s := noteErrors s .atrium ((s.mld.activeAtrium).getD false)
  match atriumImage s ((s.mld.activeAtrium).getD false) with
  | none => updPwr (updMld s fun m => { m with noMould := true }) fun p => { p with phase := .recovery }
  | some (b, img, fb) =>
    let s := applyAtrium (updPwr s fun p => { p with phase := .step5 }) b (mouldOf img) fb
    let one := fun h s => if (s.pwr.feed.get h).valid then beginPour s h (activeSlot s h) none else s
    let s := if (s.srm.bank.get .cope).behind && (s.pwr.feed.get .drag).valid then bankReturn s .drag else s
    rebuildDir (one .drag (one .cope s))

/-! ### SERVING -/

/-- HALF_ENTER_SERVING (R24, R86, R473, R475, R583 step 5). -/
def execHalfEnterServing (h : Half) (s : State) : Out :=
  .next <| match s.mld.pour.get h with
  | none => s
  | some p =>
    if s.atr.half.get h != .pouring || p.paused || s.atr.restarting || !drbgReady s (laneDrbg h) || !s.gen.windowDone || !s.srm.dirReady then s
    else
      let first := !anyServing s && startUnserved s
      let s := endPourCmd s p.cmd .done
      let s := updMld s fun m => { m with pour := m.pour.set h none }
      let s := updFlt s fun f =>
        { f with
          endHalf := f.endHalf.set h (some (tick s + 1000000)), pins := setBit f.pins (halfSrc h 19) false
          failedStarts := if first then 0 else f.failedStarts
          endAtrium := if first then f.restartEnd.filter (tick s < ·) else f.endAtrium
          countAtrium := if first then (f.restartEnd.filter (tick s < ·)).isSome else f.countAtrium
          restartEnd := if first then none else f.restartEnd }
      let s := lockRegions s (((halfCfg s h).map (·.regions)).getD [])
      endDecision (placeGrants (setHalf s h .serving))

/-! ### The end of a Reserve restart -/

def unpause (s : State) : State :=
  updMld s fun m => { m with pour := m.pour.map fun p => p.map fun x => { x with paused := false } }

/-- The Atrium counts faults for 1,000,000 ticks after a restart (R473). -/
def countAfterRestart (s : State) : State :=
  let t := tick s + 1000000
  if startUnserved s then updFlt s fun f => { f with restartEnd := some t }
  else updFlt s fun f => { f with countAtrium := true, endAtrium := some t }

/-- The MOULD_POUR_ATRIUM that waits completes (R69). -/
def endAtriumPour (s : State) (st : Status) : State :=
  match s.mld.atriumPour with
  | none => s
  | some k =>
    let s := updMld s fun m => { m with atriumPour := none, atriumNext := none }
    match s.adm.find? fun c => c.key = k && c.phase == .running && c.op = 0x82 with
    | some c => fails s c st
    | none => s

/-- `RESERVE_FW` read again from the Atrium's active slot, bank A first: its SHA-384 is the directory digest of the running
Mould (R73). -/
def measured (s : State) : Bool :=
  match s.mld.runAtrium, s.mld.runSlotAtrium with
  | some m, some b =>
    let one := fun h => if (s.pwr.feed.get h).valid then imageIn s h b else none
    match (one .cope).orElse fun _ => one .drag with
    | some i => sha384 (sectBytes i 10 0) == m.atrium.fw.digest
    | none => false
  | _, _ => false

/-- The pair starts again with the firmware that it ran. -/
def restartPair (s : State) : State :=
  let fw := ((s.mld.runAtrium.map (·.atrium.fw)).getD {})
  startCore { s with mem := { s.mem with reserve := Memory.writeN [] fw.load.toNat fw.image } } 0 fw.entry

/-- The pair runs again (R18, R25, R70, R398, R473). -/
def pairRuns (s : State) : State :=
  let s := { s with atr := { s.atr with restarting := false } }
  let s := updLcs s fun l =>
    { l with restarts := BitVec.ofNat 32 (sat32 l.restarts.toNat)
             restartsLife := if l.state == .production then BitVec.ofNat 32 (sat32 l.restartsLife.toNat) else l.restartsLife }
  let s := updWld s fun w => { w with heartbeat := tick s }
  let s := updSrm s fun r => { r with lines := r.lines.filter fun e => 24 ≤ e.1 && (nth none s.cus.cer (e.1 - 24)).isSome }
  atrEvent (unpause (countAfterRestart s)) 0b10000

/-- The commanded Atrium pour into slot `b` (R66, R69). When both slots fail the Atrium stays in RESET: the pair does not run
and no Mould of the Atrium does. -/
def pourAtrium (s : State) (b : Bool) : State :=
  let s := noteErrors s .atrium b
  match atriumImage s b with
  | some (b, img, fb) => pairRuns (endAtriumPour (applyAtrium s b (mouldOf img) fb) .done)
  | none => bump (updMld (endAtriumPour s (freeStatus s)) fun m => { m with runAtrium := none, runSlotAtrium := none })

/-- RESERVE_RESUMED (R73, R398 steps 4 and 5). A commanded Atrium pour applies its settings at a parting window (R69).
`measuredOk`: MRAM delivers the image as it was stored. -/
def execReserveResumed (measuredOk : Bool) (s : State) : Out :=
  .next <|
    if !s.atr.restarting || s.pwr.phase != .step5 || s.mld.runAtrium.isNone then s
    else match s.mld.atriumNext with
      | some b => if s.gen.windowDone then pourAtrium s b else s
      | none => if measuredOk && measured s then pairRuns (restartPair s) else reportOnly s 15 2 2 0

/-! ### Mould commands -/

/-- A Mould command: `RESERVE_BUSY` while a staging or a pour is in progress (R78). -/
def mouldCmd (s : State) (g : Gallery) (q : QIndex) (op : Nat) (f : State → AdminCmd → State) : State :=
  runAdmin s g q op fun s c => if pourBusy s then fails s c .reserveBusy else f s c

/-- An image in every available bank; the copy of an unavailable one is not valid any more. -/
def putImages (s : State) (b : Bool) (i : Option Bytes) : State :=
  let one := fun h s => putImage s h b (if bankUp s h then i else none)
  one .drag (one .cope s)

/-- The slot that no domain runs, A first. -/
def freeSlot (s : State) : Option Bool :=
  if !slotRuns s false then some false else if !slotRuns s true then some true else none

/-- MOULD_STAGE (R57, R65). -/
def execMouldStage (g : Gallery) (q : QIndex) (mould : Option Bytes) (s : State) : Out :=
  .next <| mouldCmd s g q 0x80 fun s c =>
    match freeSlot s with
    | none => fails s c .reserveBusy
    | some b => withRead s c mould fun d =>
      let d := padTo (Nat.min (c.p 8 4) 2621441) d
      match mouldError s d with
      | some (sect, r) => fails (setErr s sect r) c (mouldStatus r)
      | none => done (putImages s b (some d)) c

/-- The slot that a pour command names: 0 the staged one, 1 the one that the domain does not run. -/
def pourSlot (s : State) (n : Nat) (runs : Option Bool) : Option Bool :=
  match n with
  | 0 => stagedSlot s
  | 1 => some !(runs.getD false)
  | _ => none

/-- The Mould of a slot as a domain reads it. -/
def slotMould (s : State) (d : PourDomain) (b : Bool) : Option Mould := (goodImage s d b).map fun e => mouldOf e.1

/-- Granted units of a half (R71); a closing gallery keeps its share until R94's step 6. -/
def grantedUnits (s : State) (h : Half) : Nat := sumNat ((galleries s).map fun g => (gal s g).units.get h)

/-- Cupola shares granted (R267). -/
def grantedCupola (s : State) : Nat := sumNat ((galleries s).map fun g => (gal s g).cupola)

/-- Mould `m` leaves the grants above what half `h` then holds (R71, R267). -/
def overGranted (s : State) (h : Half) (m : Mould) : Bool :=
  let active := fun (l : List Role) => (l.filter (· == .active)).length
  128 * active (m.halves.get h).laneRole < grantedUnits s h + 16 || 16 * active (m.halves.get h).cupolaRole < grantedCupola s + 16

/-- MOULD_POUR_HALF (R65, R70, R71, R74, R267). -/
def execMouldPourHalf (g : Gallery) (q : QIndex) (s : State) : Out :=
  .next <| mouldCmd s g q 0x81 fun s c =>
    let h := halfOf (c.p 0 1)
    match pourSlot s (c.p 1 1) (s.mld.runSlotHalf.get h) with
    | none => fails s c .badInput
    | some b =>
      let m := slotMould s (.half h) b
      if 1 < c.p 0 1 || (sq s c.key).port == h || !serving s (other h) then fails s c .badInput
      else if m.any fun m => !compatOk m [s.mld.runAtrium, s.mld.runHalf.get (other h)] then fails (setErr s 0xFF 0x0A) c .notAuthorised
      else if m.any (overGranted s h) then fails (setErr s 0xFF 0x0B) c .quota
      else if !(s.pwr.feed.get h).valid then bump (fails s c (freeStatus s))
      else halfResetBy (cutShort (keepRunning s c) h) h b c

/-- Every monitor at its floor with `COUNT` 1: no table governs (R491). -/
def toFloors (s : State) : State :=
  updTmp s fun t =>
    { t with
      defaults := true
      mon := monitorNos.foldl (fun l m =>
        let f := resetMonitors.get {} m
        l.upd {} m fun x => { x with response := f.response, countN := f.countN, window := f.window, history := [] }) t.mon }

/-- MOULD_POUR_ATRIUM (R69, R74, R76): a Reserve restart into the new image; the monitors run at their floors until its
step 4 (R491). -/
def execMouldPourAtrium (g : Gallery) (q : QIndex) (s : State) : Out :=
  .next <| mouldCmd s g q 0x82 fun s c =>
    match pourSlot s (c.p 0 1) s.mld.runSlotAtrium with
    | none => fails s c .badInput
    | some b =>
      let m := slotMould s .atrium b
      let gs := (s.gals.filter fun e => e.2.state != .free).length
      if m.any fun m => !compatOk m [s.mld.runHalf.cope, s.mld.runHalf.drag] then fails (setErr s 0xFF 0x0A) c .notAuthorised
      else if m.any fun m => m.atrium.limits.maxGalleries < gs || m.atrium.limits.maxSq < sqCount s || m.atrium.limits.maxCq < cqCount s then
        fails (setErr s 0xFF 0x0C) c .quota
      else
        let s := updMld (keepRunning s c) fun x => { x with atriumPour := some c.key, atriumNext := some b, activeAtrium := some b }
        reserveRestart (toFloors s) 5

/-- MOULD_COMMIT (R79, R367). -/
def execMouldCommit (g : Gallery) (q : QIndex) (s : State) : Out :=
  .next <| mouldCmd s g q 0x83 fun s c =>
    if burning s then s
    else match running s with
    | [a, b, d] =>
      if !(a.digest == b.digest && b.digest == d.digest) then fails s c .notAuthorised
      else if !bothBanks s then fails s c .reserveBusy
      else startBurn s c 6 a.secVer []
    | _ => fails s c .notAuthorised

/-- MOULD_QUERY. -/
def execMouldQuery (g : Gallery) (q : QIndex) (writeOk : Bool) (s : State) : Out :=
  .next <| mouldCmd s g q 0x84 fun s c =>
    let head := fun b => padTo 128 ((slotImage s b).getD [])
    query s c 0 writeOk (head false ++ head true) []

/-- MOULD_BIND_OWNER (R79, R339, R367). -/
def execMouldBindOwner (g : Gallery) (q : QIndex) (owner : Option Bytes) (s : State) : Out :=
  .next <| mouldCmd s g q 0x85 fun s c =>
    if burning s then s
    else
      let (ok, _, s) := useCer s c.gal (c.p 8 4) 8 0
      if !ok || ownerBound s then fails s c .notAuthorised
      else if !bothBanks s then fails s c .reserveBusy
      else withRead s c owner fun b =>
        let alg := leAt b 0 2
        let k := slice b 2 (if alg = 1 then 97 else 2592)
        if alg = 0 || 2 < alg || (alg = 1 && !pointOk 2 k) then fails s c .badInput
        else startBurn s c 7 0 (le 1 alg ++ sha384 k)

/-- MOULD_DISCARD. -/
def execMouldDiscard (g : Gallery) (q : QIndex) (s : State) : Out :=
  .next <| mouldCmd s g q 0x86 fun s c =>
    let s := if slotRuns s false then s else putImages s false none
    let s := if slotRuns s true then s else putImages s true none
    done s c

/-! ### Recovery -/

/-- RECOVERY_READ_DONE (R68): the Mould is staged in slot A and poured, or refused. -/
def execRecoveryReadDone (mould : Option Bytes) (s : State) : Out :=
  .next <|
    if !s.mld.recBusy || s.pwr.phase != .recovery then s
    else
      let s := updMld s fun m => { m with recBusy := false }
      let refuse := fun s : State => updMld s fun m => { m with recFail := true }
      match mould with
      | none => refuse s
      | some d =>
        match mouldError s d with
        | some (sect, r) => refuse (setErr s sect r)
        | none =>
          let one := fun h s => if (s.pwr.feed.get h).valid then putImage s h false (some d) else s
          let s := one .drag (one .cope s)
          let pours := fun h x => if (s.pwr.feed.get h).valid then some false else x
          let s := updMld s fun m => { m with recDone := true, activeAtrium := some false
                                              activeHalf := ⟨pours .cope m.activeHalf.cope, pours .drag m.activeHalf.drag⟩ }
          pourAll s

end Sys2Proof.Machine
end

