-- ==== Sys2Proof/Machine/Spdm.lean ====
section
/-!
DEFINITION. SPDM 1.2 responder of each host port and IDE key management in its sessions (R379, R380, R568, R569). The layouts
of the messages, the signing context and the key schedule are those of DSP0274 and DSP0277, which the spec names without
giving them: PRESUMED (the entry on cited standards).
-/
namespace Sys2Proof.Machine

/-! ### Answers -/

/-- A response in SPDM 1.2: its code, two parameters and the rest. -/
def spdmRsp (code p1 p2 : Nat) (b : Bytes) : Bytes := [0x12] ++ le 1 code ++ le 1 p1 ++ le 1 p2 ++ b

def spdmError (code data : Nat) : Bytes := spdmRsp 0x7F code data []

/-- Error codes: InvalidRequest, InvalidSession, UnexpectedRequest, DecryptError, UnsupportedRequest,
SessionLimitExceeded. -/
def errInvalid : Bytes := spdmError 0x01 0
def errSession : Bytes := spdmError 0x02 0
def errUnexpected : Bytes := spdmError 0x04 0
def errDecrypt : Bytes := spdmError 0x06 0
def errLimit : Bytes := spdmError 0x0A 0

/-- A request of a port that answers DOE; it must follow `need` steps of the negotiation. -/
def onSpdm (s : State) (p : Half) (need : Nat) (f : State → Port → State) : State :=
  let x := s.hst.port.get p
  if !doeOpen s p then s
  else if x.spdm < need then answerDoe s errUnexpected
  else f s x

/-- Step `n` of the negotiation: its request and response join the transcript. -/
def negotiated (s : State) (p : Half) (n : Nat) (req rsp : Bytes) : State :=
  answerDoe (updPort s p fun x => { x with spdm := n, transcript := x.transcript ++ req ++ rsp }) rsp

/-- GET_VERSION (R379): version 1.2; earlier negotiation and sessions end. -/
def execGetVersion (port : Half) (s : State) : Out :=
  .next <| onSpdm s port 0 fun s _ =>
    let s := updPort s port fun x => { x with sessions := [], transcript := [] }
    negotiated s port 1 [0x10, 0x84, 0, 0] [0x10, 0x04, 0, 0, 0, 1, 0x00, 0x12]

/-- Certificates, challenge, measurements with signature, encryption, MAC, key exchange, heartbeat, key update. -/
def spdmFlags : Nat := 0x62D6

/-- GET_CAPABILITIES (R379). -/
def execGetCapabilities (port : Half) (req : Bytes) (s : State) : Out :=
  .next <| onSpdm s port 1 fun s _ =>
    let z := padTo 9 Config.spdmSizes
    negotiated s port 2 ([0x12, 0xE1, 0, 0] ++ req)
      (spdmRsp 0x61 0 0 ([0] ++ slice z 0 1 ++ [0, 0] ++ le 4 spdmFlags ++ slice z 1 8))

/-- NEGOTIATE_ALGORITHMS (R379, R568): ECDSA P-384, SHA-384, DMTF measurements, secp384r1, AES-256-GCM. -/
def execNegotiateAlgorithms (port : Half) (req : Bytes) (s : State) : Out :=
  .next <| onSpdm s port 2 fun s _ =>
    let tables := [2, 0x20] ++ le 2 0x10 ++ [3, 0x20] ++ le 2 0x2 ++ [4, 0x20] ++ le 2 0 ++ [5, 0x20] ++ le 2 1
    negotiated s port 3 ([0x12, 0xE3, 0, 0] ++ req)
      (spdmRsp 0x63 4 0 (le 2 52 ++ [1, 0] ++ le 4 0x2 ++ le 4 0x80 ++ le 4 0x2 ++ zeros 12 ++ [0, 0] ++ zeros 2 ++ tables))

/-- GET_DIGESTS and the certificate chain of slot 0: the identity chain while the ladder runs on the Device Root (R379). -/
def slotChain (s : State) : Option Bytes :=
  if rootSel s ≠ 1 then none
  else s.lcs.chain.map fun c => le 2 (52 + c.length) ++ [0, 0] ++ padTo 48 (Config.x509RootDigest c) ++ c

def chainDigest (s : State) : Bytes := (slotChain s).elim (zeros 48) sha384

def execGetDigests (port : Half) (s : State) : Out :=
  .next <| onSpdm s port 3 fun s _ =>
    answerDoe s (match slotChain s with
      | some c => spdmRsp 0x01 0 1 (sha384 c)
      | none => spdmRsp 0x01 0 0 [])

/-- GET_CERTIFICATE (R379). -/
def execGetCertificate (port : Half) (slot : Byte) (offset length : Nat) (s : State) : Out :=
  .next <| onSpdm s port 3 fun s _ =>
    answerDoe s (match slotChain s with
      | none => errInvalid
      | some c =>
        if slot ≠ 0 || c.length ≤ offset then errInvalid
        else
          let b := (c.drop offset).take (Nat.min length 0xFFFF)
          spdmRsp 0x02 0 0 (le 2 b.length ++ le 2 (c.length - offset - b.length) ++ b))

/-! ### Signatures -/

/-- What an SPDM 1.2 signature covers. -/
def spdmSigned (context : String) (m : Bytes) : Bytes :=
  let p := ascii "dmtf-spdm-v1.2.*"
  let c := ascii context
  p ++ p ++ p ++ p ++ zeros (36 - c.length) ++ c ++ sha384 m

/-- A signature by the Device Identity Key, a Reserve operation (R266, R285); draw 2 gives its nonce. -/
def spdmSign (s : State) (context : String) (m : Bytes) : Bytes := dikSign s 2 (sha384 (spdmSigned context m))

/-- CHALLENGE (R379): no measurement summary. -/
def execChallenge (port : Half) (slot : Byte) (nonce : Bytes) (s : State) : Out :=
  .next <| onSpdm s port 3 fun s x =>
    if slot ≠ 0 then answerDoe s errInvalid
    else if !drbgReady s 2 then s
    else reserveOp s ([2] ++ nonce) [80] none fun s =>
      let req := [0x12, 0x83, 0, 0] ++ padTo 32 nonce
      let rsp := spdmRsp 0x03 0 (b2n (slotChain s).isSome) (chainDigest s ++ freeBytesAt s 1 32 ++ [0, 0])
      answerDoe (bump (drawMany s 2 2)) (rsp ++ spdmSign s "responder-challenge_auth signing" (x.transcript ++ req ++ rsp))

/-! ### Measurements (R380) -/

/-- One measurement: index, DMTF type and value. -/
structure Meas where
  index : Nat
  type : Nat
  value : Bytes

def measProgram (e : Half × Nat × Nat × Bytes) : Meas :=
  ⟨(match e.1 with | .cope => 0x20 | .drag => 0x60) + e.2.1, 0x81, le 1 e.2.2.1 ++ padTo 48 e.2.2.2⟩

/-- The measurements present, by index. -/
def measurements (s : State) : List Meas :=
  let m := lastMeasured s
  let dom := fun (i ty : Nat) (x : Option Bytes) => (x.map fun b => (⟨i, ty, padTo 48 b⟩ : Meas)).toList
  [⟨1, 0, m.boot⟩] ++ dom 2 1 m.reserveFw ++ dom 3 1 m.floorFw.cope ++ dom 4 1 m.floorFw.drag ++ dom 5 3 m.mouldAtrium ++
    dom 6 3 m.moulds.cope ++ dom 7 3 m.moulds.drag ++ [⟨8, 0x82, m.life⟩, ⟨9, 0x82, le 4 m.restarts⟩] ++
    sortBy (fun a b => a.index ≤ b.index) (m.programs.map measProgram)

def Meas.block (m : Meas) : Bytes :=
  le 1 m.index ++ [1] ++ le 2 (3 + m.value.length) ++ le 1 m.type ++ le 2 m.value.length ++ m.value

/-- GET_MEASUREMENTS (R378 to R380): index 0 asks for the count, 0xFF for all. -/
def execGetMeasurements (port : Half) (index : Byte) (sign : Bool) (nonce : Bytes) (s : State) : Out :=
  .next <| onSpdm s port 3 fun s x =>
    let ms := measurements s
    let i := index.toNat
    let sel := if i = 0 then [] else if i = 0xFF then ms else ms.filter (·.index = i)
    if i ≠ 0 && sel.isEmpty then answerDoe s errInvalid
    else if !drbgReady s 2 then s
    else reserveOp s ([3] ++ nonce) (if sign then [80] else []) none fun s =>
      let recs := sel.flatMap Meas.block
      let req := [0x12, 0xE0] ++ le 1 (b2n sign) ++ [index] ++ (if sign then padTo 32 nonce ++ [0] else [])
      let rsp := spdmRsp 0x60 (if i = 0 then ms.length else 0) 0 (le 1 sel.length ++ le 3 recs.length ++ recs ++ freeBytesAt s 1 32 ++ [0, 0])
      let sig := if sign then spdmSign s "responder-measurements signing" (x.transcript ++ req ++ rsp) else []
      answerDoe (bump (drawMany s 2 (1 + b2n sign))) (rsp ++ sig)

/-! ### Sessions (R568) -/

/-- HKDF-Expand of one block (RFC 5869) with a label of DSP0277. -/
def spdmExpand (key : Bytes) (n : Nat) (label : String) (ctx : Bytes) : Bytes :=
  (hmac 3 key (le 2 n ++ ascii "spdm1.2 " ++ ascii label ++ ctx ++ [1])).take n

/-- The verify data of one side over a transcript. -/
def spdmVerify (secret th m : Bytes) (side : String) : Bytes :=
  hmac 3 (spdmExpand (spdmExpand secret 48 side (sha384 th)) 48 "finished" []) (sha384 m)

def spdmSession (p : Port) (id : Byte) : Option SpdmSession := p.sessions.find? (·.id = id)

def updSession (s : State) (p : Half) (id : Byte) (f : SpdmSession → SpdmSession) : State :=
  updPort s p fun x => { x with sessions := x.sessions.map fun y => if y.id = id then f y else y }

def dropSession (s : State) (p : Half) (id : Byte) : State :=
  updPort s p fun x => { x with sessions := x.sessions.filter (·.id ≠ id) }

/-- KEY_EXCHANGE: ECDHE on P-384, no mutual authentication, two sessions at most. The point stands at offset 36 of `req`. -/
def execKeyExchange (port : Half) (req : Bytes) (s : State) : Out :=
  .next <| onSpdm s port 3 fun s x =>
    let q := [4] ++ slice req 36 96
    if req.length < 134 || !pointOk 2 q then answerDoe s errInvalid
    else match [(1 : Byte), 2].find? fun i => (spdmSession x i).isNone with
      | none => answerDoe s errLimit
      | some id => if !drbgReady s 2 then s else reserveOp s ([4] ++ req) [78, 75, 80] none fun s =>
        let d := ecScalar (freeBytesAt s 1 64)
        let rsp := spdmRsp 0x64 0 0 ([0, id, 0, 0] ++ freeBytesAt s 3 32 ++ (ecPub 2 d).drop 1 ++ [0, 0])
        let pre := x.transcript ++ chainDigest s ++ [0x12, 0xE4, 0, 0] ++ req ++ rsp
        let th := pre ++ spdmSign s "responder-key_exchange_rsp signing" pre
        let secret := hmac 3 (zeros 48) (ecdh 2 d q)
        let tail := th.drop pre.length ++ spdmVerify secret th th "rsp hs data"
        let s := updPort (bump (drawMany s 2 3)) port fun x => { x with sessions := x.sessions ++ [{ id, key := secret, th }] }
        answerDoe s (rsp ++ tail)

/-- FINISH: the session opens when the requester's verify data is right, and ends when it is not. -/
def execFinish (port : Half) (session : Byte) (verifyData : Bytes) (s : State) : Out :=
  .next <| onSpdm s port 3 fun s x =>
    match spdmSession x session with
    | none => answerDoe s errSession
    | some e =>
      if e.ready then answerDoe s errUnexpected
      else
        let all := e.th ++ spdmVerify e.key e.th e.th "rsp hs data" ++ [0x12, 0xE5, 0, 0]
        if padTo 48 verifyData == spdmVerify e.key e.th all "req hs data" then
          let master := hmac 3 (spdmExpand e.key 48 "derived" []) (zeros 48)
          answerDoe (updSession s port session fun y => { y with ready := true, key := master }) (spdmRsp 0x65 0 0 [])
        else answerDoe (dropSession s port session) errDecrypt

/-- A request inside an open session. -/
def inSession (s : State) (p : Half) (id : Byte) (f : State → SpdmSession → State) : State :=
  onSpdm s p 3 fun s x => match spdmSession x id with
    | some e => if e.ready then f s e else answerDoe s errUnexpected
    | none => answerDoe s errSession

/-- KEY_UPDATE: 1 one direction, 2 both, 3 verifies the new key. -/
def execKeyUpdate (port : Half) (session : Byte) (op : Byte) (s : State) : Out :=
  .next <| inSession s port session fun s _ =>
    if op = 1 || op = 2 then
      let s := updSession s port session fun y => { y with key := spdmExpand y.key 48 "traffic upd" [], updates := y.updates + 1 }
      answerDoe s (spdmRsp 0x69 op.toNat 0 [])
    else if op = 3 then answerDoe s (spdmRsp 0x69 3 0 [])
    else answerDoe s errInvalid

/-- HEARTBEAT. -/
def execSpdmHeartbeat (port : Half) (session : Byte) (s : State) : Out :=
  .next <| inSession s port session fun s _ => answerDoe s (spdmRsp 0x68 0 0 [])

/-- END_SESSION. -/
def execEndSession (port : Half) (session : Byte) (s : State) : Out :=
  .next <| inSession s port session fun s _ => answerDoe (dropSession s port session) (spdmRsp 0x6C 0 0 [])

/-- VENDOR_DEFINED_REQUEST with IDE_KM (R568, R569): a stream goes Secure under its key, or stops. -/
def execVendorDefinedRequest (port : Half) (session : Byte) (stream : Fin 5) (key : Option Bytes) (s : State) : Out :=
  .next <| inSession s port session fun s _ =>
    let ack := fun s => answerDoe s (spdmRsp 0x7E 0 0 (le 2 3 ++ [2] ++ le 2 1 ++ le 2 4 ++ [0, 4, 0, 0]))
    match key with
    | some k =>
      if k.length ≠ 32 then answerDoe s errInvalid
      else ack (updPort s port fun p =>
        { p with ideSecure := setBit p.ideSecure stream.val true
                 ideKeys := setNth ((p.ideKeys ++ List.replicate 5 []).take 5) stream.val k })
    | none => ack (ideLeaves s port stream.val)

/-- SPDM_UNSUPPORTED_REQUEST (R379): ERROR UnsupportedRequest. -/
def execSpdmUnsupportedRequest (port : Half) (code : Byte) (s : State) : Out :=
  .next <| onSpdm s port 0 fun s _ => answerDoe s (spdmError 0x07 code.toNat)

end Sys2Proof.Machine
end

