-- ==== Sys2Proof/Machine/Start.lean ====
section
/-!
DEFINITION. Power, start and reset: the cold start (R583, R359, R366, R369 to R371, R375, R282, R314, R504), feeds (R572 to
R579), the cell (R580, R314), `SYS_RESET_N` (R586), `PERST` (R598).
-/
namespace Sys2Proof.Machine

/-! ### Cold start -/

/-- Intent records of the banks that can be read (R366). -/
def startIntents (s : State) : List Intent :=
  let one := fun h => if (s.pwr.feed.get h).valid then s.lcs.intents.get h else []
  let a := one .cope
  sortBy (fun x y => x.seq.toNat ≤ y.seq.toNat) (a ++ (one .drag).filter fun x => !(a.any fun y => y.seq = x.seq))

/-- Step 2: straps and class are sampled, the mask is digested (R378, R597, R601). A device reset that a monitor decided has
been carried out (R496). -/
def startLatch (s : State) : State :=
  let s := updTmp s fun t => { t with decision := none }
  let s := { s with chn := { s.chn with head := s.pwr.chnHeadPin } }
  let s := updCus s fun u => { u with classC := s.pwr.vcardC }
  updLcs s fun l => { l with bootDigest := sha384 (tabulate 0x10000 Config.romByte) }

/-- The life-cycle state is latched; an inspection session begins with the burn of its token's end (R359, R375). -/
def latchState (s : State) : State :=
  let s := (startIntents s).foldl (completeIntent (intentRoot s)) s
  let st := fused s
  let s := updLcs s fun l => { l with state := st, debug := st == .test }
  match openToken s.lcs.fuses with
  | some t => if st == .production then updLcs (burnField s 5 t []) fun l => { l with session := true, debug := true } else s
  | none => s

/-- The cell-domain buffer goes into the tamper log (R504). -/
def copyCell (s : State) : State :=
  let n := s.tmp.cellBuf.length
  let s := s.tmp.cellBuf.foldl appendLog s
  updTmp s fun t =>
    { t with overflow := BitVec.ofNat 32 (Nat.min 0xFFFFFFFF (t.overflow.toNat + t.cellOverflow.toNat)), cellBuf := [], cellOverflow := 0
             cellCopied := t.cellCopied || n ≠ 0 }

/-- A fatal event before the reset joins the live record (R513). -/
def countLast (s : State) : State :=
  if s.flt.lastNew then
    updFlt (updLive s fun l => { l with cls := updNth l.cls 2 sat32 }) fun f => { f with lastNew := false }
  else s

/-- Steps 2 to 4 of a quench that the cell domain began (R314). -/
def finishQuench (s : State) : State :=
  if s.srm.atStart then updSrm (quenchChanges s) fun r => { r with atStart := false } else s

/-- The first root field without a `VALID` group that is not spoiled (R369, R370). -/
def rootField (f : Fuses) : Option Bool :=
  if !burned f.rootAValid && !f.rootASpoiled then some false
  else if !burned f.rootBValid && !f.rootBSpoiled then some true
  else none

/-- The start draws a root or the first Vault Epoch Key, and the key-generation DRBG delivers nothing yet: the start waits for it
in step 2, and COLD_START takes it up again (R369, R461, R462). -/
def startWaits (s : State) : Bool :=
  !drbgReady s 2 &&
    match s.lcs.state with
    | .blank => (rootField s.lcs.fuses).isSome
    | .production => !s.lcs.prodStarted && !sealedSession s
    | _ => false

/-- The first start in BLANK (R369): root, identity, `ST_TEST`, reset; without a root field the part stays in BLANK. -/
def firstStart (s : State) : State :=
  match rootField s.lcs.fuses with
  | none => updPwr (updLcs s fun l => { l with rootFail := true }) fun p => { p with phase := .recovery }
  | some b =>
    let root := freeBytesAt s 1 48
    let priv := ecScalar (ladderKdf root "QLV-DIK" [] 64)
    let point := ecPub 2 priv
    let die := le 8 s.lcs.fuses.dieId.toNat
    let req := die ++ point ++ ecdsa 2 priv (sha384 (ascii "QLV-DIK-REQ" ++ die ++ point)) (freeBytesAt s 2 48)
    let s := updFuses (bump (drawMany s 2 2)) fun f =>
      let f := { f with stTest := 3 }
      if b then { f with rootB := root, rootBValid := 3 } else { f with rootA := root, rootAValid := 3 }
    deviceReset (updLcs s fun l => { l with point, request := req, intentSeq := l.intentSeq + 1 }) s.pwr.cause.toNat

/-- The wipe of END OF LIFE (R371): epoch registers and Reliquary, roots and owner fuses, both banks, `TRIM`, `WIPED`. -/
def wipe (s : State) : State :=
  let ones := List.replicate 48 (0xFF : Byte)
  let s := updSrm s fun _ => {}
  let s := updFuses s fun f =>
    { f with rootA := ones, rootB := ones, rootASpoiled := true, rootBSpoiled := true, ownerAlg := 3, ownerDigest := ones
             trimSpoiled := true, wiped := 3 }
  let s := updLcs s fun l => { l with chain := none, request := [], point := [], intents := ⟨[], []⟩, intentSeq := 0, restartsLife := 0 }
  let s := updRcd s fun _ => {}
  let s := updTmp s fun t => { t with log := ⟨[], []⟩, overflow := 0, lastLs := 0, lastPc := 0, lifeSeconds := 0, powerCycles := 0 }
  { updMld s fun m => { m with slotA := ⟨none, none⟩, slotB := ⟨none, none⟩, activeHalf := ⟨none, none⟩, activeAtrium := none } with
    gals := [], galv := [], cus := {}, chn := {}, mem := {} }

/-- The first start in PRODUCTION, which no inspection session is (R281, R282): a new Vault Epoch Key, every slot unassigned and empty, counters 0. They go into each
bank that has its feed; every slot is stale in the other (R296). -/
def firstProduction (s : State) : State :=
  if s.lcs.state != .production || s.lcs.prodStarted || sealedSession s then s
  else
    let key := mkShares s 1 (freeBytes s 32)
    let s := updLcs (bump (drawFrom s 2)) fun l => { l with prodStarted := true }
    let s := updSrm s fun r => { r with epoch := false, epoch0 := some key, epoch1 := none, map := [], dir := [] }
    let blank : BlankRecs := { key := (sealKey s false).getD [], seed := s.freeCtr }
    let signed := fun (a : CounterArea) => (List.range 33).foldl (fun a b => signBlock s b a) { a with map := [], counters := [] }
    let put := fun h (b : Bank) =>
      if (s.pwr.feed.get h).valid then { b with base := some blank, recs := [], stale := [], area := signed b.area }
      else { b with stale := List.range 65536 }
    let s := updSrm (bump s) fun r => { r with
      bank := ⟨put .cope r.bank.cope, put .drag r.bank.drag⟩
      reseal := false, overwrite := false, resealPos := ⟨0, 0⟩, overwritePos := ⟨0, 0⟩, writtenSince := []
      quenches := 0, reseals := 0 }
    { s with gals := s.gals.mapAll {} fun _ x => { x with counter := 0 } }

/-- Galleries that were CLOSING go on closing (R93, R94). -/
def closeAtStart (s : State) : State :=
  ((s.gals.filter fun e => e.2.state == .closing).map (·.1)).foldl galEnd s

/-- Step 4 and after. -/
def startPour (s : State) : State :=
  if startWaits s then s
  else match s.lcs.state with
  | .blank => firstStart s
  | .endOfLife => updPwr (if burned s.lcs.fuses.wiped then s else wipe s) fun p => { p with phase := .recovery }
  | _ =>
    if s.flt.deviceHold then updPwr s fun p => { p with phase := .recovery }
    else
      let s := pourAll (firstProduction s)
      if s.pwr.phase == .step5 then closeAtStart s else s

/-- COLD_START (R583). A start that R369 ends in a reset is followed by another one. -/
def execColdStart (s : State) : Out :=
  .next <|
    if s.pwr.phase == .step1 || s.pwr.phase == .step2 then
      startPour (finishQuench (countLast (copyCell (latchState (startLatch (updPwr s fun p => { p with phase := .step2 }))))))
    else s

/-! ### SYS_RESET_N and PERST -/

/-- SYS_RESET_N_ASSERT (R586): low for 1 µs or longer. -/
def execSysResetNAssert (ns : Nat) (s : State) : Out :=
  .next <|
    if ns < 1000 || s.pwr.sysResetLow then s
    else
      let s := updPwr s fun p => { p with sysResetLow := true }
      if s.pwr.phase == .off then s else deviceReset s 1

/-- SYS_RESET_N_RELEASE (R586). -/
def execSysResetNRelease (s : State) : Out :=
  .next <|
    let s := updPwr s fun p => { p with sysResetLow := false }
    if s.pwr.phase == .held && !s.pwr.ftEn then updPwr s fun p => { p with phase := .step2 } else s

/-- PERST_ASSERT (R598, R565). -/
def execPerstAssert (port : Half) (s : State) : Out :=
  .next <|
    let s := updPort s port fun p => { p with perstLow := true }
    if !(s.hst.port.get port).linkUp then s else portDown s port

/-- PERST_RELEASE (R598): the port may train again after 100 µs; PORT_USABLE reports it. -/
def execPerstRelease (port : Half) (s : State) : Out :=
  .next (updPort s port fun p => { p with perstLow := false, trainFrom := if p.perstLow then tick s + 100 else p.trainFrom })

/-! ### Feeds -/

/-- Where the recorder area holds no record, the first one opens (R512, R513). -/
def openRecord (s : State) : State :=
  if s.rcd.full || s.rcd.checkpoint.isSome then s
  else
    let l : LiveRec := { minStart := s.rcd.minutes, minEnd := s.rcd.minutes, pcStart := s.tmp.powerCycles, pcEnd := s.tmp.powerCycles }
    updRcd s fun r => { r with live := l, checkpoint := some l }

/-- Power-on (R584): the cell domain, MRAM contents and fuses are kept; the Atrium takes feed `h` (R574). -/
def powerOn (s : State) (h : Half) : State :=
  let seen := s.pwr.cellOnly || s.pwr.cellOnlySeen
  let s := resetState (if s.pwr.cellOnly then cellTime s else s) 0
  let s := updTmp s fun t => { t with powerCycles := BitVec.ofNat 32 (sat32 t.powerCycles.toNat), loopSeed := s.freeCtr }
  let s := openRecord (bump s)
  ftLatch { s with
    flt := { src := resetSources }
    spn := {}
    cup := {}
    atr := { s.atr with srcB := h == .drag }
    pwr := { s.pwr with cellOnly := false, cellOnlySeen := seen, switchovers := 0, halfResets := ⟨0, 0⟩
                        phase := if s.pwr.sysResetLow || s.pwr.ftEn then .held else .step1 } }

def markValid (s : State) (h : Half) : State :=
  let s := updPwr s fun p => { p with feed := p.feed.set h { (p.feed.get h) with valid := true, good := 0b111111, refclk := true } }
  dropEntropy s h .starting

/-- FEED_VALID (R572, R574, R578). A second feed that becomes valid in step 1 with the first is Feed A's or its peer's: Feed
A supplies the Atrium. -/
def execFeedValid (feed : Half) (s : State) : Out :=
  .next <|
    let f := s.pwr.feed.get feed
    if f.valid || f.failedRise then s
    else if s.pwr.phase == .off then powerOn (markValid s feed) feed
    else
      let s := setHalf (atrEvent (markValid s feed) 0b100) feed .reset
      let s := if s.pwr.phase == .step1 && feed == .cope then { s with atr := { s.atr with srcB := false } } else s
      if s.pwr.phase == .step5 then halfResetNow s feed none else s

/-- FEED_RISE_TIMEOUT (R573). -/
def execFeedRiseTimeout (feed : Half) (s : State) : Out :=
  .next <|
    if (s.pwr.feed.get feed).valid then s
    else updPwr s fun p => { p with feed := p.feed.upd feed fun f => { f with failedRise := true } }

/-- A half without its feed (R576). -/
def halfOff (s : State) (h : Half) : State :=
  let s := cutShort s h
  let cmd := (s.mld.pour.get h).bind (·.cmd)
  let s := bump (endPourCmd s cmd (freeStatus s))
  let s := updMld s fun m => { m with pour := m.pour.set h none, runHalf := m.runHalf.set h none, runSlotHalf := m.runSlotHalf.set h none }
  let s := updFlt s fun f => { f with endHalf := f.endHalf.set h none, countHalf := f.countHalf.set h true }
  endDecision (bankLoss (leaveServing s h .off) h)

/-- Both feeds are below their limits: the Atrium stops, and only the Reliquary and the cell domain stay powered (R11). -/
def powerOff (s : State) : State :=
  let s := resetState (bankLoss (bankLoss (endCeremonies s) .cope) .drag) s.pwr.cause.toNat
  updPwr s fun p => { p with phase := .off }

/-- FEED_LOSS (R11, R572, R576, R588). No rail named: the reference clock is lost. All rails of a feed that rose too slowly have
fallen: it may rise again (R573). -/
def execFeedLoss (feed : Half) (lowRails : BitVec 6) (s : State) : Out :=
  .next <|
    let f := s.pwr.feed.get feed
    if !f.valid then
      if f.failedRise && lowRails = 0b111111 then
        updPwr s fun p => { p with feed := p.feed.upd feed fun f => { f with failedRise := false, good := 0 } }
      else s
    else
      let s := updPwr s fun p => { p with feed := p.feed.upd feed fun f =>
        { f with valid := false, good := ~~~lowRails, lowSeen := f.lowSeen ||| lowRails, refclk := lowRails ≠ 0 } }
      if !(s.pwr.feed.get (other feed)).valid then
        powerOff s
      else
        let s := halfOff (atrEvent s 0b100) feed
        reportOnly s (halfSrc feed 18) 1 0 0

/-- ATRIUM_SWITCHOVER (R10, R575). -/
def execAtriumSwitchover (s : State) : Out :=
  .next <|
    let src : Half := if s.atr.srcB then .drag else .cope
    if s.pwr.phase == .off || (s.pwr.feed.get src).valid || !(s.pwr.feed.get (other src)).valid then s
    else
      let s := { s with atr := { s.atr with srcB := !s.atr.srcB } }
      let s := updPwr s fun p => { p with switchovers := satInc31 p.switchovers }
      reportOnly (atrEvent (recSwitchover s) 0b1000) 9 0 (if s.atr.srcB then 2 else 1) 0

/-! ### The cell -/

/-- CELL_ONLY_ENTRY (R579): the cell domain watches; no history runs on. -/
def execCellOnlyEntry (s : State) : Out :=
  .next <|
    if s.pwr.phase != .off || s.pwr.cellOnly then s
    else
      let s := updPwr s fun p => { p with cellOnly := true, vcell := true }
      let s := updTmp s fun t =>
        { t with cellMs := 0, decision := none, mon := t.mon.mapAll {} fun _ x => { x with history := [], last := none } }
      updSrm s fun r => { r with cellMask := (unshare r.maskSeed).getD [], cellSteps := 0 }

/-- VCELL_LOSS (R314, R580): without a feed the Reliquary is erased; the next start treats it as a quench. -/
def execVcellLoss (s : State) : Out :=
  .next <|
    let s := updPwr s fun p => { p with vcell := false, cellOnly := p.cellOnly && p.phase != .off }
    if s.pwr.phase == .off then
      let s := updPwr s fun p => { p with cellOnly := false }
      updSrm s fun r => { r with epoch0 := none, epoch1 := none, lines := [], maskSeed := none, cellMask := [], atStart := true }
    else s

end Sys2Proof.Machine
end

