-- ==== Sys2Proof/Machine/Tieno.lean ====
section
/-!
DEFINITION. The Tieno instruction set (R426 to R438): one meaning for each instruction.
-/
namespace Sys2Proof.Machine

/-! ### Register operations (opcode 0x01) -/

/-- ADD. -/
def execAdd (c : CoreId) (rd a b : BitVec 5) (s : State) : Out := alu c rd s fun x => x.getW a + x.getW b
/-- SUB. -/
def execSub (c : CoreId) (rd a b : BitVec 5) (s : State) : Out := alu c rd s fun x => x.getW a - x.getW b
/-- AND. -/
def execAnd (c : CoreId) (rd a b : BitVec 5) (s : State) : Out := alu c rd s fun x => x.getW a &&& x.getW b
/-- OR. -/
def execOr (c : CoreId) (rd a b : BitVec 5) (s : State) : Out := alu c rd s fun x => x.getW a ||| x.getW b
/-- XOR. -/
def execXor (c : CoreId) (rd a b : BitVec 5) (s : State) : Out := alu c rd s fun x => x.getW a ^^^ x.getW b
/-- SLL. -/
def execSll (c : CoreId) (rd a b : BitVec 5) (s : State) : Out := alu c rd s fun x => x.getW a <<< fld (x.getW b) 4 0
/-- SRL. -/
def execSrl (c : CoreId) (rd a b : BitVec 5) (s : State) : Out := alu c rd s fun x => x.getW a >>> fld (x.getW b) 4 0
/-- SRA. -/
def execSra (c : CoreId) (rd a b : BitVec 5) (s : State) : Out := alu c rd s fun x => (x.getW a).sshiftRight (fld (x.getW b) 4 0)
/-- SLT. -/
def execSlt (c : CoreId) (rd a b : BitVec 5) (s : State) : Out := alu c rd s fun x => if (x.getW a).slt (x.getW b) then 1 else 0
/-- SLTU. -/
def execSltu (c : CoreId) (rd a b : BitVec 5) (s : State) : Out := alu c rd s fun x => if x.getW a < x.getW b then 1 else 0
/-- MUL. -/
def execMul (c : CoreId) (rd a b : BitVec 5) (s : State) : Out := alu c rd s fun x => x.getW a * x.getW b
/-- MULH. -/
def execMulh (c : CoreId) (rd a b : BitVec 5) (s : State) : Out := alu c rd s fun x => (((x.getW a).signExtend 64 * (x.getW b).signExtend 64) >>> 32).setWidth 32
/-- MULHU. -/
def execMulhu (c : CoreId) (rd a b : BitVec 5) (s : State) : Out := alu c rd s fun x => (((x.getW a).setWidth 64 * (x.getW b).setWidth 64) >>> 32).setWidth 32
/-- DIVU. -/
def execDivu (c : CoreId) (rd a b : BitVec 5) (s : State) : Out := alu c rd s fun x => if x.getW b = 0 then 0xFFFFFFFF else x.getW a / x.getW b
/-- REMU. -/
def execRemu (c : CoreId) (rd a b : BitVec 5) (s : State) : Out := alu c rd s fun x => if x.getW b = 0 then x.getW a else x.getW a % x.getW b
/-- CMOVZ (R429). -/
def execCmovz (c : CoreId) (rd a b : BitVec 5) (s : State) : Out := alu c rd s fun x => if x.getW b = 0 then x.getW a else x.getW rd
/-- CMOVNZ (R429). -/
def execCmovnz (c : CoreId) (rd a b : BitVec 5) (s : State) : Out := alu c rd s fun x => if x.getW b ≠ 0 then x.getW a else x.getW rd

/-! ### Immediate operations -/

/-- ADDI. -/
def execAddi (c : CoreId) (rd a : BitVec 5) (imm : BitVec 16) (s : State) : Out := alu c rd s fun x => x.getW a + imm.signExtend 32
/-- ANDI. -/
def execAndi (c : CoreId) (rd a : BitVec 5) (imm : BitVec 16) (s : State) : Out := alu c rd s fun x => x.getW a &&& imm.setWidth 32
/-- ORI. -/
def execOri (c : CoreId) (rd a : BitVec 5) (imm : BitVec 16) (s : State) : Out := alu c rd s fun x => x.getW a ||| imm.setWidth 32
/-- XORI. -/
def execXori (c : CoreId) (rd a : BitVec 5) (imm : BitVec 16) (s : State) : Out := alu c rd s fun x => x.getW a ^^^ imm.setWidth 32
/-- SLTI. -/
def execSlti (c : CoreId) (rd a : BitVec 5) (imm : BitVec 16) (s : State) : Out := alu c rd s fun x => if (x.getW a).slt (imm.signExtend 32) then 1 else 0
/-- SLTIU. -/
def execSltiu (c : CoreId) (rd a : BitVec 5) (imm : BitVec 16) (s : State) : Out := alu c rd s fun x => if x.getW a < imm.signExtend 32 then 1 else 0
/-- LUI: rs1 zero. -/
def execLui (c : CoreId) (rd a : BitVec 5) (imm : BitVec 16) (s : State) : Out :=
  aluIf c (a = 0) rd s fun _ => imm.setWidth 32 <<< 16
/-- SLLI: imm bits 15:5 zero. -/
def execSlli (c : CoreId) (rd a : BitVec 5) (imm : BitVec 16) (s : State) : Out :=
  aluIf c (imm < 32) rd s fun x => x.getW a <<< (imm.toNat % 32)
/-- SRLI: imm bits 15:5 zero. -/
def execSrli (c : CoreId) (rd a : BitVec 5) (imm : BitVec 16) (s : State) : Out :=
  aluIf c (imm < 32) rd s fun x => x.getW a >>> (imm.toNat % 32)
/-- SRAI: imm bits 15:5 zero. -/
def execSrai (c : CoreId) (rd a : BitVec 5) (imm : BitVec 16) (s : State) : Out :=
  aluIf c (imm < 32) rd s fun x => (x.getW a).sshiftRight (imm.toNat % 32)

/-! ### Loads and stores (R419, R422, R430) -/

/-- LB. -/
def execLb (c : CoreId) (rt base : BitVec 5) (bank : BitVec 3) (off : BitVec 13) (s : State) : Out :=
  onCore c s fun s c => load s c rt base bank off 1 sextByte
/-- LH. -/
def execLh (c : CoreId) (rt base : BitVec 5) (bank : BitVec 3) (off : BitVec 13) (s : State) : Out :=
  onCore c s fun s c => load s c rt base bank off 2 sextHalf
/-- LW. -/
def execLw (c : CoreId) (rt base : BitVec 5) (bank : BitVec 3) (off : BitVec 13) (s : State) : Out :=
  onCore c s fun s c => load s c rt base bank off 4 (BitVec.ofNat 32)
/-- LBU. -/
def execLbu (c : CoreId) (rt base : BitVec 5) (bank : BitVec 3) (off : BitVec 13) (s : State) : Out :=
  onCore c s fun s c => load s c rt base bank off 1 (BitVec.ofNat 32)
/-- LHU. -/
def execLhu (c : CoreId) (rt base : BitVec 5) (bank : BitVec 3) (off : BitVec 13) (s : State) : Out :=
  onCore c s fun s c => load s c rt base bank off 2 (BitVec.ofNat 32)
/-- SB. -/
def execSb (c : CoreId) (rt base : BitVec 5) (bank : BitVec 3) (off : BitVec 13) (s : State) : Out :=
  onCore c s fun s c => store s c rt base bank off 1
/-- SH. -/
def execSh (c : CoreId) (rt base : BitVec 5) (bank : BitVec 3) (off : BitVec 13) (s : State) : Out :=
  onCore c s fun s c => store s c rt base bank off 2
/-- SW. -/
def execSw (c : CoreId) (rt base : BitVec 5) (bank : BitVec 3) (off : BitVec 13) (s : State) : Out :=
  onCore c s fun s c => store s c rt base bank off 4

/-! ### Branches and jumps (R431 to R434) -/

/-- BEQ. -/
def execBeq (c : CoreId) (a b : BitVec 5) (disp : BitVec 16) (s : State) : Out :=
  onCore c s fun s c => branchIf s c ((core s c).getW a = (core s c).getW b) disp
/-- BNE. -/
def execBne (c : CoreId) (a b : BitVec 5) (disp : BitVec 16) (s : State) : Out :=
  onCore c s fun s c => branchIf s c ((core s c).getW a ≠ (core s c).getW b) disp
/-- BLT. -/
def execBlt (c : CoreId) (a b : BitVec 5) (disp : BitVec 16) (s : State) : Out :=
  onCore c s fun s c => branchIf s c (((core s c).getW a).slt ((core s c).getW b)) disp
/-- BGE. -/
def execBge (c : CoreId) (a b : BitVec 5) (disp : BitVec 16) (s : State) : Out :=
  onCore c s fun s c => branchIf s c (!((core s c).getW a).slt ((core s c).getW b)) disp
/-- BLTU. -/
def execBltu (c : CoreId) (a b : BitVec 5) (disp : BitVec 16) (s : State) : Out :=
  onCore c s fun s c => branchIf s c ((core s c).getW a < (core s c).getW b) disp
/-- BGEU. -/
def execBgeu (c : CoreId) (a b : BitVec 5) (disp : BitVec 16) (s : State) : Out :=
  onCore c s fun s c => branchIf s c ((core s c).getW b ≤ (core s c).getW a) disp
/-- BEQI. -/
def execBeqi (c : CoreId) (a : BitVec 5) (imm : Byte) (disp : BitVec 13) (s : State) : Out :=
  onCore c s fun s c => branchIf s c ((core s c).getW a = imm.signExtend 32) (disp.signExtend 16)
/-- BNEI. -/
def execBnei (c : CoreId) (a : BitVec 5) (imm : Byte) (disp : BitVec 13) (s : State) : Out :=
  onCore c s fun s c => branchIf s c ((core s c).getW a ≠ imm.signExtend 32) (disp.signExtend 16)
/-- BLTI. -/
def execBlti (c : CoreId) (a : BitVec 5) (imm : Byte) (disp : BitVec 13) (s : State) : Out :=
  onCore c s fun s c => branchIf s c (((core s c).getW a).slt (imm.signExtend 32)) (disp.signExtend 16)
/-- BGEI. -/
def execBgei (c : CoreId) (a : BitVec 5) (imm : Byte) (disp : BitVec 13) (s : State) : Out :=
  onCore c s fun s c => branchIf s c (!((core s c).getW a).slt (imm.signExtend 32)) (disp.signExtend 16)
/-- BLTUI. -/
def execBltui (c : CoreId) (a : BitVec 5) (imm : Byte) (disp : BitVec 13) (s : State) : Out :=
  onCore c s fun s c => branchIf s c ((core s c).getW a < imm.signExtend 32) (disp.signExtend 16)
/-- BGEUI. -/
def execBgeui (c : CoreId) (a : BitVec 5) (imm : Byte) (disp : BitVec 13) (s : State) : Out :=
  onCore c s fun s c => branchIf s c (imm.signExtend 32 ≤ (core s c).getW a) (disp.signExtend 16)
/-- DBNZ (R432). -/
def execDbnz (c : CoreId) (rs rz : BitVec 5) (disp : BitVec 16) (s : State) : Out :=
  onCore c s fun s c =>
    if rz ≠ 0 || rs = 0 then illegal s c
    else
      let v := (core s c).getW rs - 1
      branchIf (updCore s c fun x => x.setW rs v) c (v ≠ 0) disp
/-- JAL (R433). -/
def execJal (c : CoreId) (rd rz : BitVec 5) (disp : BitVec 16) (s : State) : Out :=
  onCore c s fun s c =>
    if rz ≠ 0 then illegal s c
    else updCore s c fun x => (x.setW rd (x.codeAddr (x.pc + 4))).branch disp
/-- JALR (R434). -/
def execJalr (c : CoreId) (rd a : BitVec 5) (imm : BitVec 16) (s : State) : Out :=
  onCore c s fun s c =>
    let t := (core s c).getW a + imm.signExtend 32
    if fld t 1 0 ≠ 0 then except_ s c 0x03 t
    else updCore s c fun x =>
      let x := x.setW rd (x.codeAddr (x.pc + 4))
      { x with bk := setNth x.bk 7 (BitVec.ofNat 16 (fld t 31 16)), pc := BitVec.ofNat 16 (fld t 15 0) }

/-! ### Control and status registers (R436, R443) -/

/-- CSRR. -/
def execCsrr (c : CoreId) (rd a : BitVec 5) (csr : BitVec 12) (s : State) : Out :=
  onCore c s fun s c => csrLoad s c rd a csr.toNat
/-- CSRW. -/
def execCsrw (c : CoreId) (rd a : BitVec 5) (csr : BitVec 12) (s : State) : Out :=
  onCore c s fun s c => csrOp s c .write rd a csr.toNat
/-- CSRS. -/
def execCsrs (c : CoreId) (rd a : BitVec 5) (csr : BitVec 12) (s : State) : Out :=
  onCore c s fun s c => csrOp s c .set rd a csr.toNat
/-- CSRC. -/
def execCsrc (c : CoreId) (rd a : BitVec 5) (csr : BitVec 12) (s : State) : Out :=
  onCore c s fun s c => csrOp s c .clear rd a csr.toNat

/-! ### System and bank instructions (R435, R437, R438, R446) -/

/-- SYS: a system-call exception; EPC is the next instruction. -/
def execSys (c : CoreId) (rd a : BitVec 5) (sel : BitVec 12) (s : State) : Out :=
  onCore c s fun s c =>
    if rd ≠ 0 || a ≠ 0 then illegal s c
    else takeException s c 0x09 sel.toNat ((core s c).codeAddr ((core s c).pc + 4)) 0
/-- RET (R446); privileged at Program level (R443). -/
def execRet (c : CoreId) (rd a : BitVec 5) (sel : BitVec 12) (s : State) : Out :=
  onCore c s fun s c =>
    if rd ≠ 0 || a ≠ 0 || sel ≠ 0 then illegal s c
    else if (core s c).level then privileged s c
    else returnFrom s c
/-- FENCE (R437). -/
def execFence (c : CoreId) (rd a : BitVec 5) (sel : BitVec 12) (s : State) : Out :=
  onCore c s fun s c =>
    if rd ≠ 0 || a ≠ 0 || 8 ≤ sel.toNat then illegal s c
    else
      let s := if sel.getLsbD 0 then l1Back s c else s
      let s := if sel.getLsbD 1 then l1Drop s c else s
      updCore s c CoreSt.advance
/-- WFT (R438): a wait request at Program level; no wait when an enabled line is pending. -/
def execWft (c : CoreId) (rd a : BitVec 5) (sel : BitVec 12) (s : State) : Out :=
  onCore c s fun s c =>
    let x := core s c
    if a ≠ 0 || sel ≠ 0 then illegal s c
    else if x.level then takeException s c 0x0A 0 (x.codeAddr (x.pc + 4)) 0
    else updCore s c fun x => { x.advance with waiting := some rd }.wake s.gen.a
/-- MTBK (R418, R435). -/
def execMtbk (c : CoreId) (rd a : BitVec 5) (sel : BitVec 12) (s : State) : Out :=
  onCore c s fun s c =>
    if rd ≠ 0 || 7 ≤ sel.toNat then illegal s c
    else updCore s c fun x => { x with bk := setNth x.bk sel.toNat (BitVec.ofNat 16 (fld (x.getW a) 31 16)) }.advance
/-- MFBK. -/
def execMfbk (c : CoreId) (rd a : BitVec 5) (sel : BitVec 12) (s : State) : Out :=
  onCore c s fun s c =>
    if a ≠ 0 || 8 ≤ sel.toNat then illegal s c
    else updCore s c fun x => (x.setW rd ((nth 0 x.bk sel.toNat).setWidth 32 <<< 16)).advance

/-! ### Entries that no instruction makes -/

/-- The fault source of a memory, by the address (R430, R469). -/
def memSource (s : State) (a : Nat) : Nat :=
  match areaOf s a with
  | some .reserveRam => 2
  | some (.floor h) => halfSrc h 9
  | some (.mram h) => halfSrc h 11
  | _ => 3

/-- A memory error on core `c`: the exception, and the report (R430). -/
def memoryError (s : State) (c : Nat) (a : Word) : State :=
  let n := memSource s a.toNat
  report (except_ s c 0x0B a) n 1 0 0 (if s.gen.windowDone then 1249 else 0) true

/-- EXCEPTION_ENTRY (R440): an illegal word, a refused fetch, uncorrectable data. -/
def execExceptionEntry (c : CoreId) (cause : CoreCause) (s : State) : Out :=
  onCore c s fun s c =>
    let a := (core s c).codeAddr (core s c).pc
    match cause with
    | .illegal => illegal s c
    | .fetchFault =>
      if granted s (initOf s c) a.toNat .execute then s else except_ (refuse s (initOf s c) a.toNat 1 .execute) c 0x04 a
    | .fetchMemoryError => memoryError s c a
    | .dataMemoryError d => memoryError s c d

/-- INTERRUPT_ENTRY (R448): a pending enabled line, with `STATUS.IE` 1 or at Program level. -/
def execInterruptEntry (c : CoreId) (s : State) : Out :=
  onCore c s fun s c =>
    let x := core s c
    match pendingLine x with
    | some n => if x.ie || x.level then takeInterrupt s c n else s
    | none => s

/-- Another program of the half has a handoff record pending (R403). -/
def othersWait (s : State) (h : Half) (g : Nat) : Bool :=
  (programsOf s h).any fun k => k ≠ g && (program s h k).any fun p => p.running && p.handProd ≠ p.handCons

/-- PROGRAM_TURN_EXPIRY (R403, R448): Floor firmware regains the core through line `TICK`. -/
def execProgramTurnExpiry (c : CoreId) (s : State) : Out :=
  onCore c s fun s c =>
    match runProgram s c with
    | some g =>
      if (program s (coreHalf c) g).any (fun p => p.turnEnd ≤ tick s) && othersWait s (coreHalf c) g then takeInterrupt s c 0
      else s
    | none => s

/-- RNG_SW_READ (R464): core `c` reads `RNG_SW_DATA`. -/
def execRngSwRead (c : CoreId) (s : State) : Out :=
  onCore c s fun s c =>
    match busRead s (initOf s c) 0x20050804 4 with
    | (some v, s) => { s with response := BitVec.ofNat 32 v }
    | (none, s) => s

end Sys2Proof.Machine
end

