-- ==== Sys2Proof/Machine/Dispatch.lean ====
section
/-!
DEFINITION. One arm for each command: a direct call of its meaning.
-/
namespace Sys2Proof.Machine

def exec (i : Instr) (s : State) : Host.Outcome State Fault Refusal :=
  match i with
  | .registerWrite port fn reg val => Sys2Proof.Machine.execRegisterWrite port fn reg val s
  | .unassignedAccess port fn off isWrite => Sys2Proof.Machine.execUnassignedAccess port fn off isWrite s
  | .misalignedAccess port fn off size isWrite => Sys2Proof.Machine.execMisalignedAccess port fn off size isWrite s
  | .tickLoRead r => Sys2Proof.Machine.execTickLoRead r s
  | .sqDoorbellWrite port g q val => Sys2Proof.Machine.execSqDoorbellWrite port g q val s
  | .cqDoorbellWrite port g q val => Sys2Proof.Machine.execCqDoorbellWrite port g q val s
  | .aqEnableWrite port g val => Sys2Proof.Machine.execAqEnableWrite port g val s
  | .aqEnableDecide g => Sys2Proof.Machine.execAqEnableDecide g s
  | .aqDisable port g => Sys2Proof.Machine.execAqDisable port g s
  | .mbxOutRing port g => Sys2Proof.Machine.execMbxOutRing port g s
  | .mbxCuratorAck port => Sys2Proof.Machine.execMbxCuratorAck port s
  | .mbxInRing port => Sys2Proof.Machine.execMbxInRing port s
  | .mbxGalleryAck port g => Sys2Proof.Machine.execMbxGalleryAck port g s
  | .tickBoundary => Sys2Proof.Machine.execTickBoundary s
  | .partingWindow => Sys2Proof.Machine.execPartingWindow s
  | .sharePeriodBoundary => Sys2Proof.Machine.execSharePeriodBoundary s
  | .entryFetch h g => Sys2Proof.Machine.execEntryFetch h g s
  | .hostReadReturn rid cycle data => Sys2Proof.Machine.execHostReadReturn rid cycle data s
  | .preparation job fault => Sys2Proof.Machine.execPreparation job fault s
  | .laneExecute job checkOk => Sys2Proof.Machine.execLaneExecute job checkOk s
  | .outputCompletionIssue g cq => Sys2Proof.Machine.execOutputCompletionIssue g cq s
  | .pairExecSend job => Sys2Proof.Machine.execPairExecSend job s
  | .completionWritten g cq => Sys2Proof.Machine.execCompletionWritten g cq s
  | .jobDelivered job => Sys2Proof.Machine.execJobDelivered job s
  | .moderationTimeExpiry g cq => Sys2Proof.Machine.execModerationTimeExpiry g cq s
  | .cqWriteError g cq => Sys2Proof.Machine.execCqWriteError g cq s
  | .hostDmaError t => Sys2Proof.Machine.execHostDmaError t s
  | .flushDeferredWrite g sq => Sys2Proof.Machine.execFlushDeferredWrite g sq s
  | .halfEnterServing h => Sys2Proof.Machine.execHalfEnterServing h s
  | .faultEvent source native unit info cycle held => Sys2Proof.Machine.execFaultEvent source native unit info cycle held s
  | .countingModeEnd d => Sys2Proof.Machine.execCountingModeEnd d s
  | .fltStatusClear mask => Sys2Proof.Machine.execFltStatusClear mask s
  | .tickCompareMismatch => Sys2Proof.Machine.execTickCompareMismatch s
  | .coldStart => Sys2Proof.Machine.execColdStart s
  | .sysResetNAssert ns => Sys2Proof.Machine.execSysResetNAssert ns s
  | .sysResetNRelease => Sys2Proof.Machine.execSysResetNRelease s
  | .pwrResetCtlDevice val => Sys2Proof.Machine.execPwrResetCtlDevice val s
  | .feedValid feed => Sys2Proof.Machine.execFeedValid feed s
  | .feedRiseTimeout feed => Sys2Proof.Machine.execFeedRiseTimeout feed s
  | .feedLoss feed lowRails => Sys2Proof.Machine.execFeedLoss feed lowRails s
  | .atriumSwitchover => Sys2Proof.Machine.execAtriumSwitchover s
  | .cellOnlyEntry => Sys2Proof.Machine.execCellOnlyEntry s
  | .vcellLoss => Sys2Proof.Machine.execVcellLoss s
  | .perstAssert port => Sys2Proof.Machine.execPerstAssert port s
  | .perstRelease port => Sys2Proof.Machine.execPerstRelease port s
  | .wldHeartbeatWrite core val => Sys2Proof.Machine.execWldHeartbeatWrite core val s
  | .watchdogExpiry => Sys2Proof.Machine.execWatchdogExpiry s
  | .wldRestartRequest core => Sys2Proof.Machine.execWldRestartRequest core s
  | .lockstepDivergence => Sys2Proof.Machine.execLockstepDivergence s
  | .reserveSramDoubleBit line => Sys2Proof.Machine.execReserveSramDoubleBit line s
  | .reserveResumed measuredOk => Sys2Proof.Machine.execReserveResumed measuredOk s
  | .regionRegisterWrite core ctrl ix reg val => Sys2Proof.Machine.execRegionRegisterWrite core ctrl ix reg val s
  | .regionSyncRead core ctrl => Sys2Proof.Machine.execRegionSyncRead core ctrl s
  | .regionParityFail ctrl ix => Sys2Proof.Machine.execRegionParityFail ctrl ix s
  | .gateRightsWrite core gate val => Sys2Proof.Machine.execGateRightsWrite core gate val s
  | .gatePowerClock core gate val => Sys2Proof.Machine.execGatePowerClock core gate val s
  | .lcuAcquire core owner => Sys2Proof.Machine.execLcuAcquire core owner s
  | .lcuRelease core => Sys2Proof.Machine.execLcuRelease core s
  | .lcuForce core => Sys2Proof.Machine.execLcuForce core s
  | .lcuGo core => Sys2Proof.Machine.execLcuGo core s
  | .lcuInit core => Sys2Proof.Machine.execLcuInit core s
  | .lcuBlockDone => Sys2Proof.Machine.execLcuBlockDone s
  | .debugMemAddr addr => Sys2Proof.Machine.execDebugMemAddr addr s
  | .debugMemDataCapture => Sys2Proof.Machine.execDebugMemDataCapture s
  | .debugMemDataUpdate val => Sys2Proof.Machine.execDebugMemDataUpdate val s
  | .add c rd rs1 rs2 => Sys2Proof.Machine.execAdd c rd rs1 rs2 s
  | .sub c rd rs1 rs2 => Sys2Proof.Machine.execSub c rd rs1 rs2 s
  | .and c rd rs1 rs2 => Sys2Proof.Machine.execAnd c rd rs1 rs2 s
  | .or c rd rs1 rs2 => Sys2Proof.Machine.execOr c rd rs1 rs2 s
  | .xor c rd rs1 rs2 => Sys2Proof.Machine.execXor c rd rs1 rs2 s
  | .sll c rd rs1 rs2 => Sys2Proof.Machine.execSll c rd rs1 rs2 s
  | .srl c rd rs1 rs2 => Sys2Proof.Machine.execSrl c rd rs1 rs2 s
  | .sra c rd rs1 rs2 => Sys2Proof.Machine.execSra c rd rs1 rs2 s
  | .slt c rd rs1 rs2 => Sys2Proof.Machine.execSlt c rd rs1 rs2 s
  | .sltu c rd rs1 rs2 => Sys2Proof.Machine.execSltu c rd rs1 rs2 s
  | .mul c rd rs1 rs2 => Sys2Proof.Machine.execMul c rd rs1 rs2 s
  | .mulh c rd rs1 rs2 => Sys2Proof.Machine.execMulh c rd rs1 rs2 s
  | .mulhu c rd rs1 rs2 => Sys2Proof.Machine.execMulhu c rd rs1 rs2 s
  | .divu c rd rs1 rs2 => Sys2Proof.Machine.execDivu c rd rs1 rs2 s
  | .remu c rd rs1 rs2 => Sys2Proof.Machine.execRemu c rd rs1 rs2 s
  | .cmovz c rd rs1 rs2 => Sys2Proof.Machine.execCmovz c rd rs1 rs2 s
  | .cmovnz c rd rs1 rs2 => Sys2Proof.Machine.execCmovnz c rd rs1 rs2 s
  | .addi c rd rs1 imm => Sys2Proof.Machine.execAddi c rd rs1 imm s
  | .andi c rd rs1 imm => Sys2Proof.Machine.execAndi c rd rs1 imm s
  | .ori c rd rs1 imm => Sys2Proof.Machine.execOri c rd rs1 imm s
  | .xori c rd rs1 imm => Sys2Proof.Machine.execXori c rd rs1 imm s
  | .slti c rd rs1 imm => Sys2Proof.Machine.execSlti c rd rs1 imm s
  | .sltiu c rd rs1 imm => Sys2Proof.Machine.execSltiu c rd rs1 imm s
  | .lui c rd rs1 imm => Sys2Proof.Machine.execLui c rd rs1 imm s
  | .slli c rd rs1 imm => Sys2Proof.Machine.execSlli c rd rs1 imm s
  | .srli c rd rs1 imm => Sys2Proof.Machine.execSrli c rd rs1 imm s
  | .srai c rd rs1 imm => Sys2Proof.Machine.execSrai c rd rs1 imm s
  | .lb c rt base bank off => Sys2Proof.Machine.execLb c rt base bank off s
  | .lh c rt base bank off => Sys2Proof.Machine.execLh c rt base bank off s
  | .lw c rt base bank off => Sys2Proof.Machine.execLw c rt base bank off s
  | .lbu c rt base bank off => Sys2Proof.Machine.execLbu c rt base bank off s
  | .lhu c rt base bank off => Sys2Proof.Machine.execLhu c rt base bank off s
  | .sb c rt base bank off => Sys2Proof.Machine.execSb c rt base bank off s
  | .sh c rt base bank off => Sys2Proof.Machine.execSh c rt base bank off s
  | .sw c rt base bank off => Sys2Proof.Machine.execSw c rt base bank off s
  | .beq c rs1 rs2 disp => Sys2Proof.Machine.execBeq c rs1 rs2 disp s
  | .bne c rs1 rs2 disp => Sys2Proof.Machine.execBne c rs1 rs2 disp s
  | .blt c rs1 rs2 disp => Sys2Proof.Machine.execBlt c rs1 rs2 disp s
  | .bge c rs1 rs2 disp => Sys2Proof.Machine.execBge c rs1 rs2 disp s
  | .bltu c rs1 rs2 disp => Sys2Proof.Machine.execBltu c rs1 rs2 disp s
  | .bgeu c rs1 rs2 disp => Sys2Proof.Machine.execBgeu c rs1 rs2 disp s
  | .beqi c rs1 imm disp => Sys2Proof.Machine.execBeqi c rs1 imm disp s
  | .bnei c rs1 imm disp => Sys2Proof.Machine.execBnei c rs1 imm disp s
  | .blti c rs1 imm disp => Sys2Proof.Machine.execBlti c rs1 imm disp s
  | .bgei c rs1 imm disp => Sys2Proof.Machine.execBgei c rs1 imm disp s
  | .bltui c rs1 imm disp => Sys2Proof.Machine.execBltui c rs1 imm disp s
  | .bgeui c rs1 imm disp => Sys2Proof.Machine.execBgeui c rs1 imm disp s
  | .dbnz c rs rz disp => Sys2Proof.Machine.execDbnz c rs rz disp s
  | .jal c rd rz disp => Sys2Proof.Machine.execJal c rd rz disp s
  | .jalr c rd rs1 imm => Sys2Proof.Machine.execJalr c rd rs1 imm s
  | .csrr c rd rs1 csr => Sys2Proof.Machine.execCsrr c rd rs1 csr s
  | .csrw c rd rs1 csr => Sys2Proof.Machine.execCsrw c rd rs1 csr s
  | .csrs c rd rs1 csr => Sys2Proof.Machine.execCsrs c rd rs1 csr s
  | .csrc c rd rs1 csr => Sys2Proof.Machine.execCsrc c rd rs1 csr s
  | .sys c rd rs1 sel => Sys2Proof.Machine.execSys c rd rs1 sel s
  | .ret c rd rs1 sel => Sys2Proof.Machine.execRet c rd rs1 sel s
  | .fence c rd rs1 sel => Sys2Proof.Machine.execFence c rd rs1 sel s
  | .wft c rd rs1 sel => Sys2Proof.Machine.execWft c rd rs1 sel s
  | .mtbk c rd rs1 sel => Sys2Proof.Machine.execMtbk c rd rs1 sel s
  | .mfbk c rd rs1 sel => Sys2Proof.Machine.execMfbk c rd rs1 sel s
  | .exceptionEntry c cause => Sys2Proof.Machine.execExceptionEntry c cause s
  | .interruptEntry c => Sys2Proof.Machine.execInterruptEntry c s
  | .handoffResult h g => Sys2Proof.Machine.execHandoffResult h g s
  | .handoffDeadline job => Sys2Proof.Machine.execHandoffDeadline job s
  | .programTurnExpiry c => Sys2Proof.Machine.execProgramTurnExpiry c s
  | .sourceWindowEnd src => Sys2Proof.Machine.execSourceWindowEnd src s
  | .conditionedValue h => Sys2Proof.Machine.execConditionedValue h s
  | .drbgInstantiate ix => Sys2Proof.Machine.execDrbgInstantiate ix s
  | .drbgReseed ix => Sys2Proof.Machine.execDrbgReseed ix s
  | .entropyWaitExpiry job => Sys2Proof.Machine.execEntropyWaitExpiry job s
  | .rngSwRead c => Sys2Proof.Machine.execRngSwRead c s
  | .rngRawRead => Sys2Proof.Machine.execRngRawRead s
  | .mramScrubStep bank => Sys2Proof.Machine.execMramScrubStep bank s
  | .wearLevelStep bank region => Sys2Proof.Machine.execWearLevelStep bank region s
  | .resealStep => Sys2Proof.Machine.execResealStep s
  | .quenchOverwriteStep => Sys2Proof.Machine.execQuenchOverwriteStep s
  | .vekDraw => Sys2Proof.Machine.execVekDraw s
  | .staleCatchupStep bank => Sys2Proof.Machine.execStaleCatchupStep bank s
  | .maskSeedRefresh => Sys2Proof.Machine.execMaskSeedRefresh s
  | .cellRemask => Sys2Proof.Machine.execCellRemask s
  | .galleryOverwriteDone g => Sys2Proof.Machine.execGalleryOverwriteDone g s
  | .cupolaStart h => Sys2Proof.Machine.execCupolaStart h s
  | .cupolaIntakeVerdict u => Sys2Proof.Machine.execCupolaIntakeVerdict u s
  | .cupolaResultCompare u agree atInfinity => Sys2Proof.Machine.execCupolaResultCompare u agree atInfinity s
  | .assayEnd h passed => Sys2Proof.Machine.execAssayEnd h passed s
  | .monitorEvent m detail logicFault => Sys2Proof.Machine.execMonitorEvent m detail logicFault s
  | .operatingMinute => Sys2Proof.Machine.execOperatingMinute s
  | .recorderCheckpoint => Sys2Proof.Machine.execRecorderCheckpoint s
  | .liveRefresh => Sys2Proof.Machine.execLiveRefresh s
  | .operatingSecond halves atrium => Sys2Proof.Machine.execOperatingSecond halves atrium s
  | .cardDetect port => Sys2Proof.Machine.execCardDetect port s
  | .cardPowerTimeout port => Sys2Proof.Machine.execCardPowerTimeout port s
  | .cardAtr port atr => Sys2Proof.Machine.execCardAtr port atr s
  | .cardPpsResponse port echoed => Sys2Proof.Machine.execCardPpsResponse port echoed s
  | .cardBlockReceived port block => Sys2Proof.Machine.execCardBlockReceived port block s
  | .cardWaitTimeExpiry port => Sys2Proof.Machine.execCardWaitTimeExpiry port s
  | .cardRemoved port => Sys2Proof.Machine.execCardRemoved port s
  | .cardApduResponse port data sw => Sys2Proof.Machine.execCardApduResponse port data sw s
  | .holderRecheck port => Sys2Proof.Machine.execHolderRecheck port s
  | .shareGiven port => Sys2Proof.Machine.execShareGiven port s
  | .ceremonyWindowExpiry c => Sys2Proof.Machine.execCeremonyWindowExpiry c s
  | .arcCardDetect port card => Sys2Proof.Machine.execArcCardDetect port card s
  | .arcRecordWritten => Sys2Proof.Machine.execArcRecordWritten s
  | .arcBusyTimeout => Sys2Proof.Machine.execArcBusyTimeout s
  | .arcCardRemoved port => Sys2Proof.Machine.execArcCardRemoved port s
  | .linkTrained l => Sys2Proof.Machine.execLinkTrained l s
  | .flitReceived l flit crcOk => Sys2Proof.Machine.execFlitReceived l flit crcOk s
  | .replayTimeout l => Sys2Proof.Machine.execReplayTimeout l s
  | .keyRatchet l outbound => Sys2Proof.Machine.execKeyRatchet l outbound s
  | .hello1 l msg => Sys2Proof.Machine.execHello1 l msg s
  | .hello2 l sig => Sys2Proof.Machine.execHello2 l sig s
  | .replica msg => Sys2Proof.Machine.execReplica msg s
  | .replicaAck msg => Sys2Proof.Machine.execReplicaAck msg s
  | .pairExec msg => Sys2Proof.Machine.execPairExec msg s
  | .pairResult msg => Sys2Proof.Machine.execPairResult msg s
  | .spanHeartbeat msg => Sys2Proof.Machine.execSpanHeartbeat msg s
  | .provRequest msg => Sys2Proof.Machine.execProvRequest msg s
  | .provReply msg => Sys2Proof.Machine.execProvReply msg s
  | .pairHello msg => Sys2Proof.Machine.execPairHello msg s
  | .echoMessage msg => Sys2Proof.Machine.execEchoMessage msg s
  | .pairHelloTimer g => Sys2Proof.Machine.execPairHelloTimer g s
  | .heartbeatTimer g => Sys2Proof.Machine.execHeartbeatTimer g s
  | .pairUnreachableTimeout g => Sys2Proof.Machine.execPairUnreachableTimeout g s
  | .replicaSend g => Sys2Proof.Machine.execReplicaSend g s
  | .replicaResendTimeout g slot => Sys2Proof.Machine.execReplicaResendTimeout g slot s
  | .pairExecTimeout job => Sys2Proof.Machine.execPairExecTimeout job s
  | .peerProvenanceTimeout g sq => Sys2Proof.Machine.execPeerProvenanceTimeout g sq s
  | .rollQuery epoch fromSelf => Sys2Proof.Machine.execRollQuery epoch fromSelf s
  | .rollAssign epoch addr fromSelf => Sys2Proof.Machine.execRollAssign epoch addr fromSelf s
  | .rollDone epoch count fromSelf => Sys2Proof.Machine.execRollDone epoch count fromSelf s
  | .rollPassTimeout => Sys2Proof.Machine.execRollPassTimeout s
  | .portLoss port ideStream => Sys2Proof.Machine.execPortLoss port ideStream s
  | .portUsable port rate width flit => Sys2Proof.Machine.execPortUsable port rate width flit s
  | .functionLevelReset port fn => Sys2Proof.Machine.execFunctionLevelReset port fn s
  | .flrComplete port fn => Sys2Proof.Machine.execFlrComplete port fn s
  | .vfDisable port numVfs => Sys2Proof.Machine.execVfDisable port numVfs s
  | .hstVecWrite port val => Sys2Proof.Machine.execHstVecWrite port val s
  | .ideCheckFail port stream => Sys2Proof.Machine.execIdeCheckFail port stream s
  | .doeDiscovery port index => Sys2Proof.Machine.execDoeDiscovery port index s
  | .getVersion port => Sys2Proof.Machine.execGetVersion port s
  | .getCapabilities port req => Sys2Proof.Machine.execGetCapabilities port req s
  | .negotiateAlgorithms port req => Sys2Proof.Machine.execNegotiateAlgorithms port req s
  | .getDigests port => Sys2Proof.Machine.execGetDigests port s
  | .getCertificate port slot offset length => Sys2Proof.Machine.execGetCertificate port slot offset length s
  | .challenge port slot nonce => Sys2Proof.Machine.execChallenge port slot nonce s
  | .getMeasurements port index sign nonce => Sys2Proof.Machine.execGetMeasurements port index sign nonce s
  | .keyExchange port req => Sys2Proof.Machine.execKeyExchange port req s
  | .finish port session verifyData => Sys2Proof.Machine.execFinish port session verifyData s
  | .keyUpdate port session op => Sys2Proof.Machine.execKeyUpdate port session op s
  | .spdmHeartbeat port session => Sys2Proof.Machine.execSpdmHeartbeat port session s
  | .endSession port session => Sys2Proof.Machine.execEndSession port session s
  | .vendorDefinedRequest port session stream key => Sys2Proof.Machine.execVendorDefinedRequest port session stream key s
  | .spdmUnsupportedRequest port code => Sys2Proof.Machine.execSpdmUnsupportedRequest port code s
  | .recoveryGo port => Sys2Proof.Machine.execRecoveryGo port s
  | .recoveryReadDone mould => Sys2Proof.Machine.execRecoveryReadDone mould s
  | .unassignedOpcode g sq => Sys2Proof.Machine.execUnassignedOpcode g sq s
  | .queueCreateCq g sq => Sys2Proof.Machine.execQueueCreateCq g sq s
  | .queueCreateSq g sq => Sys2Proof.Machine.execQueueCreateSq g sq s
  | .queueDestroySq g sq => Sys2Proof.Machine.execQueueDestroySq g sq s
  | .queueDestroyCq g sq => Sys2Proof.Machine.execQueueDestroyCq g sq s
  | .queueReset g sq => Sys2Proof.Machine.execQueueReset g sq s
  | .queueSetModeration g sq => Sys2Proof.Machine.execQueueSetModeration g sq s
  | .queueAbort g sq => Sys2Proof.Machine.execQueueAbort g sq s
  | .galleryCreate g sq => Sys2Proof.Machine.execGalleryCreate g sq s
  | .galleryDestroy g sq => Sys2Proof.Machine.execGalleryDestroy g sq s
  | .gallerySetShare g sq => Sys2Proof.Machine.execGallerySetShare g sq s
  | .gallerySetLimits g sq => Sys2Proof.Machine.execGallerySetLimits g sq s
  | .gallerySetFlags g sq => Sys2Proof.Machine.execGallerySetFlags g sq s
  | .galleryBindAuthority g sq key => Sys2Proof.Machine.execGalleryBindAuthority g sq key s
  | .galleryQuery g sq writeOk => Sys2Proof.Machine.execGalleryQuery g sq writeOk s
  | .galleryPoolQuery g sq writeOk => Sys2Proof.Machine.execGalleryPoolQuery g sq writeOk s
  | .slotAssign g sq => Sys2Proof.Machine.execSlotAssign g sq s
  | .slotRelease g sq => Sys2Proof.Machine.execSlotRelease g sq s
  | .slotUpdate g sq msg key => Sys2Proof.Machine.execSlotUpdate g sq msg key s
  | .slotDestroy g sq => Sys2Proof.Machine.execSlotDestroy g sq s
  | .slotQuery g sq writeOk => Sys2Proof.Machine.execSlotQuery g sq writeOk s
  | .slotCounter g sq => Sys2Proof.Machine.execSlotCounter g sq s
  | .slotTransportKeys g sq writeOk => Sys2Proof.Machine.execSlotTransportKeys g sq writeOk s
  | .slotReseal g sq => Sys2Proof.Machine.execSlotReseal g sq s
  | .ceremonyOpen g sq => Sys2Proof.Machine.execCeremonyOpen g sq s
  | .ceremonyWait g sq => Sys2Proof.Machine.execCeremonyWait g sq s
  | .ceremonyClose g sq => Sys2Proof.Machine.execCeremonyClose g sq s
  | .custodianSetCreate g sq point => Sys2Proof.Machine.execCustodianSetCreate g sq point s
  | .custodianSetAdopt g sq point => Sys2Proof.Machine.execCustodianSetAdopt g sq point s
  | .archiveWrite g sq => Sys2Proof.Machine.execArchiveWrite g sq s
  | .archiveSeal g sq headerOk trailerOk => Sys2Proof.Machine.execArchiveSeal g sq headerOk trailerOk s
  | .archiveRestore g sq blocks => Sys2Proof.Machine.execArchiveRestore g sq blocks s
  | .lifecycleMove g sq => Sys2Proof.Machine.execLifecycleMove g sq s
  | .inspectionConsent g sq unlock => Sys2Proof.Machine.execInspectionConsent g sq unlock s
  | .provenanceGet g sq writeOk => Sys2Proof.Machine.execProvenanceGet g sq writeOk s
  | .identityInstall g sq chain => Sys2Proof.Machine.execIdentityInstall g sq chain s
  | .identityGet g sq writeOk => Sys2Proof.Machine.execIdentityGet g sq writeOk s
  | .spanSetTopology g sq table => Sys2Proof.Machine.execSpanSetTopology g sq table s
  | .spanSetRoutes g sq table => Sys2Proof.Machine.execSpanSetRoutes g sq table s
  | .spanRollCall g sq => Sys2Proof.Machine.execSpanRollCall g sq s
  | .spanPairSet g sq identity => Sys2Proof.Machine.execSpanPairSet g sq identity s
  | .spanPairClear g sq => Sys2Proof.Machine.execSpanPairClear g sq s
  | .spanPairResync g sq => Sys2Proof.Machine.execSpanPairResync g sq s
  | .spanLinkReset g sq => Sys2Proof.Machine.execSpanLinkReset g sq s
  | .spanPeerProvenance g sq => Sys2Proof.Machine.execSpanPeerProvenance g sq s
  | .spanEcho g sq => Sys2Proof.Machine.execSpanEcho g sq s
  | .extLoad g sq image key => Sys2Proof.Machine.execExtLoad g sq image key s
  | .extUnload g sq => Sys2Proof.Machine.execExtUnload g sq s
  | .extStatus g sq writeOk => Sys2Proof.Machine.execExtStatus g sq writeOk s
  | .extStop g sq => Sys2Proof.Machine.execExtStop g sq s
  | .faultQuery g sq writeOk => Sys2Proof.Machine.execFaultQuery g sq writeOk s
  | .faultClear g sq => Sys2Proof.Machine.execFaultClear g sq s
  | .faultSetPolicy g sq => Sys2Proof.Machine.execFaultSetPolicy g sq s
  | .assayRequest g sq => Sys2Proof.Machine.execAssayRequest g sq s
  | .halfReset g sq => Sys2Proof.Machine.execHalfReset g sq s
  | .loopback g sq => Sys2Proof.Machine.execLoopback g sq s
  | .tamperQuery g sq writeOk => Sys2Proof.Machine.execTamperQuery g sq writeOk s
  | .tamperSetPolicy g sq => Sys2Proof.Machine.execTamperSetPolicy g sq s
  | .tamperStimulate g sq detected => Sys2Proof.Machine.execTamperStimulate g sq detected s
  | .tamperLogRead g sq writeOk => Sys2Proof.Machine.execTamperLogRead g sq writeOk s
  | .tamperSelftest g sq failing => Sys2Proof.Machine.execTamperSelftest g sq failing s
  | .recExport g sq writeOk => Sys2Proof.Machine.execRecExport g sq writeOk s
  | .recLive g sq writeOk => Sys2Proof.Machine.execRecLive g sq writeOk s
  | .mouldStage g sq mould => Sys2Proof.Machine.execMouldStage g sq mould s
  | .mouldPourHalf g sq => Sys2Proof.Machine.execMouldPourHalf g sq s
  | .mouldPourAtrium g sq => Sys2Proof.Machine.execMouldPourAtrium g sq s
  | .mouldCommit g sq => Sys2Proof.Machine.execMouldCommit g sq s
  | .mouldQuery g sq writeOk => Sys2Proof.Machine.execMouldQuery g sq writeOk s
  | .mouldBindOwner g sq owner => Sys2Proof.Machine.execMouldBindOwner g sq owner s
  | .mouldDiscard g sq => Sys2Proof.Machine.execMouldDiscard g sq s
  | .rngSourceRaw g sq => Sys2Proof.Machine.execRngSourceRaw g sq s
  | .rngDeviceRaw g sq => Sys2Proof.Machine.execRngDeviceRaw g sq s
  | .rngReadmit g sq => Sys2Proof.Machine.execRngReadmit g sq s
  | .rngReseed g sq => Sys2Proof.Machine.execRngReseed g sq s
  | .echo job => Sys2Proof.Machine.execEcho job s
  | .null job => Sys2Proof.Machine.execNull job s
  | .tickStamp job => Sys2Proof.Machine.execTickStamp job s
  | .laneCheck job unitsOk => Sys2Proof.Machine.execLaneCheck job unitsOk s
  | .pinXlate job => Sys2Proof.Machine.execPinXlate job s
  | .pinXlateAes job => Sys2Proof.Machine.execPinXlateAes job s
  | .pinVerifyOffset job => Sys2Proof.Machine.execPinVerifyOffset job s
  | .pinOffsetCalc job => Sys2Proof.Machine.execPinOffsetCalc job s
  | .pinGenerate job => Sys2Proof.Machine.execPinGenerate job s
  | .macAlg1 job => Sys2Proof.Machine.execMacAlg1 job s
  | .macAlg3 job => Sys2Proof.Machine.execMacAlg3 job s
  | .macCmac job => Sys2Proof.Machine.execMacCmac job s
  | .macAlg1Long job => Sys2Proof.Machine.execMacAlg1Long job s
  | .macAlg3Long job => Sys2Proof.Machine.execMacAlg3Long job s
  | .macCmacLong job => Sys2Proof.Machine.execMacCmacLong job s
  | .cardValue job => Sys2Proof.Machine.execCardValue job s
  | .cardValueDyn job => Sys2Proof.Machine.execCardValueDyn job s
  | .arqcVerify job => Sys2Proof.Machine.execArqcVerify job s
  | .scriptMac job => Sys2Proof.Machine.execScriptMac job s
  | .scriptEnc job => Sys2Proof.Machine.execScriptEnc job s
  | .scriptPin job => Sys2Proof.Machine.execScriptPin job s
  | .dukptAesPinXlate job => Sys2Proof.Machine.execDukptAesPinXlate job s
  | .dukptAesMac job => Sys2Proof.Machine.execDukptAesMac job s
  | .dukptAesData job => Sys2Proof.Machine.execDukptAesData job s
  | .dukptTdesPinXlate job => Sys2Proof.Machine.execDukptTdesPinXlate job s
  | .dukptTdesMac job => Sys2Proof.Machine.execDukptTdesMac job s
  | .kbExport job => Sys2Proof.Machine.execKbExport job s
  | .kbGenerate job => Sys2Proof.Machine.execKbGenerate job s
  | .kbInspect job => Sys2Proof.Machine.execKbInspect job s
  | .tr34Envelope job => Sys2Proof.Machine.execTr34Envelope job s
  | .kwExport job => Sys2Proof.Machine.execKwExport job s
  | .kwImport job => Sys2Proof.Machine.execKwImport job s
  | .aesCbc job => Sys2Proof.Machine.execAesCbc job s
  | .aesCbcLong job => Sys2Proof.Machine.execAesCbcLong job s
  | .aesCtr job => Sys2Proof.Machine.execAesCtr job s
  | .aesCtrLong job => Sys2Proof.Machine.execAesCtrLong job s
  | .aesXts job => Sys2Proof.Machine.execAesXts job s
  | .aesXtsLong job => Sys2Proof.Machine.execAesXtsLong job s
  | .aesGcm job => Sys2Proof.Machine.execAesGcm job s
  | .aesGcmLong job => Sys2Proof.Machine.execAesGcmLong job s
  | .aesCcm job => Sys2Proof.Machine.execAesCcm job s
  | .aesCcmLong job => Sys2Proof.Machine.execAesCcmLong job s
  | .tdesEcb job => Sys2Proof.Machine.execTdesEcb job s
  | .tdesEcbLong job => Sys2Proof.Machine.execTdesEcbLong job s
  | .tdesCbc job => Sys2Proof.Machine.execTdesCbc job s
  | .tdesCbcLong job => Sys2Proof.Machine.execTdesCbcLong job s
  | .ff1 job => Sys2Proof.Machine.execFf1 job s
  | .ff1Long job => Sys2Proof.Machine.execFf1Long job s
  | .hash job => Sys2Proof.Machine.execHash job s
  | .hashLong job => Sys2Proof.Machine.execHashLong job s
  | .hmac job => Sys2Proof.Machine.execHmac job s
  | .hmacLong job => Sys2Proof.Machine.execHmacLong job s
  | .kdf108 job => Sys2Proof.Machine.execKdf108 job s
  | .kdfX963 job => Sys2Proof.Machine.execKdfX963 job s
  | .ecSign job => Sys2Proof.Machine.execEcSign job s
  | .ecVerify job => Sys2Proof.Machine.execEcVerify job s
  | .ecKeygen job => Sys2Proof.Machine.execEcKeygen job s
  | .ecdhDerive job => Sys2Proof.Machine.execEcdhDerive job s
  | .rsaPrivate job => Sys2Proof.Machine.execRsaPrivate job s
  | .rsaPublic job => Sys2Proof.Machine.execRsaPublic job s
  | .rsaKeygen job => Sys2Proof.Machine.execRsaKeygen job s
  | .mldsaSign job => Sys2Proof.Machine.execMldsaSign job s
  | .mldsaVerify job => Sys2Proof.Machine.execMldsaVerify job s
  | .mldsaKeygen job => Sys2Proof.Machine.execMldsaKeygen job s
  | .mlkemEncaps job => Sys2Proof.Machine.execMlkemEncaps job s
  | .mlkemDecaps job => Sys2Proof.Machine.execMlkemDecaps job s
  | .mlkemKeygen job => Sys2Proof.Machine.execMlkemKeygen job s
  | .handoffPattern job checkOk => Sys2Proof.Machine.execHandoffPattern job checkOk s
  | .rawBit src bit => Sys2Proof.Machine.execRawBit src bit s
  | .cardAtrTimeout port => Sys2Proof.Machine.execCardAtrTimeout port s
  | .vcardIoOutOfRange => Sys2Proof.Machine.execVcardIoOutOfRange s
  | .vcardIoInRange => Sys2Proof.Machine.execVcardIoInRange s
  | .loopbackEnd kind index returned firstDiffer => Sys2Proof.Machine.execLoopbackEnd kind index returned firstDiffer s
  | .setCreateWindowExpiry => Sys2Proof.Machine.execSetCreateWindowExpiry s
  | .chainFrameDiscard => Sys2Proof.Machine.execChainFrameDiscard s

end Sys2Proof.Machine
end

