-- ==== Sys2Proof/Safety.lean ====
section
/-!
DEFINITION. What a safe run is, and the vocabulary of the statements: what a Tieno instruction leaves, when an admin command
runs, what fuses keep.
-/
namespace Sys2Proof.Machine

/-- A step that answers a next state. -/
def stepsOn (s : State) : Prop := ∃ t, step s = .next t

/-- `n` steps that all answer a next state. -/
def safeFor : Nat → State → Prop
  | 0, _ => True
  | n + 1, s => ∃ t, step s = .next t ∧ safeFor n t

/-! ### Tieno instructions -/

/-- Core `c` becomes `f` of what it was; nothing else changes. -/
def onlyCore (s : State) (c : CoreId) (f : CoreSt → CoreSt) : State := { s with cores := updNth s.cores c.val f }

/-- A register instruction of core `c` (R417, R420): `rd` holds `v` unless it is w0, PC names the next instruction. -/
def tienoWrote (s : State) (c : CoreId) (rd : BitVec 5) (v : Word) : State :=
  onlyCore s c fun x => { x with w := if rd = 0 then x.w else setNth x.w (rd.toNat - 1) v, pc := x.pc + 4 }

/-- A branch of core `c` (R420, R431): PC alone changes. -/
def tienoBranched (s : State) (c : CoreId) (taken : Bool) (disp : BitVec 16) : State :=
  onlyCore s c fun x => { x with pc := x.pc + if taken then 4 * disp else 4 }

/-- The full address of the instruction that core `c` executes, `k` bytes on in its page (R420, R440). -/
def tienoPc (s : State) (c : CoreId) (k : BitVec 16) : Word :=
  (nth 0 (core s c.val).bk 7).setWidth 32 <<< 16 ||| ((core s c.val).pc + k).setWidth 32

/-- R444 on a core that runs at System level outside a handler. -/
def tienoEntered (s : State) (c : CoreId) (cause epc eaddr : Word) : State :=
  onlyCore s c fun x =>
    { x with
      eLevel := x.level, eIe := x.ie, epc, ecause := cause, eaddr, level := false, ie := false, exc := true, curPart := 0
      bk := setNth x.bk 7 (BitVec.ofNat 16 (x.evec.toNat / 65536)), pc := BitVec.ofNat 16 (x.evec.toNat % 65536) }

/-- The data address of a load or store (R419). -/
def tienoData (s : State) (c : CoreId) (base : BitVec 5) (bank : BitVec 3) (off : BitVec 13) : Nat :=
  (nth 0 (core s c.val).bk bank.toNat).toNat * 65536 + ((((core s c.val).getW base).toNat + off.toInt) % 65536).toNat

/-- `n` bytes at `a` as core `c` observes them (R424): its L1 line where it holds one, memory otherwise. -/
def seenBytes (s : State) (c : CoreId) (x : Area) (a n : Nat) : Bytes :=
  match (core s c.val).l1.find? (·.addr = a / 64 * 64) with
  | some l => slice l.data (a % 64) n
  | none => memRead s x a n

/-- The next access of `i` carries no beat whose code failed (R13). -/
def beatsPass (s : State) (i : Init) : Prop := s.wld.badBeats.contains i.code = false

/-- Core `c` executes instructions and may access `n` aligned bytes of SRAM at `a`. -/
def sramAccess (s : State) (c : CoreId) (x : Area) (a n : Nat) (k : AccKind) : Prop :=
  runs s c.val = true ∧ beatsPass s (initOf s c.val) ∧ a % n = 0 ∧ areaOf s a = some x ∧ x.cached = true ∧ answers s x = true ∧
    granted s (initOf s c.val) a k = true

/-- Core `c` executes instructions at System level, outside an exception handler. -/
def systemLevel (s : State) (c : CoreId) : Prop :=
  runs s c.val = true ∧ (core s c.val).level = false ∧ (core s c.val).exc = false

/-! ### Register access -/

/-- A function's registers take accesses through `port`: the part serves its ports and no reset of the function is in
progress (R561). -/
def takesAccess (s : State) (port : Half) (fn : Nat) : Prop :=
  s.pwr.phase ≠ .off ∧ s.pwr.phase ≠ .recovery ∧ (fnCfg s port fn).flrEnd = none

/-- The distance from index `c` to index `p` modulo 2D (R106). -/
def ringDist (log2 : Nat) (p c : Nat) : Nat := (((p : Int) - c) % (2 * 2 ^ log2)).toNat

/-! ### Resets -/

/-- What a device reset leaves (R51, R93, R584, R587): the tick count is 0, the cause is recorded, halves without a feed are
OFF and the others in RESET; queues, jobs, cores and volatile memories are gone; galleries, fuses, image slots, tamper log,
stored records, MRAM and the command queue are kept. -/
def deviceWasReset (s t : State) (cause : Nat) : Prop :=
  t.gen = {} ∧ t.pwr.cause = BitVec.ofNat 4 cause ∧
    (∀ h, t.atr.half.get h = if (s.pwr.feed.get h).valid then .reset else .off) ∧
    t.sqs = [] ∧ t.cqs = [] ∧ t.jobs = [] ∧ t.adm = [] ∧ t.reads = [] ∧
    (if s.pwr.ftEn then t.flt.status.getLsbD 36 = true ∧ t.flt.status.getLsbD 60 = true else t.cores = List.replicate 9 {}) ∧
    t.mem = { mram := s.mem.mram } ∧ t.gals = s.gals ∧ t.lcs.fuses = s.lcs.fuses ∧ t.tmp.log = s.tmp.log ∧
    t.rcd.stored = s.rcd.stored ∧ t.mld.slotA = s.mld.slotA ∧ t.mld.slotB = s.mld.slotB ∧
    t.mld.runHalf = ⟨none, none⟩ ∧ t.mld.runAtrium = none ∧ t.pending = s.pending

/-- An event of source `n` is not counted as one of a counting mode and names no unit under assay (R473). -/
def outsideCounting (s : State) (n unit : Nat) : Prop :=
  s.pwr.phase ≠ .off ∧ counting s n = false ∧ assayHit s n unit = none

/-- No domain counts faults, no source but the two that are always fatal is classed fatal, no unit is under assay: an event that
a command reports is recorded and nothing more (R470, R473). -/
def quietFaults (s : State) : Prop :=
  s.pwr.phase ≠ .off ∧ (∀ n, counting s n = false) ∧ (∀ n, n ≠ 0 → n ≠ 15 → (fltSrc s n).cls.toNat ≤ 1) ∧
    ∀ h, (s.lanes.half.get h).assay = none

/-! ### Completions -/

/-- Submission queue `k` of generation `gen` exists with its completion queue. -/
def queuePair (s : State) (k gen : Nat) : Prop :=
  (sq s k).exist = true ∧ (sq s k).gen = BitVec.ofNat 4 gen ∧ (cq s (cqKey s k)).exist = true

/-- The hold of queue `k`'s completion queue holds a completion with these fields, not issued yet. -/
def completed (t : State) (k cmd : Nat) (st : Status) (detail outCount : Nat) (result : Bytes) : Prop :=
  ∃ h ∈ (cq t (cqKey t k)).hold, h.sq = k ∧ h.cmdId = cmd ∧ h.status = st ∧ h.detail = detail ∧ h.outCount = outCount ∧
    h.result = result ∧ h.issued = false

/-- Job `j` of the state: an ordinary job of an existing queue, neither chain nor batch. -/
def plainJob (s : State) (id : Nat) (j : Job) : Prop :=
  job s id = some j ∧ j.origin = .queue ∧ j.chain = false ∧ j.batch = false ∧ queuePair s j.sq j.sqGen

/-- The job has finished with this completion. -/
def jobEnded (t : State) (j : Job) (st : Status) (detail outCount : Nat) (result : Bytes) : Prop :=
  completed t j.sq j.cmdId st detail outCount result ∧ (∃ j', job t j.id = some j' ∧ j'.phase = .finished)

/-! ### Admin commands -/

/-- `c` is the confirmed command of admin queue `(g, q)`, carries opcode `op`, passes R609 steps 1 to 3, and its turn has come:
the tick's parting window is over, the Reserve pair runs where the command needs it, and no Atrium pour is in progress for a Mould
command. -/
def admRuns (s : State) (g : Gallery) (q : QIndex) (op : Nat) (c : AdminCmd) : Prop :=
  admAt s g.toNat q.toNat .confirmed = some c ∧ c.op = op ∧ c.unread = false ∧ s.gen.windowDone = true ∧
    (∀ r, admRow op = some r → r.clean c.entry = true ∧ (r.curator = true → g = 0) ∧ (r.reserve = true → s.atr.restarting = false)) ∧
    (g = 0 → s.lcs.session = true → sessionAllows op = true) ∧ (0x80 ≤ op → op ≤ 0x86 → s.mld.atriumPour = none)

/-- The command is being carried out and ends at a later step. -/
def carriesOn (t : State) (c : AdminCmd) : Prop := ∃ x ∈ t.adm, x.seq = c.seq ∧ x.phase = .running ∧ x.entry = c.entry

/-- The command has left the admin unit and its completion is held. -/
def answered (t : State) (c : AdminCmd) (st : Status) (detail : Nat) (result : Bytes) : Prop :=
  completed t c.key (leAt c.entry 4 2) st detail 0 result ∧ ∀ x ∈ t.adm, x.seq ≠ c.seq

/-- `e` is an admin row with its opcode; `ok` to `bs` are what the host's memory, the cards and the media answer. -/
def adminRow (g : Gallery) (q : QIndex) (ok ok' : Bool) (d d' : Option Bytes) (bl : List Bytes) (bs : List Byte)
    (e : Nat × Instr) : Prop :=
  e ∈ [(0x00, .queueCreateCq g q), (0x01, .queueCreateSq g q), (0x02, .queueDestroySq g q), (0x03, .queueDestroyCq g q),
   (0x04, .queueReset g q), (0x05, .queueSetModeration g q), (0x06, .queueAbort g q)] ∨
  e ∈ [(0x10, .galleryCreate g q), (0x11, .galleryDestroy g q), (0x12, .gallerySetShare g q), (0x13, .gallerySetLimits g q),
   (0x14, .gallerySetFlags g q), (0x15, .galleryBindAuthority g q d), (0x16, .galleryQuery g q ok), (0x17, .galleryPoolQuery g q ok)] ∨
  e ∈ [(0x20, .slotAssign g q), (0x21, .slotRelease g q), (0x22, .slotUpdate g q d d'), (0x23, .slotDestroy g q), (0x24, .slotQuery g q ok),
   (0x25, .slotCounter g q), (0x26, .slotTransportKeys g q ok), (0x27, .slotReseal g q)] ∨
  e ∈ [(0x30, .ceremonyOpen g q), (0x31, .ceremonyWait g q), (0x32, .ceremonyClose g q), (0x33, .custodianSetCreate g q d),
   (0x34, .custodianSetAdopt g q d), (0x35, .archiveWrite g q), (0x36, .archiveSeal g q ok ok'), (0x37, .archiveRestore g q bl)] ∨
  e ∈ [(0x40, .lifecycleMove g q), (0x41, .inspectionConsent g q d), (0x42, .provenanceGet g q ok), (0x43, .identityInstall g q d),
   (0x44, .identityGet g q ok)] ∨
  e ∈ [(0x50, .spanSetTopology g q d), (0x51, .spanSetRoutes g q d), (0x52, .spanRollCall g q), (0x53, .spanPairSet g q d),
   (0x54, .spanPairClear g q), (0x55, .spanPairResync g q), (0x56, .spanLinkReset g q), (0x57, .spanPeerProvenance g q),
   (0x58, .spanEcho g q)] ∨
  e ∈ [(0x60, .extLoad g q d d'), (0x61, .extUnload g q), (0x62, .extStatus g q ok), (0x63, .extStop g q)] ∨
  e ∈ [(0x70, .faultQuery g q ok), (0x71, .faultClear g q), (0x72, .faultSetPolicy g q), (0x73, .assayRequest g q), (0x74, .halfReset g q),
   (0x75, .loopback g q), (0x76, .tamperQuery g q ok), (0x77, .tamperSetPolicy g q), (0x78, .tamperStimulate g q ok),
   (0x79, .tamperLogRead g q ok), (0x7A, .tamperSelftest g q bs), (0x7B, .recExport g q ok), (0x7C, .recLive g q ok)] ∨
  e ∈ [(0x80, .mouldStage g q d), (0x81, .mouldPourHalf g q), (0x82, .mouldPourAtrium g q), (0x83, .mouldCommit g q), (0x84, .mouldQuery g q ok),
   (0x85, .mouldBindOwner g q d), (0x86, .mouldDiscard g q)] ∨
  e ∈ [(0x90, .rngSourceRaw g q), (0x91, .rngDeviceRaw g q), (0x92, .rngReadmit g q), (0x93, .rngReseed g q)]

/-! ### Look-ahead -/

/-- Queue index `q` of gallery `g` (64 its program's job ring) has an entry that half `h` may read (R120, R152, R156). -/
def mayRead (s : State) (h : Half) (g q : Nat) : Bool :=
  if q = 64 then ringReady s h g && horizonRoom s h g
  else fetchable s h (qkey g q) && hasEntry s (qkey g q) && ((sq s (qkey g q)).admin || wantsMore s h g (qkey g q))

/-! ### Reserve operations -/

/-- The results of the Reserve operations of `ticks` for `owner` are there, and `u` is the state that uses them: no unit can take the
operations, there are none, or they have ended (R266). -/
def opsDone (s : State) (owner : Bytes) (ticks : List Nat) (half : Option Half) (u : State) : Prop :=
  (ticks = [] ∨ canReserve s half = false) ∧ u = s ∨
    ticks ≠ [] ∧ canReserve s half = true ∧ s.cup.resDone.contains owner = true ∧
      u = { s with cup := { s.cup with resDone := s.cup.resDone.filter (· != owner) } }

/-- Nothing of `owner` has run, waits or runs, and its operations of `ticks` can. -/
def opsFresh (s : State) (owner : Bytes) (ticks : List Nat) (half : Option Half) : Prop :=
  ticks ≠ [] ∧ canReserve s half = true ∧ s.cup.resDone.contains owner = false ∧ (resWorks s).any (·.owner == owner) = false

/-- The operations of `ticks` wait for a unit; nothing else has changed. -/
def opsQueued (s t : State) (owner : Bytes) (ticks : List Nat) (half : Option Half) : Prop :=
  t = { s with cup := { s.cup with reserve := s.cup.reserve ++ [{ owner, ticks, half }] } }

/-! ### Span messages and slot records -/

/-- A message of class `cls` for this unit arrives while it has an address and a half serves. -/
def forUnit (s : State) (cls : Nat) (m : Bytes) : Prop :=
  msgClass m = cls ∧ s.chn.valid = true ∧ anyServing s = true ∧ s.atr.restarting = false ∧
    msgEpoch m = s.chn.epoch.toNat ∧ msgDst m = s.chn.addr.toNat

/-- A message leaves for unit `d`, which a route reaches. -/
def sentTo (s t : State) (d : Nat) (m : Bytes) : Prop :=
  s.chn.valid = true → routeTo s d ≠ none → t.out.span = s.out.span ++ [m]

/-- Every available bank holds a record of the narrow slot `n` with these fields, one generation above the copies before, its
material sealed under the active epoch with some nonce (R286, R296, R304). -/
def recorded (s t : State) (n alg : Nat) (attr : Word) (hash keyLen : Nat) (material : Bytes) : Prop :=
  ∀ h, (s.srm.bank.get h).available = true → ∃ iv, copyOf t h n = some (sealRec s
    { slot := n, gal := (mapEnt s n).owner, alg, attr, gen := slotGen s n, hash, keyLen } material iv)

/-! ### Fuses -/

/-- No fuse returns to 0 (spec/12, the fuse bank): what wafer sort wrote stays, every group that is set stays set, spoiled root
and trim fields stay spoiled, and `SEC_VER` never falls. -/
def Fuses.keeps (f t : Fuses) : Prop :=
  t.dieId = f.dieId ∧ t.testSeed = f.testSeed ∧ t.gradeE = f.gradeE ∧ t.trim = f.trim ∧
    (burned f.rootAValid = true → burned t.rootAValid = true) ∧ (burned f.rootBValid = true → burned t.rootBValid = true) ∧
    (f.rootASpoiled = true → t.rootASpoiled = true) ∧ (f.rootBSpoiled = true → t.rootBSpoiled = true) ∧
    (burned f.stTest = true → burned t.stTest = true) ∧ (burned f.stProd = true → burned t.stProd = true) ∧
    (burned f.stEol = true → burned t.stEol = true) ∧ f.secVer ≤ t.secVer ∧
    (∀ i, burned (nth 0 f.consumed i) = true → burned (nth 0 t.consumed i) = true) ∧
    (∀ i, burned (nth 0 f.ended i) = true → burned (nth 0 t.ended i) = true) ∧
    (burned f.ownerValid = true → burned t.ownerValid = true) ∧ (f.trimSpoiled = true → t.trimSpoiled = true) ∧
    (burned f.wiped = true → burned t.wiped = true)

end Sys2Proof.Machine
end

