-- ==== Sys2Proof/Certificates/Slice0/Obligations.lean ====
section
/-!
DEFINITION. The statements for the provers, each a rule of the spec or a property of every step.
-/
open Sys2Proof Sys2Proof.Machine

/-! ### Queue and step -/

/-- A step takes the command at the front of the queue and runs it with the rest; an empty queue idles (entry 1). -/
def Obligations.StepRunsFrontCommand : Prop :=
  (∀ (c : Instr) (rest : List Instr) (s : State), step { s with pending := c :: rest } = exec c { s with pending := rest }) ∧
    ∀ s : State, s.pending = [] → step s = .next s

/-- Every command answers a next state that keeps the queue, in every state. -/
def Obligations.EveryCommandRunsAndKeepsQueue : Prop :=
  ∀ (c : Instr) (s : State), ∃ t, exec c s = .next t ∧ t.pending = s.pending

/-! ### Tieno (spec/14) -/

/-- The register instructions, their results as integers modulo 2^32 (R428, R429; the table of opcode 0x01). -/
def Obligations.TienoRegisterArithmetic : Prop :=
  ∀ (s : State) (c : CoreId) (rd a b : BitVec 5), runs s c.val = true →
    let u := (core s c.val).getW a
    let v := (core s c.val).getW b
    exec (.add c rd a b) s = .next (tienoWrote s c rd (BitVec.ofNat 32 (u.toNat + v.toNat))) ∧
    exec (.sub c rd a b) s = .next (tienoWrote s c rd (BitVec.ofInt 32 ((u.toNat : Int) - v.toNat))) ∧
    exec (.and c rd a b) s = .next (tienoWrote s c rd (BitVec.ofNat 32 (Nat.land u.toNat v.toNat))) ∧
    exec (.or c rd a b) s = .next (tienoWrote s c rd (BitVec.ofNat 32 (Nat.lor u.toNat v.toNat))) ∧
    exec (.xor c rd a b) s = .next (tienoWrote s c rd (BitVec.ofNat 32 (Nat.xor u.toNat v.toNat))) ∧
    exec (.sll c rd a b) s = .next (tienoWrote s c rd (BitVec.ofNat 32 (u.toNat * 2 ^ (v.toNat % 32)))) ∧
    exec (.srl c rd a b) s = .next (tienoWrote s c rd (BitVec.ofNat 32 (u.toNat / 2 ^ (v.toNat % 32)))) ∧
    exec (.sra c rd a b) s = .next (tienoWrote s c rd (BitVec.ofInt 32 (u.toInt / 2 ^ (v.toNat % 32)))) ∧
    exec (.slt c rd a b) s = .next (tienoWrote s c rd (if u.toInt < v.toInt then 1 else 0)) ∧
    exec (.sltu c rd a b) s = .next (tienoWrote s c rd (if u.toNat < v.toNat then 1 else 0)) ∧
    exec (.mul c rd a b) s = .next (tienoWrote s c rd (BitVec.ofNat 32 (u.toNat * v.toNat))) ∧
    exec (.mulh c rd a b) s = .next (tienoWrote s c rd (BitVec.ofInt 32 (u.toInt * v.toInt / 2 ^ 32))) ∧
    exec (.mulhu c rd a b) s = .next (tienoWrote s c rd (BitVec.ofNat 32 (u.toNat * v.toNat / 2 ^ 32))) ∧
    exec (.divu c rd a b) s =
      .next (tienoWrote s c rd (BitVec.ofNat 32 (if v.toNat = 0 then 2 ^ 32 - 1 else u.toNat / v.toNat))) ∧
    exec (.remu c rd a b) s = .next (tienoWrote s c rd (BitVec.ofNat 32 (u.toNat % v.toNat))) ∧
    exec (.cmovz c rd a b) s = .next (tienoWrote s c rd (if v = 0 then u else (core s c.val).getW rd)) ∧
    exec (.cmovnz c rd a b) s = .next (tienoWrote s c rd (if v = 0 then (core s c.val).getW rd else u))

/-- The immediate instructions (R427): ADDI, SLTI and SLTIU sign-extend, ANDI, ORI and XORI zero-extend. -/
def Obligations.TienoImmediateArithmetic : Prop :=
  ∀ (s : State) (c : CoreId) (rd a : BitVec 5) (imm : BitVec 16), runs s c.val = true →
    let u := (core s c.val).getW a
    exec (.addi c rd a imm) s = .next (tienoWrote s c rd (BitVec.ofInt 32 ((u.toNat : Int) + imm.toInt))) ∧
    exec (.andi c rd a imm) s = .next (tienoWrote s c rd (BitVec.ofNat 32 (Nat.land u.toNat imm.toNat))) ∧
    exec (.ori c rd a imm) s = .next (tienoWrote s c rd (BitVec.ofNat 32 (Nat.lor u.toNat imm.toNat))) ∧
    exec (.xori c rd a imm) s = .next (tienoWrote s c rd (BitVec.ofNat 32 (Nat.xor u.toNat imm.toNat))) ∧
    exec (.slti c rd a imm) s = .next (tienoWrote s c rd (if u.toInt < imm.toInt then 1 else 0)) ∧
    exec (.sltiu c rd a imm) s =
      .next (tienoWrote s c rd (if u.toNat < (imm.toInt % 2 ^ 32).toNat then 1 else 0)) ∧
    exec (.lui c rd 0 imm) s = .next (tienoWrote s c rd (BitVec.ofNat 32 (imm.toNat * 2 ^ 16))) ∧
    (imm.toNat < 32 →
      exec (.slli c rd a imm) s = .next (tienoWrote s c rd (BitVec.ofNat 32 (u.toNat * 2 ^ imm.toNat))) ∧
      exec (.srli c rd a imm) s = .next (tienoWrote s c rd (BitVec.ofNat 32 (u.toNat / 2 ^ imm.toNat))) ∧
      exec (.srai c rd a imm) s = .next (tienoWrote s c rd (BitVec.ofInt 32 (u.toInt / 2 ^ imm.toNat))))

/-- A word with a nonzero bit in a field marked zero, or against a restriction of its instruction (R426), raises an illegal-
instruction exception: code 0x01, EPC the instruction, EADDR 0 (R440), entered as R444 says. -/
def Obligations.TienoIllegalFieldsRaise : Prop :=
  ∀ (s : State) (c : CoreId) (rd a : BitVec 5) (imm disp : BitVec 16) (sel : BitVec 12), systemLevel s c →
    let t : Out := .next (tienoEntered s c 0x00010000 (tienoPc s c 0) 0)
    (a ≠ 0 → exec (.lui c rd a imm) s = t) ∧
    (32 ≤ imm.toNat → exec (.slli c rd a imm) s = t ∧ exec (.srli c rd a imm) s = t ∧ exec (.srai c rd a imm) s = t) ∧
    (a ≠ 0 ∨ rd = 0 → exec (.dbnz c rd a disp) s = t) ∧
    (a ≠ 0 → exec (.jal c rd a disp) s = t) ∧
    (rd ≠ 0 ∨ a ≠ 0 → exec (.sys c rd a sel) s = t) ∧
    (rd ≠ 0 ∨ a ≠ 0 ∨ sel ≠ 0 → exec (.ret c rd a sel) s = t) ∧
    (rd ≠ 0 ∨ a ≠ 0 ∨ 8 ≤ sel.toNat → exec (.fence c rd a sel) s = t) ∧
    (a ≠ 0 ∨ sel ≠ 0 → exec (.wft c rd a sel) s = t) ∧
    (rd ≠ 0 ∨ 7 ≤ sel.toNat → exec (.mtbk c rd a sel) s = t) ∧
    (a ≠ 0 ∨ 8 ≤ sel.toNat → exec (.mfbk c rd a sel) s = t) ∧
    exec (.exceptionEntry c .illegal) s = t

/-- Branches (R431): a taken one adds 4 times its displacement to its own PC, another one 4; nothing else changes. -/
def Obligations.TienoBranchesSetPc : Prop :=
  ∀ (s : State) (c : CoreId) (a b : BitVec 5) (imm : Byte) (disp : BitVec 16) (d : BitVec 13), runs s c.val = true →
    let u := (core s c.val).getW a
    let v := (core s c.val).getW b
    let e : BitVec 16 := BitVec.ofInt 16 d.toInt
    exec (.beq c a b disp) s = .next (tienoBranched s c (u.toNat = v.toNat) disp) ∧
    exec (.bne c a b disp) s = .next (tienoBranched s c (u.toNat ≠ v.toNat) disp) ∧
    exec (.blt c a b disp) s = .next (tienoBranched s c (u.toInt < v.toInt) disp) ∧
    exec (.bge c a b disp) s = .next (tienoBranched s c (v.toInt ≤ u.toInt) disp) ∧
    exec (.bltu c a b disp) s = .next (tienoBranched s c (u.toNat < v.toNat) disp) ∧
    exec (.bgeu c a b disp) s = .next (tienoBranched s c (v.toNat ≤ u.toNat) disp) ∧
    exec (.beqi c a imm d) s = .next (tienoBranched s c (u.toInt = imm.toInt) e) ∧
    exec (.bnei c a imm d) s = .next (tienoBranched s c (u.toInt ≠ imm.toInt) e) ∧
    exec (.blti c a imm d) s = .next (tienoBranched s c (u.toInt < imm.toInt) e) ∧
    exec (.bgei c a imm d) s = .next (tienoBranched s c (imm.toInt ≤ u.toInt) e) ∧
    exec (.bltui c a imm d) s = .next (tienoBranched s c (u.toNat < (imm.toInt % 2 ^ 32).toNat) e) ∧
    exec (.bgeui c a imm d) s = .next (tienoBranched s c ((imm.toInt % 2 ^ 32).toNat ≤ u.toNat) e)

/-- DBNZ, JAL and JALR (R432, R433, R434). -/
def Obligations.TienoJumpsAndCountedBranch : Prop :=
  ∀ (s : State) (c : CoreId) (rd a : BitVec 5) (imm disp : BitVec 16), runs s c.val = true →
    let u := (core s c.val).getW a
    let t : Word := BitVec.ofInt 32 ((u.toNat : Int) + imm.toInt)
    (a ≠ 0 → exec (.dbnz c a 0 disp) s = .next (onlyCore s c fun x =>
      { x with w := setNth x.w (a.toNat - 1) (u - 1), pc := x.pc + if u = 1 then 4 else 4 * disp })) ∧
    exec (.jal c rd 0 disp) s = .next (onlyCore s c fun x =>
      { x with w := if rd = 0 then x.w else setNth x.w (rd.toNat - 1) (tienoPc s c 4), pc := x.pc + 4 * disp }) ∧
    (t.toNat % 4 = 0 → exec (.jalr c rd a imm) s = .next (onlyCore s c fun x =>
      { x with
        w := if rd = 0 then x.w else setNth x.w (rd.toNat - 1) (tienoPc s c 4)
        bk := setNth x.bk 7 (BitVec.ofNat 16 (t.toNat / 65536)), pc := BitVec.ofNat 16 (t.toNat % 65536) })) ∧
    (t.toNat % 4 ≠ 0 → systemLevel s c →
      exec (.jalr c rd a imm) s = .next (tienoEntered s c 0x00030000 (tienoPc s c 0) t))

/-- Loads from SRAM (R419, R427): the bytes that the core observes, extended as the instruction says; the L1 may gain the line,
and nothing else changes but `rt` and PC. Stores to SRAM: the low bytes of w[rt] at the data address, little-endian, as the core
observes its memory; every other byte that it observes, its registers but PC, every other core and all memory behind the L1 are
as before. -/
def Obligations.TienoLoadsAndStores : Prop :=
  (∀ (s : State) (c : CoreId) (rt base : BitVec 5) (bank : BitVec 3) (off : BitVec 13) (x : Area),
    let a := tienoData s c base bank off
    let t := l1Fill s c.val x a
    (sramAccess s c x a 1 .read →
      let b := nth 0 (seenBytes s c x a 1) 0
      exec (.lb c rt base bank off) s = .next (tienoWrote t c rt (BitVec.ofInt 32 b.toInt)) ∧
      exec (.lbu c rt base bank off) s = .next (tienoWrote t c rt (BitVec.ofNat 32 b.toNat))) ∧
    (sramAccess s c x a 2 .read →
      let h := fromLe (seenBytes s c x a 2)
      exec (.lh c rt base bank off) s = .next (tienoWrote t c rt (BitVec.ofInt 32 (BitVec.ofNat 16 h).toInt)) ∧
      exec (.lhu c rt base bank off) s = .next (tienoWrote t c rt (BitVec.ofNat 32 h))) ∧
    (sramAccess s c x a 4 .read →
      exec (.lw c rt base bank off) s = .next (tienoWrote t c rt (BitVec.ofNat 32 (fromLe (seenBytes s c x a 4)))))) ∧
  (∀ (s : State) (c : CoreId) (rt base : BitVec 5) (bank : BitVec 3) (off : BitVec 13) (x : Area),
    let a := tienoData s c base bank off
    let v := (core s c.val).getW rt
    ∀ i n, (i, n) ∈ [(Instr.sb c rt base bank off, 1), (Instr.sh c rt base bank off, 2), (Instr.sw c rt base bank off, 4)] →
      sramAccess s c x a n .write →
      ∃ t, exec i s = .next t ∧
        { t with cores := s.cores } = s ∧ (∀ d, d ≠ c.val → core t d = core s d) ∧
        { core t c.val with l1 := (core s c.val).l1 } = { core s c.val with pc := (core s c.val).pc + 4 } ∧
        ∀ (y : Area) (b : Nat), areaOf s b = some y → y.cached = true →
          seenBytes t c y b 1 =
            if a ≤ b ∧ b < a + n then [BitVec.ofNat 8 (v.toNat / 256 ^ (b - a))] else seenBytes s c y b 1)

/-- A misaligned load or store (R422) and one that its controller refuses (R430) raise their exceptions with the data address in
EADDR (R440) and make no access. -/
def Obligations.TienoAccessExceptions : Prop :=
  ∀ (s : State) (c : CoreId) (rt base : BitVec 5) (bank : BitVec 3) (off : BitVec 13), systemLevel s c →
    let a := tienoData s c base bank off
    (∀ i n, (i, n) ∈ [(Instr.lh c rt base bank off, 2), (.lhu c rt base bank off, 2), (.lw c rt base bank off, 4)] →
      a % n ≠ 0 → exec i s = .next (tienoEntered s c 0x00050000 (tienoPc s c 0) (BitVec.ofNat 32 a))) ∧
    (∀ i n, (i, n) ∈ [(Instr.sh c rt base bank off, 2), (.sw c rt base bank off, 4)] →
      a % n ≠ 0 → exec i s = .next (tienoEntered s c 0x00060000 (tienoPc s c 0) (BitVec.ofNat 32 a))) ∧
    (∀ i n, (i, n) ∈ [(Instr.lb c rt base bank off, 1), (.lbu c rt base bank off, 1), (.lh c rt base bank off, 2),
        (.lhu c rt base bank off, 2), (.lw c rt base bank off, 4)] →
      beatsPass s (initOf s c.val) → a % n = 0 → granted s (initOf s c.val) a .read = false →
      exec i s = .next
        (tienoEntered (refuse s (initOf s c.val) a 1 .read) c 0x00070000 (tienoPc s c 0) (BitVec.ofNat 32 a))) ∧
    (∀ i n, (i, n) ∈ [(Instr.sb c rt base bank off, 1), (.sh c rt base bank off, 2), (.sw c rt base bank off, 4)] →
      beatsPass s (initOf s c.val) → a % n = 0 → granted s (initOf s c.val) a .write = false →
      exec i s = .next
        (tienoEntered (refuse s (initOf s c.val) a 1 .write) c 0x00080000 (tienoPc s c 0) (BitVec.ofNat 32 a)))

/-- SYS, RET within System level, FENCE, WFT, MTBK and MFBK on a core at System level (R435, R437, R438, R446). -/
def Obligations.TienoSystemInstructions : Prop :=
  ∀ (s : State) (c : CoreId) (rd a : BitVec 5) (sel : BitVec 12), runs s c.val = true → (core s c.val).level = false →
    (systemLevel s c →
      exec (.sys c 0 0 sel) s = .next (tienoEntered s c (0x00090000 + sel.setWidth 32) (tienoPc s c 4) 0)) ∧
    ((core s c.val).eLevel = false → exec (.ret c 0 0 0) s = .next (onlyCore s c fun x =>
      { x with
        bk := setNth x.bk 7 (BitVec.ofNat 16 (x.epc.toNat / 65536)), pc := BitVec.ofNat 16 (x.epc.toNat % 65536)
        level := false, ie := x.eIe, exc := false, curPart := 0 })) ∧
    exec (.fence c 0 0 0) s = .next (onlyCore s c fun x => { x with pc := x.pc + 4 }) ∧
    (sel.toNat < 8 → ∃ t, exec (.fence c 0 0 sel) s = .next t ∧
      { t with cores := s.cores, mem := s.mem, srm := s.srm } = s ∧
      { core t c.val with l1 := (core s c.val).l1 } = { core s c.val with pc := (core s c.val).pc + 4 } ∧
      (sel.getLsbD 1 = true → (core t c.val).l1 = []) ∧
      (sel.getLsbD 1 = false → sel.getLsbD 0 = true →
        (core t c.val).l1 = (core s c.val).l1.map fun l => { l with dirty := false })) ∧
    ((core s c.val).ip &&& (core s c.val).ien = 0 →
      exec (.wft c rd 0 0) s = .next (onlyCore s c fun x => { x with waiting := some rd, pc := x.pc + 4 })) ∧
    ((core s c.val).ip &&& (core s c.val).ien ≠ 0 →
      exec (.wft c rd 0 0) s = .next (tienoWrote s c rd (BitVec.ofNat 32 s.gen.a.toNat))) ∧
    (sel.toNat < 7 → exec (.mtbk c 0 a sel) s = .next (onlyCore s c fun x =>
      { x with bk := setNth x.bk sel.toNat (BitVec.ofNat 16 (((core s c.val).getW a).toNat / 65536)), pc := x.pc + 4 })) ∧
    (sel.toNat < 8 → exec (.mfbk c rd 0 sel) s =
      .next (tienoWrote s c rd (BitVec.ofNat 32 ((nth 0 (core s c.val).bk sel.toNat).toNat * 65536))))

/-- CSR instructions at System level (R436, R449): a read returns the register, an exchange writes rd with the old value; a CSRR
of TICK_LO latches TICK_HI from the same count; IP is written by ones. -/
def Obligations.TienoCsrInstructions : Prop :=
  ∀ (s : State) (c : CoreId) (rd a : BitVec 5), runs s c.val = true → (core s c.val).level = false →
    let x := core s c.val
    let v := x.getW a
    let next := fun (old : Word) (f : CoreSt → CoreSt) => (Host.Outcome.next (onlyCore s c fun x =>
      { f x with w := if rd = 0 then x.w else setNth x.w (rd.toNat - 1) old, pc := x.pc + 4 }) : Out)
    (∀ n r, (n, r) ∈ [(0x002, x.epc), (0x003, x.ecause), (0x004, x.eaddr), (0x005, x.evec), (0x006, x.escratch),
        (0x010, x.ien.setWidth 32), (0x011, x.ip.setWidth 32), (0x031, x.cycleH), (0x041, x.tickHi)] →
      exec (.csrr c rd 0 n) s = .next (tienoWrote s c rd r)) ∧
    exec (.csrr c rd 0 0x040) s = next (s.gen.a.setWidth 32) (fun x => { x with tickHi := (s.gen.a >>> 32).setWidth 32 }) ∧
    exec (.csrw c rd a 0x002) s = next x.epc (fun x => { x with epc := v }) ∧
    exec (.csrs c rd a 0x002) s = next x.epc (fun x => { x with epc := x.epc ||| v }) ∧
    exec (.csrc c rd a 0x002) s = next x.epc (fun x => { x with epc := x.epc &&& ~~~v }) ∧
    exec (.csrs c rd a 0x010) s = next (x.ien.setWidth 32) (fun x => { x with ien := x.ien ||| v.setWidth 6 }) ∧
    exec (.csrw c rd a 0x011) s = next (x.ip.setWidth 32) (fun x => { x with ip := x.ip &&& ~~~(v.setWidth 6) }) ∧
    (v.toNat % 4 = 0 → exec (.csrw c rd a 0x005) s = next x.evec (fun x => { x with evec := v })) ∧
    (systemLevel s c → ∀ n ∈ [0x003, 0x004, 0x030, 0x031, 0x040, 0x041, 0x042, 0x050],
      exec (.csrw c rd a n) s = .next (tienoEntered s c 0x00010000 (tienoPc s c 0) 0))

/-- An interrupt at System level with `STATUS.IE` 1 (R448): the lowest line pending and enabled. Without one, or with
`STATUS.IE` 0, no interrupt is taken. At Program level (R443): RET and a CSR exchange raise privileged-instruction exceptions
and WFT a wait request; the core enters the handler at System level with its registers as they were, after the switch of R395
emptied its L1. -/
def Obligations.TienoInterruptsAndProgramLevel : Prop :=
  (∀ (s : State) (c : CoreId), runs s c.val = true → (core s c.val).level = false →
    let p := (core s c.val).ip &&& (core s c.val).ien
    (∀ n, n < 6 → (core s c.val).ie = true → p.getLsbD n = true → (∀ m, m < n → p.getLsbD m = false) →
      exec (.interruptEntry c) s = .next (tienoEntered s c (BitVec.ofNat 32 (2 ^ 31 + n * 65536)) (tienoPc s c 0) 0)) ∧
    ((core s c.val).ie = false ∨ p = 0 → exec (.interruptEntry c) s = .next s)) ∧
  (∀ (s : State) (c : CoreId) (rd a : BitVec 5), runs s c.val = true → (core s c.val).level = true →
    (core s c.val).exc = false →
    let x := core s c.val
    ∀ i code epc, (i, code, epc) ∈ [(Instr.ret c 0 0 0, 0x00020000, tienoPc s c 0),
        (Instr.csrw c rd a 0x002, 0x00020000, tienoPc s c 0), (Instr.csrs c rd a 0x006, 0x00020000, tienoPc s c 0),
        (Instr.csrc c rd a 0x010, 0x00020000, tienoPc s c 0), (Instr.csrr c rd 0 0x002, 0x00020000, tienoPc s c 0),
        (Instr.wft c rd 0 0, 0x000A0000, tienoPc s c 4), (Instr.sys c 0 0 0, 0x00090000, tienoPc s c 4)] →
      ∃ t, exec i s = .next t ∧ core t c.val =
        { x with
          eLevel := true, eIe := x.ie, epc := epc, ecause := code, eaddr := 0, level := false, ie := false, exc := true
          curPart := 0, l1 := [], bk := setNth x.bk 7 (BitVec.ofNat 16 (x.evec.toNat / 65536))
          pc := BitVec.ofNat 16 (x.evec.toNat % 65536) })

/-! ### Registers, doorbells, mailbox (spec/01, spec/02, spec/04, spec/05) -/

/-- REGISTER_WRITE and HST_VEC_WRITE through a port that takes them: a scratch register holds the word; RW1C fields lose the
bits written 1 and no others; a count register clears on bit 31 alone; a read-only register keeps its value; HST_VEC takes in-
range table sizes while no port enables VFs (R559). Nothing else changes. A write at an unassigned offset, and any access that
is misaligned or of another size, is counted in ATR_ACCESS_ERR with its offset and has no other effect; the reads return zero
and 0xFFFF_FFFF (R20, R21). -/
def Obligations.RegisterAccessEffects : Prop :=
  (∀ (s : State) (port : Half) (v : Word), takesAccess s port 0 →
    let w := fun off => exec (.registerWrite port 0 (.bar0 off) v) s
    w 0x3C = .next { s with atr := { s.atr with scratch := v } } ∧
    w 0x24 = .next { s with atr := { s.atr with event := s.atr.event &&& ~~~(v.setWidth 5) } } ∧
    w 0xE0028 = .next { s with lanes := { s.lanes with unresolved := if v.getLsbD 31 then 0 else s.lanes.unresolved } } ∧
    w 0xC0020 = .next { s with srm := { s.srm with corrected := if v.getLsbD 31 then 0 else s.srm.corrected } } ∧
    w 0x4000C = .next { s with rcd := { s.rcd with sel := v.setWidth 12 } } ∧
    w 0x00 = .next s ∧ w 0x20 = .next s ∧ w 0x60000 = .next s ∧
    (s.hst.port.cope.vfEnable = false → s.hst.port.drag.vfEnable = false →
      let pf := v.toNat % 4096
      let vf := v.toNat / 65536 % 256
      exec (.hstVecWrite port v) s =
        if 3 ≤ pf ∧ 2 ≤ vf ∧ pf + 255 * vf ≤ 2048 then
          .next { s with hst := { s.hst with vecPf := BitVec.ofNat 12 pf, vecVf := BitVec.ofNat 8 vf } }
        else .next s) ∧
    (s.hst.port.cope.vfEnable = true → exec (.hstVecWrite port v) s = .next s)) ∧
  (∀ (s : State) (port : Half) (fn : Gallery) (off : BitVec 21) (size : Nat), takesAccess s port fn.toNat →
    let t : State := { s with atr := { s.atr with
      errCount := if s.atr.errCount = 1023 then 1023 else s.atr.errCount + 1, errLast := off } }
    (assignedAt fn.toNat off.toNat = false →
      exec (.unassignedAccess port fn off true) s = .next t ∧
      exec (.unassignedAccess port fn off false) s = .next { s with response := 0 }) ∧
    (¬((size = 4 ∨ size = 8) ∧ off.toNat % size = 0) →
      exec (.misalignedAccess port fn off size true) s = .next t ∧
      exec (.misalignedAccess port fn off size false) s = .next { t with response := 0xFFFFFFFF }))

/-- A read of ATR_TICK_LO returns bits 31:0 of the tick count and latches bits 55:32 of the same count for the next read of
ATR_TICK_HI through the same port, whatever happens to the count meanwhile; the other port's latch is as before. A read of
ATR_TICK_HI returns the port's latch and changes nothing else; one read of eight bytes returns the whole count (R54). -/
def Obligations.TickLoReadLatchesTickHi : Prop :=
  ∀ (s : State) (port : Half),
    (∃ t, exec (.tickLoRead ⟨port, .lo⟩) s = .next t ∧
      t.response.toNat = s.gen.a.toNat % 2 ^ 32 ∧
      (∀ u : State, u.gen.hiLatch = t.gen.hiLatch → ∃ v, exec (.tickLoRead ⟨port, .hi⟩) u = .next v ∧
        v.response.toNat * 2 ^ 32 + t.response.toNat = s.gen.a.toNat) ∧
      t.gen.hiLatch.get (other port) = s.gen.hiLatch.get (other port) ∧
      { t with gen := s.gen, response := s.response } = s) ∧
    exec (.tickLoRead ⟨port, .hi⟩) s = .next { s with response := (s.gen.hiLatch.get port).setWidth 32 } ∧
    (∃ t, exec (.tickLoRead ⟨port, .both⟩) s = .next t ∧ t.gen.upper.toNat * 2 ^ 32 + t.response.toNat = s.gen.a.toNat ∧
      { t with gen := s.gen, response := s.response } = s)

/-- Doorbells of an active gallery (R109, R110): a stale generation or an index without a queue counts in STALE, an index out of
range in INVALID, both as saturating counts; any other index becomes the producer or consumer index. The admin pair (R111,
R112): ENABLE while READY is 0 takes the fields and waits for the next parting window; the decision there creates the pair and
sets READY when every check passes, else sets REFUSED and clears ENABLE; before it nothing is decided. ENABLE 0 while READY is 1
clears ENABLE and makes the submission queue CLOSING from the tick of the next parting window (its end there is log entry 85's);
a second one changes nothing. -/
def Obligations.DoorbellsAndAdminPair : Prop :=
  (∀ (s : State) (port : Half) (g : Gallery) (i : QIndex) (v : Word), takesAccess s port g.toNat →
    (gal s g.toNat).state = .active →
    let k := 64 * g.toNat + i.toNat
    let gen := v.toNat / 2 ^ 28
    let ix := v.toNat % 2 ^ 17
    let q := sq s k
    let c := cq s k
    let okP := ix < 2 * 2 ^ q.depthLog2 ∧ ringDist q.depthLog2 ix q.ci ≤ 2 ^ q.depthLog2 ∧
      ringDist q.depthLog2 ix q.pi ≤ ringDist q.depthLog2 ix q.ci
    let okC := ix < 2 * 2 ^ c.depthLog2 ∧ ringDist c.depthLog2 ix c.ci ≤ ringDist c.depthLog2 c.pi c.ci
    let q' : Sq :=
      if q.exist = false ∨ q.gen.toNat ≠ gen then { q with stale := if q.stale < 65535 then q.stale + 1 else 65535 }
      else if okP then { q with pi := ix }
      else { q with invalid := if q.invalid < 32767 then q.invalid + 1 else 32767 }
    let c' : Cq :=
      if c.exist = false ∨ c.gen.toNat ≠ gen then { c with stale := if c.stale < 65535 then c.stale + 1 else 65535 }
      else if okC then { c with ci := ix }
      else { c with invalid := if c.invalid < 32767 then c.invalid + 1 else 32767 }
    exec (.sqDoorbellWrite port g i v) s = .next { s with sqs := s.sqs.put {} k q' } ∧
    exec (.cqDoorbellWrite port g i v) s = .next { s with cqs := s.cqs.put {} k c' }) ∧
  (∀ (s : State) (port : Half) (g : Gallery) (v : Word), (fnCfg s port g.toNat).flrEnd = none → (gal s g.toNat).state = .active →
    let n := g.toNat
    let a := (gv s n).aq
    let ok := (s.lcs.session = false ∨ n = 0) ∧ cqCheck s (64 * n) (aqSpec a) = none ∧
      sqCheck s (64 * n) 0 a.sqDepth.toNat a.sqBase true = none
    let next := if s.gen.windowDone then s.gen.a.toNat + 1 else s.gen.a.toNat
    (a.ready = false → ∃ t, exec (.aqEnableWrite port g v) s = .next t ∧ { t with galv := s.galv } = s ∧
      (gv t n).aq = { a with
        enable := true, deciding := true, refused := false, vector := BitVec.ofNat 11 (v.toNat / 2 ^ 20)
        intEn := v.getLsbD 19, portB := v.getLsbD 16, cqDepth := BitVec.ofNat 5 (v.toNat / 2 ^ 11)
        sqDepth := BitVec.ofNat 5 (v.toNat / 2 ^ 6), due := next }) ∧
    (a.ready = true → exec (.aqEnableWrite port g v) s = .next s) ∧
    (a.deciding = true → s.gen.windowDone = true → a.due ≤ s.gen.a.toNat → ok → ∃ t, exec (.aqEnableDecide g) s = .next t ∧
      (gv t n).aq.ready = true ∧ (gv t n).aq.deciding = false ∧
      (sq t (64 * n)).exist = true ∧ (sq t (64 * n)).admin = true ∧ (sq t (64 * n)).gen = (sq s (64 * n)).gen + 1 ∧
      (cq t (64 * n)).exist = true ∧ (cq t (64 * n)).holdLog2 = 4 ∧ (cq t (64 * n)).gen = (cq s (64 * n)).gen + 1 ∧
      { t with galv := s.galv, sqs := s.sqs, cqs := s.cqs } = s) ∧
    (a.deciding = true → s.gen.windowDone = true → a.due ≤ s.gen.a.toNat → ¬ok → ∃ t, exec (.aqEnableDecide g) s = .next t ∧
      (gv t n).aq = { a with refused := true, enable := false, deciding := false } ∧ { t with galv := s.galv } = s) ∧
    (a.deciding = false ∨ s.gen.windowDone = false ∨ s.gen.a.toNat < a.due → exec (.aqEnableDecide g) s = .next s) ∧
    (a.ready = true → a.closing = false → ∃ t, exec (.aqDisable port g) s = .next t ∧
      (gv t n).aq = { a with enable := false, closing := true } ∧ (sq t (64 * n)).closing = true ∧
      (sq t (64 * n)).closeTick = next ∧ (sq t (64 * n)).exist = (sq s (64 * n)).exist ∧
      { t with galv := s.galv, sqs := s.sqs, jobs := s.jobs, reads := s.reads, adm := s.adm } = s) ∧
    (a.ready = true → a.closing = true → exec (.aqDisable port g) s = .next s))

/-- The mailbox (R99, R100): RING sets BUSY or FULL and the pending bit or, at the next parting window, the gallery's event
(R104), ACK clears it; while the bit stands the writes of that side, its RING among them, are ignored, as is a RING of more than
2,032 bytes and an ACK of a clear bit. -/
def Obligations.MailboxHandshake : Prop :=
  ∀ (s : State) (port : Half) (g : Gallery) (off : BitVec 21) (v : Word), takesAccess s port g.toNat → takesAccess s port 0 → g ≠ 0 →
    (gal s g.toNat).state = .active → s.mbxSel = g →
    let m := (gv s g.toNat).mbx
    (m.busy = false → m.outLen.toNat ≤ 2032 → ∃ t, exec (.mbxOutRing port g) s = .next t ∧
      (gv t g.toNat).mbx = { m with busy := true } ∧ t.mbxPending.getLsbD g.toNat = true ∧
      t.sqs = s.sqs ∧ t.cqs = s.cqs ∧ t.gals = s.gals ∧ t.jobs = s.jobs) ∧
    (m.busy = true ∨ 2032 < m.outLen.toNat → exec (.mbxOutRing port g) s = .next s) ∧
    (m.busy = true → ∃ t, exec (.mbxCuratorAck port) s = .next t ∧
      (gv t g.toNat).mbx = { m with busy := false } ∧ (gv t g.toNat).eventDue.getLsbD 5 = true ∧
      (gv t g.toNat).event = (gv s g.toNat).event ∧ t.mbxPending = s.mbxPending) ∧
    (m.busy = false → exec (.mbxCuratorAck port) s = .next s) ∧
    (m.full = false → m.inLen.toNat ≤ 2032 → ∃ t, exec (.mbxInRing port) s = .next t ∧
      (gv t g.toNat).mbx = { m with full := true } ∧ (gv t g.toNat).eventDue.getLsbD 4 = true ∧
      { t with galv := s.galv } = s) ∧
    (m.full = true ∨ 2032 < m.inLen.toNat → exec (.mbxInRing port) s = .next s) ∧
    (m.full = true → ∃ t, exec (.mbxGalleryAck port g) s = .next t ∧
      (gv t g.toNat).mbx = { m with full := false } ∧ t.mbxAcked.getLsbD g.toNat = true) ∧
    (m.full = false → exec (.mbxGalleryAck port g) s = .next s) ∧
    (m.busy = true → 0x1000 ≤ off.toNat → off.toNat < 0x17F8 → exec (.registerWrite port g (.bar0 off) v) s = .next s) ∧
    (m.full = true → 0xF8800 ≤ off.toNat → off.toNat < 0xF8FF8 → exec (.registerWrite port 0 (.bar0 off) v) s = .next s)

/-! ### The tick (spec/02) -/

/-- The tick boundary (R51): after the parting window of its tick the count rises by one in both copies, modulo 2^56; no
earlier. The parting window runs once in a tick; it ends with the tick's mark set unless the part is reset or restarted within
it. The share-period boundary clears the fills charged and reports the placement's shortfall (R28, R41, R157). -/
def Obligations.TickBoundaryAndPartingWindow : Prop :=
  (∀ s : State, (s.gen.windowDone = true → ∃ t, exec .tickBoundary s = .next t ∧
      t.gen = { s.gen with a := s.gen.a + 1, b := s.gen.b + 1, windowDone := false }) ∧
    (s.gen.windowDone = false → exec .tickBoundary s = .next s)) ∧
  (∀ s : State, s.pwr.phase ≠ .off →
    (s.gen.windowDone = false → ∃ t, exec .partingWindow s = .next t ∧
      (t.gen.windowDone = true ∨ tick t ≠ tick s ∨ t.pwr.phase ≠ s.pwr.phase)) ∧
    (s.gen.windowDone = true → exec .partingWindow s = .next s) ∧
    (tick s % 128 = 0 → ∃ t, exec .sharePeriodBoundary s = .next t ∧ ∀ g, (gv t g).fills = ⟨0, 0⟩) ∧
    (tick s % 128 = 0 → (∀ h, counting s (halfSrc h 3) = false ∧ (s.lanes.half.get h).assay = none ∧
        classify s (halfSrc h 3) 1 < 2 ∧ (s.lanes.half.get h).ending < 65536) →
      ∃ t, exec .sharePeriodBoundary s = .next t ∧
        ∀ h, (t.lanes.half.get h).shortfall.toNat = (s.lanes.half.get h).ending) ∧
    (tick s % 128 ≠ 0 → exec .sharePeriodBoundary s = .next s))

/-! ### Faults (spec/16) -/

/-- A corrected event outside counting mode (R469, R470): its status bit and its bit of the corrected word are set, its syndrome
is latched, its count rises; nothing changes but the collector, the recorder's counts and interrupt line FAULT. A contained
event outside counting mode takes its containment action (R469, R470): a lane or Cupola unit is to retire, a half of a Floor
memory that fails is to be reset in the window of its tick, or of the next when it latched at cycle 1,212 or later (R480). -/
def Obligations.CorrectedAndContainedFaults : Prop :=
  (∀ (s : State) (n : BitVec 6) (unit : Byte) (info : BitVec 16) (cycle : Nat),
    outsideCounting s n.toNat unit.toNat → nativeOk n.toNat 0 = true → (fltSrc s n.toNat).cls = 0 →
    ∃ t, exec (.faultEvent n .corrected unit info cycle false) s = .next t ∧
      { t with flt := s.flt, rcd := s.rcd, cores := s.cores } = s ∧
      (∀ i, t.flt.status.getLsbD i = (s.flt.status.getLsbD i || decide (i = n.toNat))) ∧
      (∀ i, t.flt.corr.getLsbD i = (s.flt.corr.getLsbD i || decide (i = n.toNat))) ∧
      t.flt.cont = s.flt.cont ∧ t.flt.fatal = s.flt.fatal ∧
      (fltSrc t n.toNat).syn = (0 : Byte) ++ (unit ++ if n = 6 ∨ n = 7 then 0 else info) ∧
      (fltSrc t n.toNat).count.toNat = Nat.min (2 ^ 31 - 1) ((fltSrc s n.toNat).count.toNat + 1) ∧
      (∀ m, m ≠ n.toNat → fltSrc t m = fltSrc s m)) ∧
  (∀ (s : State) (h : Half) (unit : Byte) (info : BitVec 16) (cycle : Nat),
    (∀ i, outsideCounting s (halfSrc h i) unit.toNat) → (∀ i, (fltSrc s (halfSrc h i)).cls ≤ 1) →
    (∃ t, exec (.faultEvent (BitVec.ofNat 6 (halfSrc h 1)) .contained unit info cycle false) s = .next t ∧
      (t.lanes.half.get h).toRetire = (s.lanes.half.get h).toRetire ++ [(unit.toNat % 40, 3)] ∧
      t.flt.cont.getLsbD (halfSrc h 1) = true ∧ t.flt.status.getLsbD (halfSrc h 1) = true) ∧
    (∃ t, exec (.faultEvent (BitVec.ofNat 6 (halfSrc h 5)) .contained unit info cycle false) s = .next t ∧
      t.cup.toRetire.get h = s.cup.toRetire.get h ++ [(unit.toNat % 9, 3)] ∧ t.flt.cont.getLsbD (halfSrc h 5) = true) ∧
    (s.atr.half.get h = .serving → s.flt.halfReset.get h = none →
      ∃ t, exec (.faultEvent (BitVec.ofNat 6 (halfSrc h 9)) .contained unit info cycle false) s = .next t ∧
        t.flt.halfReset.get h =
          some (if cycle < 1212 ∧ s.gen.windowDone = false then s.gen.a.toNat else s.gen.a.toNat + 1)))

/-- A fatal event, whatever the class in force, writes its source and UNIT to FLT_LAST_FATAL and resets the device; the two tick
generators differing is such an event of source 0 (R52, R470, R479). SYS_RESET_N (R586) and PWR_RESET_CTL (R584): a low level of
1 µs or longer resets the device, a shorter one does nothing; the rising edge continues from step 2; the keyed write of DEVICE
resets the device with cause 5, any other word does not. -/
def Obligations.FatalFaultsAndDeviceResets : Prop :=
  (∀ (s : State) (n : BitVec 6) (unit : Byte) (info : BitVec 16) (cycle : Nat), s.pwr.phase ≠ .off →
    (nativeOk n.toNat 2 = true → ∃ t, exec (.faultEvent n .fatal unit info cycle false) s = .next t ∧
      deviceWasReset s t (if n = 15 then 7 else 2) ∧
      t.flt.lastValid = true ∧ t.flt.lastSource = n ∧ t.flt.lastUnit = unit) ∧
    (∃ t, exec .tickCompareMismatch s = .next t ∧ deviceWasReset s t 2 ∧
      t.flt.lastValid = true ∧ t.flt.lastSource = 0 ∧ t.flt.lastUnit = 0)) ∧
  (∀ (s : State) (ns : Nat) (v : Word),
    (s.pwr.sysResetLow = false → s.pwr.phase ≠ .off → 1000 ≤ ns → ∃ t, exec (.sysResetNAssert ns) s = .next t ∧
      deviceWasReset s t 1 ∧ t.pwr.sysResetLow = true ∧ t.pwr.phase = .held) ∧
    (ns < 1000 → exec (.sysResetNAssert ns) s = .next s) ∧
    (s.pwr.phase = .held → s.pwr.ftEn = false →
      exec .sysResetNRelease s = .next { s with pwr := { s.pwr with sysResetLow := false, phase := .step2 } }) ∧
    (s.pwr.phase ≠ .off → v.toNat / 2 ^ 24 = 0xA5 → v.getLsbD 0 = true →
      ∃ t, exec (.pwrResetCtlDevice v) s = .next t ∧ deviceWasReset s t 5) ∧
    (v.toNat / 2 ^ 24 ≠ 0xA5 ∨ v.getLsbD 0 = false → exec (.pwrResetCtlDevice v) s = .next s))

/-- FLT_STATUS written with a mask (R477): a bit is cleared, with its class bits, unless its pin is still asserted; each such
refusal is counted. Nothing else of the part changes. Counting mode ends when its interval has run out, not before; a half's
count of failed pours returns to 0 (R473, R475). -/
def Obligations.FaultClearAndCountingMode : Prop :=
  (∀ (s : State) (mask : BitVec 64), ∃ t, exec (.fltStatusClear mask) s = .next t ∧
    (∀ i, i < 64 →
      let goes := mask.getLsbD i && !(s.flt.status.getLsbD i && pinAsserted s i)
      t.flt.status.getLsbD i = (s.flt.status.getLsbD i && !goes) ∧ t.flt.corr.getLsbD i = (s.flt.corr.getLsbD i && !goes) ∧
      t.flt.cont.getLsbD i = (s.flt.cont.getLsbD i && !goes) ∧ t.flt.fatal.getLsbD i = (s.flt.fatal.getLsbD i && !goes)) ∧
    t.flt.clearRefused.toNat = Nat.min (2 ^ 31 - 1) (s.flt.clearRefused.toNat +
      ((List.range 64).filter fun i => mask.getLsbD i && s.flt.status.getLsbD i && pinAsserted s i).length) ∧
    { t with flt := { t.flt with
      status := s.flt.status, corr := s.flt.corr, cont := s.flt.cont, fatal := s.flt.fatal
      clearRefused := s.flt.clearRefused } } = s) ∧
  (∀ (s : State) (h : Half) (e : Nat),
    (s.flt.endAtrium = some e → exec (.countingModeEnd .atrium) s = .next (if e ≤ s.gen.a.toNat then
      { s with flt := { s.flt with countAtrium := false, endAtrium := none } } else s)) ∧
    (s.flt.endHalf.get h = some e → e ≤ s.gen.a.toNat → ∃ t, exec (.countingModeEnd (.half h)) s = .next t ∧
      { t with flt := s.flt } = s ∧ t.flt.countHalf.get h = false ∧ t.flt.failedPours.get h = 0 ∧
      t.flt.endHalf.get h = none ∧ t.flt.countHalf.get (other h) = s.flt.countHalf.get (other h)) ∧
    (s.flt.endHalf.get h = some e → s.gen.a.toNat < e → exec (.countingModeEnd (.half h)) s = .next s))

/-! ### Power, start, reset (spec/21) -/

/-- Feeds, the cell and PERST (R572 to R580, R598): what each event leaves. -/
def Obligations.FeedAndPinEvents : Prop :=
  ∀ (s : State) (h : Half) (low : BitVec 6),
    ((s.pwr.feed.get h).valid = false → (s.pwr.feed.get h).failedRise = false → s.pwr.phase = .off → s.pwr.sysResetLow = false →
      s.pwr.ftEn = false → ∃ t, exec (.feedValid h) s = .next t ∧ (t.pwr.feed.get h).valid = true ∧ t.pwr.phase = .step1 ∧
      t.gen = {} ∧ t.atr.srcB = decide (h = .drag) ∧ t.gals = s.gals ∧ t.lcs.fuses = s.lcs.fuses ∧
      t.tmp.powerCycles.toNat = Nat.min (2 ^ 32 - 1) (s.tmp.powerCycles.toNat + 1)) ∧
    ((s.pwr.feed.get h).valid = false → ∃ t, exec (.feedRiseTimeout h) s = .next t ∧ { t with pwr := s.pwr } = s ∧
      (t.pwr.feed.get h).failedRise = true ∧ t.pwr.feed.get (other h) = s.pwr.feed.get (other h) ∧
      exec (.feedValid h) t = .next t) ∧
    ((s.pwr.feed.get h).valid = true → (s.pwr.feed.get (other h)).valid = false → ∃ t, exec (.feedLoss h low) s = .next t ∧
      t.pwr.phase = .off ∧ (t.pwr.feed.get h).valid = false ∧
      (t.pwr.feed.get h).lowSeen = (s.pwr.feed.get h).lowSeen ||| low ∧ t.lcs.fuses = s.lcs.fuses) ∧
    (let src : Half := if s.atr.srcB then .drag else .cope
     s.pwr.phase ≠ .off → (s.pwr.feed.get src).valid = false → (s.pwr.feed.get (other src)).valid = true →
      counting s 9 = false → (fltSrc s 9).cls = 0 →
      ∃ t, exec .atriumSwitchover s = .next t ∧ t.atr.srcB = !s.atr.srcB ∧
        t.pwr.switchovers.toNat = Nat.min (2 ^ 31 - 1) (s.pwr.switchovers.toNat + 1) ∧ t.gen = s.gen) ∧
    (s.pwr.phase = .off → s.pwr.cellOnly = false → ∃ t, exec .cellOnlyEntry s = .next t ∧
      t.pwr.cellOnly = true ∧ t.tmp.cellMs = 0 ∧ t.tmp.log = s.tmp.log ∧ t.srm.epoch0 = s.srm.epoch0 ∧
      t.srm.epoch1 = s.srm.epoch1) ∧
    (s.pwr.phase = .off → ∃ t, exec .vcellLoss s = .next t ∧ t.srm.epoch0 = none ∧ t.srm.epoch1 = none ∧ t.srm.lines = [] ∧
      t.srm.maskSeed = none ∧ t.srm.atStart = true ∧ t.srm.bank = s.srm.bank) ∧
    (s.pwr.phase ≠ .off → ∃ t, exec .vcellLoss s = .next t ∧ t.srm = s.srm ∧ t.pwr.vcell = false) ∧
    ((s.hst.port.get h).linkUp = false → ∃ t, exec (.perstAssert h) s = .next t ∧ { t with hst := s.hst } = s ∧
      (t.hst.port.get h).perstLow = true ∧ t.hst.port.get (other h) = s.hst.port.get (other h)) ∧
    ((s.hst.port.get h).linkUp = true → ∃ t, exec (.perstAssert h) s = .next t ∧
      (t.hst.port.get h).perstLow = true ∧ (t.hst.port.get h).linkUp = false) ∧
    (∃ t, exec (.perstRelease h) s = .next t ∧ { t with hst := s.hst } = s ∧ (t.hst.port.get h).perstLow = false ∧
      ((s.hst.port.get h).perstLow = true → (t.hst.port.get h).trainFrom = s.gen.a.toNat + 100) ∧
      { t.hst.port.get h with perstLow := (s.hst.port.get h).perstLow, trainFrom := (s.hst.port.get h).trainFrom } =
        s.hst.port.get h)

/-- COLD_START (R583): the first start in BLANK waits for the key-generation DRBG, then burns a root of 48 bytes and ST_TEST and
resets the part (R369); in END OF LIFE the wipe clears epochs, galleries and banks and burns WIPED (R371); a part on
DEVICE_HOLD, or with no Mould in any slot, waits in recovery (R476, R68); in any other phase the row does nothing. -/
def Obligations.ColdStartByLifeCycle : Prop :=
  ∀ s : State, s.lcs.intents = ⟨[], []⟩ → s.srm.atStart = false →
    (s.pwr.phase = .step1 ∨ s.pwr.phase = .step2 →
      let f := s.lcs.fuses
      (fused s = .blank → burned f.rootAValid = false → f.rootASpoiled = false → drbgReady s 2 = false →
        ∃ t, exec .coldStart s = .next t ∧ t.lcs.fuses = f ∧ t.pwr.phase = .step2 ∧ t.gen = s.gen) ∧
      (fused s = .blank → burned f.rootAValid = false → f.rootASpoiled = false → drbgReady s 2 = true →
        ∃ t, exec .coldStart s = .next t ∧ t.gen = {} ∧ burned t.lcs.fuses.stTest = true ∧ burned t.lcs.fuses.rootAValid = true ∧
        t.lcs.fuses.rootA.length = 48 ∧
        { t.lcs.fuses with stTest := f.stTest, rootA := f.rootA, rootAValid := f.rootAValid } = f) ∧
      (fused s = .endOfLife → burned f.wiped = false → ∃ t, exec .coldStart s = .next t ∧
        t.pwr.phase = .recovery ∧ burned t.lcs.fuses.wiped = true ∧ t.srm.epoch0 = none ∧ t.srm.epoch1 = none ∧
        t.srm.bank = ⟨{}, {}⟩ ∧ t.gals = [] ∧ t.mem = {} ∧ t.lcs.chain = none) ∧
      (fused s = .test → s.flt.deviceHold = true → ∃ t, exec .coldStart s = .next t ∧
        t.pwr.phase = .recovery ∧ t.atr.half = s.atr.half ∧ t.mld.runAtrium = s.mld.runAtrium) ∧
      (fused s = .test → s.flt.deviceHold = false → s.mld.slotA = ⟨none, none⟩ → s.mld.slotB = ⟨none, none⟩ →
        ∃ t, exec .coldStart s = .next t ∧ t.pwr.phase = .recovery ∧ t.mld.noMould = true)) ∧
    (s.pwr.phase ≠ .step1 → s.pwr.phase ≠ .step2 → exec .coldStart s = .next s)

/-- A poured half enters SERVING once its pour may end (R583 step 5, R473): its change bit of ATR_EVENT is set and its recovery
interval of 1,000,000 ticks begins. -/
def Obligations.HalfEntersServing : Prop :=
  ∀ (s : State) (h : Half) (p : HalfPour), s.mld.pour.get h = some p →
    (s.atr.half.get h = .pouring → p.paused = false → s.atr.restarting = false → drbgReady s (laneDrbg h) = true →
      s.gen.windowDone = true → s.srm.dirReady = true → ∃ t, exec (.halfEnterServing h) s = .next t ∧
        t.atr.half.get h = .serving ∧ t.atr.half.get (other h) = s.atr.half.get (other h) ∧ t.mld.pour.get h = none ∧
        t.flt.endHalf.get h = some (s.gen.a.toNat + 1000000) ∧ t.atr.event.getLsbD (halfNo h) = true) ∧
    (p.paused = true ∨ s.atr.half.get h ≠ .pouring → exec (.halfEnterServing h) s = .next s)

/-- Reserve restarts (R396, R397, R398, R73): an expired watchdog, a divergence or a double-bit error starts one with its cause,
if the fault is only contained; it halts core 0, clears the Reserve SRAM and releases what the Reserve pair held; an expiry
before 1,000 ticks does nothing; ceremonies end unless a running command cites them (R340). The restart ends with the core at
ENTRY, the count raised, the Reliquary's lines empty but for those of open ceremonies; a failed measurement of the firmware in
MRAM resets the device. -/
def Obligations.ReserveRestartAndResume : Prop :=
  ∀ (s : State) (line : BitVec 16) (m : Mould), s.pwr.phase = .step5 → s.mld.runAtrium = some m →
    (s.atr.restarting = false → counting s 1 = false → (fltSrc s 1).cls ≤ 1 → (fltSrc s 2).cls ≤ 1 →
      ∀ i cause, (i, cause) ∈ [(Instr.watchdogExpiry, 1), (.lockstepDivergence, 2), (.reserveSramDoubleBit line, 3)] →
        (i = .watchdogExpiry → s.wld.heartbeat + 1000 ≤ tick s) →
        ∃ t, exec i s = .next t ∧ t.atr.restarting = true ∧ t.wld.cause = cause ∧ core t 0 = {} ∧
          t.mem.reserve = [] ∧ t.cus.run = none ∧
          (∀ c x, nth none s.cus.cer c = some x → citing s x.ref = none → c < 8 → nth none t.cus.cer c = none) ∧
          t.lcu.owner ≠ 1 ∧ (∀ h, t.atr.half.get h = s.atr.half.get h) ∧ t.sqs = s.sqs ∧ t.gen = s.gen) ∧
    (tick s < s.wld.heartbeat + 1000 → exec .watchdogExpiry s = .next s) ∧
    (s.atr.restarting = true → s.mld.atriumNext = none → s.cores.length = 9 →
      (measured s = true → ∃ t, exec (.reserveResumed true) s = .next t ∧ t.atr.restarting = false ∧ t.wld.heartbeat = tick s ∧
        t.lcs.restarts.toNat = Nat.min (2 ^ 32 - 1) (s.lcs.restarts.toNat + 1) ∧
        t.srm.lines = s.srm.lines.filter (fun e => 24 ≤ e.1 && (nth none s.cus.cer (e.1 - 24)).isSome) ∧
        (core t 0).running = true ∧ (core t 0).pc = BitVec.ofNat 16 m.atrium.fw.entry.toNat ∧
        t.atr.event.getLsbD 4 = true) ∧
      ∀ ok, (ok && measured s) = false → ∃ t, exec (.reserveResumed ok) s = .next t ∧ deviceWasReset s t 7) ∧
    (s.atr.restarting = false → exec (.reserveResumed true) s = .next s)

/-! ### Worlds, regions, gates, local cipher unit, debug port (spec/13, spec/12) -/

/-- What core 0 writes in the register fabric while its rights allow it (R391 to R394, R397, R412, R415): heartbeat, restart
request, an unlocked region register, gate rights or gating with the other field kept, the lock of the local cipher unit. A
write to a locked region register is refused with cause 2, one that its controller refuses with cause 1, and neither has an
effect but the count and the record of the refusal (R390, R391). A region whose parity fails grants nothing until it is
rewritten (R392). -/
def Obligations.WorldRegistersAndRegions : Prop :=
  (∀ (s : State) (v : Word) (ctrl : Byte) (ix : BitVec 5) (reg : BitVec 2) (g : Fin 11),
    (∀ a ∈ [0x21000010, 0x21000014, 0x21000100 + 4 * g.val, 0x21020000,
        0x21010000 + 0x400 * ctrl.toNat + 0x10 * ix.toNat + 4 * reg.toNat], granted s (initOf s 0) a .write = true) →
    beatsPass s (initOf s 0) →
    let r := regionAt s ctrl.toNat ix.toNat
    let k := 32 * ctrl.toNat + ix.toNat
    let x := gateAt s g.val
    exec (.wldHeartbeatWrite 0 v) s = .next { s with wld := { s.wld with heartbeat := tick s } } ∧
    (s.atr.restarting = false → ∃ t, exec (.wldRestartRequest 0) s = .next t ∧
      t.atr.restarting = true ∧ t.wld.cause = 4 ∧ core t 0 = {} ∧ t.mem.reserve = []) ∧
    (knownCtrl ctrl.toNat = true → r.lock = false →
      ∃ t, exec (.regionRegisterWrite 0 ctrl ix reg v) s = .next t ∧ { t with wld := s.wld } = s ∧
        { t.wld with regions := s.wld.regions } = s.wld ∧
        regionAt t ctrl.toNat ix.toNat =
          (match reg.toNat with
           | 0 => { r with base := BitVec.ofNat 20 (v.toNat / 4096), bad := false }
           | 1 => { r with limit := BitVec.ofNat 20 (v.toNat / 4096), bad := false }
           | 2 => { r with perm := v &&& 0x003F03FF, bad := false }
           | _ => { r with en := v.getLsbD 0, bad := false }) ∧
        ∀ j, j ≠ k → t.wld.regions.get {} j = s.wld.regions.get {} j) ∧
    (∃ t, exec (.gateRightsWrite 0 g v) s = .next t ∧ { t with wld := s.wld } = s ∧
      gateAt t g.val = { x with rights := v.setWidth 6 } ∧ ∀ j, j ≠ g.val → gateAt t j = gateAt s j) ∧
    (floorGate g.val = false → ∃ t, exec (.gatePowerClock 0 g v) s = .next t ∧ { t with wld := s.wld } = s ∧
      gateAt t g.val = { x with pwrOff := v.getLsbD 8, clkOff := v.getLsbD 9 }) ∧
    (s.lcu.owner = 0 → exec (.lcuAcquire 0 1) s = .next { s with lcu := { s.lcu with owner := 1 } }) ∧
    (s.lcu.owner = 1 → exec (.lcuRelease 0) s = .next { s with lcu := {} }) ∧
    exec (.lcuForce 0) s = .next { s with lcu := {} }) ∧
  (∀ (s : State) (c : CoreId) (v : Word) (ctrl : Byte) (ix : BitVec 5) (reg : BitVec 2) (g : Fin 11),
    beatsPass s (initOf s c.val) →
    let a := 0x21010000 + 0x400 * ctrl.toNat + 0x10 * ix.toNat + 4 * reg.toNat
    let x := core s c.val
    let bad := fun (addr cause : Nat) => (Host.Outcome.next { s with wld := { s.wld with
      refused := if s.wld.refused = 0x7FFFFFFF then 0x7FFFFFFF else s.wld.refused + 1
      lastAddr := BitVec.ofNat 32 addr
      lastInfo := BitVec.ofNat 32 (2 ^ 9 * b2n x.level + 2 ^ 10 * (if x.level then x.curPart.toNat else 0) +
        2 ^ 16 * (if c = 0 then 1 else 0x0F + c.val) + 2 ^ 26 + 2 ^ 28 * cause) } } : Out)
    (c = 0 → knownCtrl ctrl.toNat = true → granted s (initOf s 0) a .write = true →
      (regionAt s ctrl.toNat ix.toNat).lock = true → exec (.regionRegisterWrite c ctrl ix reg v) s = bad a 2) ∧
    (granted s (initOf s c.val) a .write = false → ctrl.toNat < 0x40 → exec (.regionRegisterWrite c ctrl ix reg v) s = bad a 1) ∧
    (granted s (initOf s c.val) 0x21000014 .write = false → exec (.wldHeartbeatWrite c v) s = bad 0x21000014 1) ∧
    (granted s (initOf s c.val) 0x21000010 .write = false → exec (.wldRestartRequest c) s = bad 0x21000010 1) ∧
    (granted s (initOf s c.val) (0x21000100 + 4 * g.val) .write = false →
      exec (.gateRightsWrite c g v) s = bad (0x21000100 + 4 * g.val) 1) ∧
    (granted s (initOf s c.val) (0x21010200 + 0x400 * ctrl.toNat) .read = true → ctrl.toNat < 0x40 →
      exec (.regionSyncRead c ctrl) s = .next { s with response := 0 })) ∧
  (∀ (s : State) (ctrl : Byte) (ix : BitVec 5), knownCtrl ctrl.toNat = true → quietFaults s →
    ∃ t, exec (.regionParityFail ctrl ix) s = .next t ∧ (regionAt t ctrl.toNat ix.toNat).bad = true ∧
      ∀ (a : Nat) (i : Init) (k : AccKind),
        (regionAt s ctrl.toNat ix.toNat).base.toNat ≤ a / 4096 → a / 4096 < (regionAt s ctrl.toNat ix.toNat).limit.toNat →
        regionGrants t ctrl.toNat a i k = false)

/-- The local cipher unit and the debug port: GO starts a block and INIT clears the hash state while the unit belongs to the
writer; the end of a block sets DONE and line PERIPH of the Reserve pair; an AES-ECB block of a 16-byte key encrypts DIN. The
debug port holds an address, advances it by 4 at each update, and does nothing while debug is closed (R377, R412, R416). -/
def Obligations.CipherUnitAndDebugPort : Prop :=
  ∀ (s : State) (a : Word) (d : BitVec 33),
    (beatsPass s (initOf s 0) → granted s (initOf s 0) 0x21020004 .write = true → s.lcu.owner = 1 → s.lcu.busy = false →
      (∃ t, exec (.lcuGo 0) s = .next t ∧ { t with lcu := s.lcu } = s ∧
        t.lcu = { s.lcu with busy := true, done := false }) ∧
      ∃ t, exec (.lcuInit 0) s = .next t ∧ { t with lcu := s.lcu } = s ∧
        t.lcu = { s.lcu with chainV := [], hashed := [] }) ∧
    (s.lcu.busy = true → s.lcu.op = 1 → s.lcu.decrypt = false → s.lcu.keyLen = 0 → ∃ t, exec .lcuBlockDone s = .next t ∧
      t.lcu = { s.lcu with
        busy := false, done := true, dout := padTo 64 (Config.aesEnc (s.lcu.key.take 16) (s.lcu.din.take 16)) } ∧
      { t with lcu := s.lcu, cores := s.cores } = s ∧
      (s.cores ≠ [] → (core t 0).ip.getLsbD 2 = true)) ∧
    (s.lcu.busy = false → exec .lcuBlockDone s = .next s) ∧
    (s.lcs.debug = true → exec (.debugMemAddr a) s = .next { s with lcs := { s.lcs with dbgAddr := a } }) ∧
    (s.lcs.debug = true → d.getLsbD 32 = false →
      exec (.debugMemDataUpdate d) s = .next { s with lcs := { s.lcs with dbgAddr := s.lcs.dbgAddr + 4 } }) ∧
    (s.lcs.debug = true → beatsPass s debugInit → granted s debugInit (s.lcs.dbgAddr.toNat / 4 * 4) .read = true →
      areaOf s (s.lcs.dbgAddr.toNat / 4 * 4) = some .reserveRam →
      ∃ t, exec .debugMemDataCapture s = .next t ∧ t.mem = s.mem ∧ t.response = t.lcs.dbgData ∧
        t.lcs.dbgData = BitVec.ofNat 32 (fromLe (s.mem.reserve.readN (s.lcs.dbgAddr.toNat / 4 * 4) 4))) ∧
    (s.lcs.debug = false → exec (.debugMemAddr a) s = .next s ∧ exec .debugMemDataCapture s = .next s ∧
      exec (.debugMemDataUpdate d) s = .next s)

/-! ### Jobs (spec/05, spec/06) -/

/-- The end of a program's turn (R403): while another program of its half waits with work, Floor firmware regains the core
through line TICK; before the turn's end nothing happens. RNG_SW_DATA (R464): 32 bits of instance 3 where it is READY and
RNG_SW_STATUS.VALID set, else 0 and VALID clear; RNG_RAW_DATA (R468): the oldest 32 bits of the FIFO, or 0. -/
def Obligations.TurnExpiryAndEntropyReads : Prop :=
  ∀ (s : State) (c : CoreId), runs s c.val = true →
    let x := core s c.val
    (∀ g p, runProgram s c.val = some g → program s (coreHalf c.val) g = some p →
      (p.turnEnd ≤ tick s → othersWait s (coreHalf c.val) g = true → ∃ t, exec (.programTurnExpiry c) s = .next t ∧
        core t c.val =
          { x with
            eLevel := true, eIe := x.ie, epc := tienoPc s c 0, ecause := 0x80000000, eaddr := 0, level := false, ie := false
            exc := true, curPart := 0, l1 := [], bk := setNth x.bk 7 (BitVec.ofNat 16 (x.evec.toNat / 65536))
            pc := BitVec.ofNat 16 (x.evec.toNat % 65536) }) ∧
      (tick s < p.turnEnd → exec (.programTurnExpiry c) s = .next s)) ∧
    (beatsPass s (initOf s c.val) → granted s (initOf s c.val) 0x20050804 .read = true →
      (drbgReady s 3 = true → ∃ t, exec (.rngSwRead c) s = .next t ∧ t.response = BitVec.ofNat 32 (fromLe (freeBytes s 4)) ∧
        (core t c.val).rngValid = true ∧ (nth {} t.rng.drbg 3).requests = (nth {} s.rng.drbg 3).requests + 1 ∧ t.mem = s.mem) ∧
      (drbgReady s 3 = false → ∃ t, exec (.rngSwRead c) s = .next t ∧ t.response = 0 ∧ (core t c.val).rngValid = false ∧
        t.rng = s.rng ∧ t.mem = s.mem)) ∧
    (beatsPass s (initOf s c.val) → granted s (initOf s c.val) 0x20050804 .read = false →
      exec (.rngSwRead c) s = .next (refuse s (initOf s c.val) 0x20050804 1 .read)) ∧
    (32 ≤ s.rng.fifo.length → ∃ t, exec .rngRawRead s = .next t ∧ { t with response := s.response, rng := s.rng } = s ∧
      t.rng = { s.rng with fifo := s.rng.fifo.drop 32 } ∧
      ∀ i, i < 32 → t.response.getLsbD i = nth false s.rng.fifo i) ∧
    (s.rng.fifo.length < 32 → exec .rngRawRead s = .next { s with response := 0 })

/-- ENTRY_FETCH (R120): the first queue in turn that may be read, one 64-byte read at its next index; nothing while the half
does not serve, the window is past, or the gallery is not active and has no job to execute again. -/
def Obligations.EntryFetchReadsInTurn : Prop :=
  ∀ (s : State) (h : Half) (g : Gallery) (q : Nat),
    let k := qkey g.toNat q
    (serving s h = true → s.gen.windowDone = false → (gal s g.toNat).state = .active → nextPartner s h g.toNat = none →
      nextAgain s h g.toNat = none → (gv s g.toNat).chainSq.get h = none → q < 64 →
      (turnOrder ((gv s g.toNat).lastSq.get h)).find? (mayRead s h g.toNat) = some q →
      ∃ t, exec (.entryFetch h g) s = .next t ∧
        t.reads = s.reads ++ [⟨s.nextRid, h, tick s, .entry k (sq s k).rd⟩] ∧ t.nextRid = s.nextRid + 1 ∧
        t.out.host = s.out.host ++ [.read s.nextRid h (entryAddr (sq s k).base (sq s k).depthLog2 64 (sq s k).rd) 64] ∧
        (gv t g.toNat).lastSq.get h = some q ∧ t.sqs = s.sqs ∧ t.cqs = s.cqs ∧ t.jobs = s.jobs ∧ t.adm = s.adm) ∧
    (serving s h = false ∨ s.gen.windowDone = true ∨
        (gal s g.toNat).state ≠ .active ∧ nextAgain s h g.toNat = none → exec (.entryFetch h g) s = .next s)

/-- HOST_READ_RETURN (R115, R121, R155, R158): an admin entry that arrives in time joins the admin unit; one that arrives at
cycle 1,200 or later sets its queue aside; input bytes go to their offset, and the first bytes of a key block that is longer
call for the rest of it (R178); the last input of a job lets the usage checker rule, an earlier one does not. -/
def Obligations.HostReadReturnTakesEntryOrInput : Prop :=
  ∀ (s : State) (rid cycle : Nat) (data : Bytes) (h : Half) (k i id n o len : Nat) (head : Bool) (j : Job),
    let gone := s.reads.filter (·.rid ≠ rid)
    (s.reads.find? (·.rid = rid) = some ⟨rid, h, tick s, .entry k i⟩ → againAt s k i = none →
      (cycle < 1200 → s.gen.windowDone = false → (sq s k).admin = true → holdRoom s (cqKey s k) ≠ 0 →
        ∃ t, exec (.hostReadReturn rid cycle data) s = .next t ∧ t.reads = gone ∧ t.jobs = s.jobs ∧
          t.adm = s.adm ++ [{
            gal := k / 64, sq := k % 64, sqGen := (sq s k).gen.toNat, index := (sq s k).rd, half := h
            entry := padTo 64 data, seq := s.nextSeq }] ∧
          sq t k = { sq s k with rd := ((sq s k).rd + 1) % (2 * 2 ^ (sq s k).depthLog2), busy := true }) ∧
      (1200 ≤ cycle → ∃ t, exec (.hostReadReturn rid cycle data) s = .next t ∧ t.reads = gone ∧ t.jobs = s.jobs ∧ t.adm = s.adm ∧
        (sq t k).aside = true ∧ (sq t k).chainBuf = [] ∧ ((sq s k).admin = true → (sq t k).rd = i) ∧
        ∀ l, l ≠ k → sq t l = sq s l)) ∧
    (s.reads.find? (·.rid = rid) = some ⟨rid, h, tick s, .input id n o len head⟩ → job s id = some j → cycle < 1200 →
      s.gen.windowDone = false → j.phase = .reading →
      let d := padTo len data
      let steps := updNth j.steps n fun e => { e with input := splice (padTo e.req.inLen e.input) o d, waits := e.waits - 1 }
      let r := (nth {} j.steps n).req
      let rest := decNum (slice d 1 4)
      (∀ m, head = true → rest = some m → d.length < m → m ≤ 256 → o + m ≤ r.inLen →
        ∃ t, exec (.hostReadReturn rid cycle data) s = .next t ∧ t.nextRid = s.nextRid + 1 ∧
          t.reads = gone ++ [⟨s.nextRid, j.half, tick s, .input id n (o + d.length) (m - d.length) false⟩] ∧
          t.out.host = s.out.host ++
            [.read s.nextRid ((sqPort s j.sq).getD j.half) (r.inAddr + BitVec.ofNat 64 (o + d.length)) (m - d.length)] ∧
          job t id = some { j with steps := updNth steps n fun e => { e with waits := e.waits + 1 } }) ∧
      (head = false ∨ rest = none ∨ (∀ m, rest = some m → m ≤ d.length ∨ 256 < m ∨ r.inLen < o + m) →
      ((steps.any fun e => e.waits ≠ 0) = true → ∃ t, exec (.hostReadReturn rid cycle data) s = .next t ∧ t.reads = gone ∧
        job t id = some { j with steps } ∧ t.sqs = s.sqs) ∧
      ((steps.all fun e => e.waits = 0) = true → ∃ t v, exec (.hostReadReturn rid cycle data) s = .next t ∧ t.reads = gone ∧
        job t id = some { j with steps := v, phase := .ruled } ∧ v.map (·.input) = steps.map (·.input) ∧
        v.map (·.entry) = steps.map (·.entry) ∧ t.sqs = s.sqs))) ∧
    (s.reads.find? (·.rid = rid) = none → exec (.hostReadReturn rid cycle data) s = .next s)

/-- Preparation, execution and delivery of a job (R44, R145, R147, R160, R161, R164, R171, R405): preparation uses one of the
gallery's slots and keeps what it found in a context of the slot's lane; what each writes into the job; the two computations of
an execution agree or not as the check finds; a job that may not run is left as it is. -/
def Obligations.JobPreparesAndExecutes : Prop :=
  ∀ (s : State) (id : Nat) (j : Job) (ok : Bool) (lane : Fin 80), job s id = some j →
    ((j.phase = .reading ∨ j.phase = .ruled) → s.gen.windowDone = false → serving s j.half = true → j.early = none →
      prepTurn s j = true → ∀ b, prepSlot s j.half j.gal = some b →
      let x := s.lanes.half.get j.half
      let l := laneAt s j.half b.tick (b.pos.getD 0)
      (∃ t, exec (.preparation id none) s = .next t ∧ { t with jobs := s.jobs, lanes := s.lanes } = s ∧
        job t id = some { j with tried := true } ∧ (t.lanes.half.get j.half).prepSlots = x.prepSlots ++ [b] ∧
        t.lanes.half.get (other j.half) = s.lanes.half.get (other j.half) ∧
        (j.steps.all (·.waits = 0) = true → l < x.lanes.length → (nth {} x.lanes l).contexts.all (·.1 < 16) = true →
          contextOf (t.lanes.half.get j.half) id = some (stagedOf s j))) ∧
      (quietFaults s → lane.val / 40 = halfNo j.half → ∃ t, exec (.preparation id (some lane)) s = .next t ∧
        job t id = some { j with tried := true } ∧ contextOf (t.lanes.half.get j.half) id = none ∧
        t.lanes.prepFault.toNat = Nat.min (2 ^ 31 - 1) (s.lanes.prepFault.toNat + 1))) ∧
    (prepSlot s j.half j.gal = none ∨ prepTurn s j = false ∨ s.gen.windowDone = true → exec (.preparation id none) s = .next s) ∧
    (j.phase ≠ .reading → j.phase ≠ .ruled → exec (.preparation id none) s = .next s) ∧
    (canRun s j = true → j.segs.head?.any (·.unwrap) = false → j.laneDraws = [] → j.pat ≠ 0x0F03 →
      let r : State → Prop := fun t => { t with jobs := s.jobs, freeCtr := s.freeCtr } = s ∧ t.freeCtr = s.freeCtr + 1 ∧
        job t id = some { j with
          computed := some (j.computed.getD (runStep s j)), phase := .ran, agree := ok, lane := laneOf s j }
      (handoffPat j.pat = false → (∃ t, exec (.laneExecute id ok) s = .next t ∧ r t) ∧
        exec (.handoffPattern id ok) s = .next s) ∧
      (handoffPat j.pat = true → (∃ t, exec (.handoffPattern id ok) s = .next t ∧ r t) ∧
        exec (.laneExecute id ok) s = .next s)) ∧
    (canRun s j = false → exec (.laneExecute id ok) s = .next s ∧ exec (.handoffPattern id ok) s = .next s) ∧
    (j.outSent = true → ∃ t, exec (.jobDelivered id) s = .next t ∧ { t with jobs := s.jobs } = s ∧
      job t id = some { j with delivered := true }) ∧
    (j.outSent = false → exec (.jobDelivered id) s = .next s)

/-- Programs' results and deadlines, entropy waits (R408, R409, R463): a DONE record completes its ticket's job with the
record's OUT_COUNT and RESULT; a job past its deadline completes FAULT_UNRESOLVED with DETAIL 0x0E01; a job whose wait for an
exhausted instance ends completes NO_ENTROPY and is counted. -/
def Obligations.HandoffAndWaitsEnd : Prop :=
  ∀ (s : State) (h : Half) (g : Gallery) (id : Nat) (j : Job) (p : Program), plainJob s id j → s.gen.windowDone = true →
    let r := partRead s h p (0x400 + 32 * (p.resCons % 16)) 32
    (program s h g.toNat = some p → p.resCons ≠ p.resProd → p.resCons < 32 →
      (p.tickets.find? (·.1 = leAt r 0 4)).map (·.2.1) = some id → j.phase = .handoff → j.half = h → j.gal = g.toNat → byteAt r 4 = 0 →
      leAt r 8 4 ≤ j.req.outCap → ∃ t, exec (.handoffResult h g) s = .next t ∧
        jobEnded t j .done (leAt r 6 2) (leAt r 8 4) (slice r 16 16) ∧
        ∃ p', program t h g.toNat = some p' ∧ p'.resCons = (p.resCons + 1) % 32 ∧ ∀ x ∈ p'.tickets, x.2.1 ≠ id) ∧
    (program s h g.toNat = some p → p.resCons = p.resProd → exec (.handoffResult h g) s = .next s) ∧
    (j.phase = .handoff → j.deadline.any (· ≤ tick s) = true → ∃ t, exec (.handoffDeadline id) s = .next t ∧
      jobEnded t j .faultUnresolved 0x0E01 0 []) ∧
    (j.deadline.any (· ≤ tick s) = false → exec (.handoffDeadline id) s = .next s ∧ exec (.entropyWaitExpiry id) s = .next s) ∧
    (j.phase = .confirmed → j.book = none → j.deadline.any (· ≤ tick s) = true →
      ∃ t, exec (.entropyWaitExpiry id) s = .next t ∧ jobEnded t j .noEntropy 0 0 [] ∧
        t.rng.noEntropy.toNat = Nat.min (2 ^ 31 - 1) (s.rng.noEntropy.toNat + 1))

/-- A completion's way to the host (R119, R127, R131, R132, R170): the oldest due item is issued, its output writes before its
entry; its acknowledgement advances the producer index, frees its hold entry and passes what it covers; the vector is raised at
the end of the tick when the oldest unsignalled completion has waited its time. -/
def Obligations.CompletionsReachTheHost : Prop :=
  ∀ (s : State) (g : Gallery) (q : QIndex) (port : Half) (x : Held),
    let k := qkey g.toNat q.toNat
    let c := cq s k
    (c.exist = true → c.mirror = false → c.error = false → (∀ y, afterKept s k y = false) → nextItem s k = some x → cqPort s k = some port → x.silent = false →
      ringCount c.depthLog2 (c.pi + (c.hold.filter (·.issued)).length) c.ci < 2 ^ c.depthLog2 →
      ∃ t y, exec (.outputCompletionIssue g q) s = .next t ∧ y ∈ (cq t k).hold ∧ y.issued = true ∧
        y = { x with sqCi := y.sqCi, outsIssued := true, issued := true } ∧
        t.out.host = s.out.host ++
          (if x.outsIssued then [] else (x.outs.filter fun o => !o.2.isEmpty).map fun o => .write port o.1 o.2) ++
          [.completion g.toNat q.toNat port
            (entryAddr c.base c.depthLog2 32 (c.pi + (c.hold.filter (·.issued)).length)) y.bytes] ∧
        (cq t k).pi = c.pi ∧ (cq t k).used = c.used ∧ t.sqs = s.sqs) ∧
    (nextItem s k = none → exec (.outputCompletionIssue g q) s = .next s) ∧
    (c.error = false → c.hold.find? (·.issued) = some x → x.fFlush = false → s.lcs.resetAfter = none →
      ∃ t, exec (.completionWritten g q) s = .next t ∧ (cq t k).pi = (c.pi + 1) % (2 * 2 ^ c.depthLog2) ∧
        (cq t k).used = c.used - 1 ∧ (cq t k).unsignalled = c.unsignalled + 1 ∧
        (cq t k).hold.length + 1 = c.hold.length ∧
        (sq t x.sq).ci = advance (sq s x.sq).depthLog2 ((sq s x.sq).covered ++ x.covers) (sq s x.sq).ci ∧
        (∀ j ∈ t.jobs, j.id ∉ x.jobs) ∧ t.out = s.out) ∧
    (c.hold.find? (·.issued) = none → exec (.completionWritten g q) s = .next s) ∧
    (s.gen.windowDone = true → c.tested = false → c.exist = true → c.intEn = true → 0 < c.unsignalled → c.oldest + c.modTime ≤ tick s → cqPort s k = some port →
      (fnCfg s port g.toNat).msixEn = true → (fnCfg s port g.toNat).fnMask = false → (fnCfg s port g.toNat).busMaster = true →
      (s.hst.msix.get {} (2048 * g.toNat + c.vector)).mask = false →
      ∃ t, exec (.moderationTimeExpiry g q) s = .next t ∧ (cq t k).unsignalled = 0 ∧ (cq t k).tested = true ∧
        t.out.host = s.out.host ++ [.msix port g.toNat c.vector]) ∧
    (c.unsignalled = 0 ∨ s.gen.windowDone = false ∨ c.tested = true → exec (.moderationTimeExpiry g q) s = .next s)

/-- Host accesses that fail and flushes that waited (R130, R139): a failed completion write puts the queue in ERROR with what
was on its way still held; a failed read gives its entry or its step DMA_ERROR; a failed output write completes its job
DMA_ERROR with DETAIL 3; a kept flush enters the hold once there is room. -/
def Obligations.HostErrorsAndDeferredFlush : Prop :=
  ∀ (s : State) (g : Gallery) (q : QIndex) (rid n id o len : Nat) (h : Half) (head : Bool) (j : Job),
    let k := qkey g.toNat q.toNat
    ((cq s k).exist = true → ∃ t, exec (.cqWriteError g q) s = .next t ∧ { t with cqs := s.cqs } = s ∧
      cq t k = { cq s k with error := true, hold := (cq s k).hold.map fun x => { x with issued := false } }) ∧
    (s.reads.find? (·.rid = rid) = some ⟨rid, h, tick s, .entry k n⟩ → againAt s k n = none → (sq s k).admin = true →
      holdRoom s (cqKey s k) ≠ 0 → ∃ t, exec (.hostDmaError (.read rid)) s = .next t ∧
      t.adm = s.adm ++ [{
        gal := g.toNat, sq := q.toNat, sqGen := (sq s k).gen.toNat, index := (sq s k).rd, half := h
        entry := zeros 64, unread := true, seq := s.nextSeq }]) ∧
    (∀ e0, s.reads.find? (·.rid = rid) = some ⟨rid, h, tick s, .input id 0 o len head⟩ → job s id = some j → j.phase = .reading →
      j.steps = [e0] → e0.waits ≤ 1 → e0.verdict ≠ some .dmaError →
      ∃ t e, exec (.hostDmaError (.read rid)) s = .next t ∧ job t id = some { j with steps := [e], phase := .ruled } ∧
        e.verdict = some .dmaError ∧ e.detail = (if o = 0 then 1 else 2)) ∧
    (plainJob s id j → j.phase = .finished → j.outSent = true → j.delivered = false →
      ∃ t, exec (.hostDmaError (.outputWrite id)) s = .next t ∧ jobEnded t j .dmaError 3 0 []) ∧
    ((sq s k).exist = true → (sq s k).closing = true → (sq s k).flushKept = true → (cq s (cqKey s k)).exist = true →
      (cq s (cqKey s k)).error = false → (cq s (cqKey s k)).full = false → 0 < holdFree (cq s (cqKey s k)) →
      ∃ t, exec (.flushDeferredWrite g q) s = .next t ∧ (sq t k).flushKept = false ∧ (sq t k).flushed = true ∧
        completed t k 0xFFFF .queueDestroyed 0 0 [] ∧ (cq t (cqKey s k)).used = (cq s (cqKey s k)).used + 1) ∧
    ((sq s k).flushKept = false → exec (.flushDeferredWrite g q) s = .next s)

/-- The Pattern rows (R147, R174, R187, R220): a job whose current step carries the row's number and holds its slots in this
tick gets what that Pattern computes from its step, held for LANE_EXECUTE; one that does not is left alone. -/
def Obligations.PatternRowsCompute : Prop :=
  ∀ (s : State) (id : Nat) (j : Job) (units : Byte), job s id = some j →
    ∀ i n, (i, n) ∈ [(Instr.echo id, 0x0F00), (.null id, 0x0F01), (.tickStamp id, 0x0F02), (.pinXlate id, 0x0100),
        (.pinXlateAes id, 0x0101), (.pinVerifyOffset id, 0x0110), (.pinOffsetCalc id, 0x0111), (.pinGenerate id, 0x0112),
        (.macAlg1 id, 0x0200), (.macAlg3 id, 0x0201), (.macCmac id, 0x0202), (.macAlg1Long id, 0x0208),
        (.macAlg3Long id, 0x0209), (.macCmacLong id, 0x020A), (.cardValue id, 0x0220), (.cardValueDyn id, 0x0228),
        (.arqcVerify id, 0x0300), (.scriptMac id, 0x0310), (.scriptEnc id, 0x0311), (.scriptPin id, 0x0312),
        (.dukptAesPinXlate id, 0x0400), (.dukptAesMac id, 0x0401), (.dukptAesData id, 0x0402),
        (.dukptTdesPinXlate id, 0x0408), (.dukptTdesMac id, 0x0409), (.kbExport id, 0x0500), (.kbGenerate id, 0x0501),
        (.kbInspect id, 0x0502), (.kwExport id, 0x0520), (.kwImport id, 0x0521), (.aesCbc id, 0x0600),
        (.aesCbcLong id, 0x0608), (.aesCtr id, 0x0601), (.aesCtrLong id, 0x0609), (.aesXts id, 0x0602),
        (.aesXtsLong id, 0x060A), (.aesGcm id, 0x0603), (.aesGcmLong id, 0x060B), (.aesCcm id, 0x0604),
        (.aesCcmLong id, 0x060C), (.tdesEcb id, 0x0610), (.tdesEcbLong id, 0x0618), (.tdesCbc id, 0x0611),
        (.tdesCbcLong id, 0x0619), (.ff1 id, 0x0700), (.ff1Long id, 0x0708), (.hash id, 0x0800), (.hashLong id, 0x0808),
        (.hmac id, 0x0801), (.hmacLong id, 0x0809), (.kdf108 id, 0x0810), (.kdfX963 id, 0x0811), (.ecSign id, 0x0900),
        (.ecVerify id, 0x0901), (.ecKeygen id, 0x0902), (.ecdhDerive id, 0x0903), (.rsaPrivate id, 0x0910),
        (.rsaPublic id, 0x0911), (.rsaKeygen id, 0x0912), (.mldsaSign id, 0x0920), (.mldsaVerify id, 0x0921),
        (.mldsaKeygen id, 0x0922), (.mlkemEncaps id, 0x0930), (.mlkemDecaps id, 0x0931), (.mlkemKeygen id, 0x0932),
        (.tr34Envelope id, 0x0510), (.laneCheck id units, 0x0F03)] →
      (computes s j n = true → ∃ t r, exec i s = .next t ∧ { t with jobs := s.jobs, freeCtr := s.freeCtr } = s ∧
        t.freeCtr = s.freeCtr + 1 ∧ job t id = some { j with computed := some r } ∧
        (∀ id', id' ≠ id → job t id' = job s id') ∧
        (n ≠ 0x0F03 → r = stepWith s j (patFn n)) ∧ (∀ st, j.step.verdict = some st → r.status = st ∧ r.output = [])) ∧
      (computes s j n = false → j.phase ≠ .cupola → exec i s = .next s) ∧
      (0x0900 ≤ n ∧ n < 0x0A00 ∨ n = 0x0510 → j.phase = .cupola → j.pat = n → ∀ o r,
        (((s.cup.units.get j.half).filterMap fun u => if u.mask then u.op else none).find? fun o => o.job = some id) = some o →
        opResult s j o = some r → ∃ t, exec i s = .next t ∧ { t with jobs := s.jobs } = s ∧
          job t id = some { j with computed := some r })

/-- What the diagnostic Patterns and HASH give (R174, R246): ECHO its input or parameters, NULL zeros, TICK_STAMP the tick
count, first slot and lane, LANE_CHECK the lane and its passing units; HASH of one entry, which begins and ends its message, the
digest, or OUTPUT_SHORT with the bytes it needs. -/
def Obligations.DiagnosticAndHashResults : Prop :=
  ∀ (s : State) (id : Nat) (j : Job) (b : Booking) (units : Byte), job s id = some j → j.book = some b →
    j.step.verdict = none → j.alien = false →
    let r := j.req
    let gives := fun (i : Instr) (f : JobResult → Prop) => ∃ t j' v, exec i s = .next t ∧ job t id = some j' ∧
      j'.computed = some v ∧ f v
    let d := digest (r.p 0) (slice r.inp 0 (r.p2 2))
    (computes s j 0x0F00 = true → r.inHost = false →
      gives (.echo id) fun v => v.status = .done ∧ v.output = [] ∧ v.result = slice r.par 0 16) ∧
    (computes s j 0x0F00 = true → r.inHost = true → r.inLen ≤ r.outCap →
      gives (.echo id) fun v => v.status = .done ∧ v.output = slice r.inp 0 r.inLen) ∧
    (computes s j 0x0F00 = true → r.inHost = true → r.outCap < r.inLen →
      gives (.echo id) fun v => v.status = .outputShort ∧ v.output = [] ∧ v.need = r.inLen) ∧
    (computes s j 0x0F01 = true → gives (.null id) fun v => v.status = .done ∧ v.output = [] ∧ v.result = zeros 16) ∧
    (computes s j 0x0F02 = true → gives (.tickStamp id) fun v => v.status = .done ∧
      v.result = le 7 s.gen.a.toNat ++ le 1 b.first ++ le 2 (laneOf s j) ++ zeros 6) ∧
    (computes s j 0x0F03 = true → gives (.laneCheck id units) fun v => v.status = .done ∧
      v.result = le 2 (laneOf s j) ++ le 1 (units.toNat &&& unitMask s (laneOf s j)) ++ zeros 13) ∧
    (computes s j 0x0800 = true → j.cur = j.lead → r.last = true →
      gives (.hash id) fun v => if r.outCap < d.length then v.status = .outputShort ∧ v.need = d.length
        else v.status = .done ∧ v.output = d)

/-! ### Cupola units (spec/09) -/

/-- A Cupola operation on its unit (R261 to R263, R265, R268, R269): it starts on the lowest free active unit; intake refuses it
or fixes its length; results that agree complete the job, results that differ count and send it to a second unit, and a second
time complete it FAULT_UNRESOLVED. -/
def Obligations.CupolaOperationRuns : Prop :=
  ∀ (s : State) (h : Half) (u : Fin 9) (o : CupOp) (id : Nat) (j : Job), plainJob s id j → o.job = some id → o.gal = j.gal →
    halfStopped s h = false →
    let n : Fin 18 := ⟨9 * halfNo h + u.val, by cases h <;> simp [halfNo] <;> omega⟩
    let x := nth {} (cupUnits s h) u.val
    (s.gen.windowDone = true → serving s h = true → (List.range 9).find? (freeUnit s h · .active) = some u.val →
      s.cup.waiting.get h = [o] → s.cup.reserve = [] → o.rerun = false → opMustWait s o = false → j.gal ∈ galleries s →
      0 ≤ (gv (updateCredits s h) j.gal).credit.get h → ∃ t, exec (.cupolaStart h) s = .next t ∧ t.cup.waiting.get h = [] ∧
        (nth {} (cupUnits t h) u.val).op = some { o with age := 0, len := 2 } ∧
        t.cup.units.get (other h) = s.cup.units.get (other h)) ∧
    (s.gen.windowDone = false → exec (.cupolaStart h) s = .next s) ∧
    (s.gen.windowDone = false → x.op = some o → x.mask = false → o.age = 2 →
      (intakeVerdict (cxOf s j s.freeCtr o.lane) = none → ∃ t, exec (.cupolaIntakeVerdict n) s = .next t ∧ t.jobs = s.jobs ∧
        nth {} (cupUnits t h) u.val = { x with
          mask := true, op := some { o with draw := s.freeCtr, len := cupTicks (cxOf s j s.freeCtr o.lane) } }) ∧
      (∀ r, intakeVerdict (cxOf s j s.freeCtr o.lane) = some r → r.status ≠ .done → ∃ t, exec (.cupolaIntakeVerdict n) s = .next t ∧
        jobEnded t j r.status r.detail r.need r.result ∧ (nth {} (cupUnits t h) u.val).op = none)) ∧
    (s.gen.windowDone = false → x.op = some o → x.mask = true → o.len ≤ o.age →
      (∀ r, j.computed = some r ∨ (j.computed = none ∧ opResult s j o = some r) → r.status = .done →
        ∃ t, exec (.cupolaResultCompare n true false) s = .next t ∧
          jobEnded t j .done 0 (j.outBytes + r.output.length) r.result ∧ (nth {} (cupUnits t h) u.val).op = none) ∧
      (quietFaults s → o.rerun = false → ∃ t, exec (.cupolaResultCompare n false false) s = .next t ∧
        t.cup.waiting.get h = s.cup.waiting.get h ++ [{ o with rerun := true, age := 0, len := 0 }] ∧
        (t.cup.mismatch.get h).toNat = Nat.min (2 ^ 31 - 1) ((s.cup.mismatch.get h).toNat + 1) ∧
        (nth {} (cupUnits t h) u.val).op = none ∧ ∃ j', job t id = some j' ∧ j'.computed = none ∧ j'.phase = j.phase) ∧
      (quietFaults s → o.rerun = true → j.phase = .cupola → ∃ t, exec (.cupolaResultCompare n false false) s = .next t ∧
        jobEnded t j .faultUnresolved 0 0 [] ∧
        t.cup.unresolved.toNat = Nat.min (2 ^ 31 - 1) (s.cup.unresolved.toNat + 1)))

/-! ### Entropy (spec/15) -/

/-- Sources, conditioner and instances (R455 to R461, R467): a raw bit joins its windows, 41 equal bits exclude the source; a
4,096-bit window that passes makes a STARTING source HEALTHY, one that fails excludes it with its cause; a block of a HEALTHY
source becomes a conditioned value while the output flows; an instance is instantiated from a held value, and reseeded when
1,000 ticks have passed, which answers a waiting RNG_RESEED. -/
def Obligations.EntropySourcesAndInstances : Prop :=
  ∀ (s : State) (n : Fin 16) (b : Bool) (h : Half) (i : Fin 4),
    let x := srcAt s n.val
    let run := if x.last = some b then x.run + 1 else 1
    let d := nth {} s.rng.drbg i.val
    let good := x.state = .starting ∨ x.state = .healthy
    (x.state = .off → exec (.rawBit n b) s = .next s) ∧
    (x.state ≠ .off → x.win.length < 4096 → x.apt.length < 1024 →
      (run < 41 → aptFails (x.apt ++ [b]) = false → ∃ t, exec (.rawBit n b) s = .next t ∧
        srcAt t n.val = { x with run, last := some b, apt := x.apt ++ [b], win := x.win ++ [b] } ∧
        t.rng.fifo = (if x.state = .raw ∧ s.rng.fifoSrc.toNat = n.val ∧ s.rng.fifo.length < 4096 then s.rng.fifo ++ [b]
          else s.rng.fifo)) ∧
      (41 ≤ run → good → quietFaults s → ∃ t, exec (.rawBit n b) s = .next t ∧ (srcAt t n.val).state = .excluded ∧
        (srcAt t n.val).cause = 1)) ∧
    (4096 ≤ x.win.length → x.apt.length < 1024 →
      let ones := (x.win.filter id).length
      let lags := [1, 2, 3, 4].map (lagOf x.win)
      (windowCause ones lags x.trim = none → x.state = .starting → ∃ t, exec (.sourceWindowEnd n) s = .next t ∧
        srcAt t n.val = { x with
          state := .healthy, win := [], ones := BitVec.ofNat 13 ones, lags := lags.map (BitVec.ofInt 8)
          trim := moveTrim x.trim ones }) ∧
      (∀ c, windowCause ones lags x.trim = some c → good → quietFaults s → ∃ t, exec (.sourceWindowEnd n) s = .next t ∧
        (srcAt t n.val).state = .excluded ∧ (srcAt t n.val).cause = BitVec.ofNat 3 c ∧ (srcAt t n.val).win = [])) ∧
    (x.win.length < 4096 → 1024 ≤ x.apt.length → x.state = .healthy → aptFails x.apt = false →
      ∃ t, exec (.sourceWindowEnd n) s = .next t ∧ srcAt t n.val = { x with apt := [], block := some x.apt }) ∧
    (x.win.length < 4096 → x.apt.length < 1024 → exec (.sourceWindowEnd n) s = .next s) ∧
    (∀ k w, nextSource s h = some k → (srcAt s k).block = some w → ∃ t, exec (.conditionedValue h) s = .next t ∧
      (srcAt t k).block = none ∧ t.rng.held.get h =
        (if 2 ≤ healthy s h then s.rng.held.get h ++ [sha384 (packBits w)] else s.rng.held.get h)) ∧
    (nextSource s h = none → exec (.conditionedValue h) s = .next s) ∧
    (feedOf s i.val = some h → s.rng.drbg.length = 4 →
      let taken := fun (t : State) (pers : Bytes) => nth {} t.rng.drbg i.val =
          { state := .ready, lastReseed := tick s, seed := ((s.rng.held.get h).head?).getD [], pers } ∧
        t.rng.held.get h = (s.rng.held.get h).drop 1
      (d.state = .notReady → s.rng.deviceRaw = false → ∃ t, exec (.drbgInstantiate i) s = .next t ∧
        taken t (padTo 48 (le 8 s.lcs.fuses.dieId.toNat ++ le 1 i.val ++ le 7 (tick s)))) ∧
      (d.state ≠ .notReady → s.gen.windowDone = true →
        (d.lastReseed + 1000 ≤ tick s → (reseedCmds s i.val).filter (fun c => 1 ≤ c.mark) = [] →
          ∃ t, exec (.drbgReseed i) s = .next t ∧ taken t d.pers ∧ t.adm = s.adm) ∧
        (∀ c, (reseedCmds s i.val).filter (fun c => 1 ≤ c.mark) = [c] → c.unread = false → queuePair s c.key c.sqGen →
          ∃ t, exec (.drbgReseed i) s = .next t ∧ taken t d.pers ∧ answered t c .done 0 []))) ∧
    (d.state = .ready → exec (.drbgInstantiate i) s = .next s) ∧
    (feedOf s i.val = none → exec (.drbgReseed i) s = .next s)

/-! ### Strongroom (spec/10) -/

/-- The Strongroom's background (R48, R94, R283, R294, R297, R309 to R315): a scrubbed copy that is bad is rewritten from the
good one; scrub, wear levelling and reseal take a step every 16 ticks behind the parting window; a reseal seals the same
material under the active epoch and catch-up copies it; the quench's overwrite leaves empty records and keeps what verifies; a
Vault Epoch Key is drawn where none is; new masks keep the keys they hide; a destroyed gallery gives its slots back and keeps
its counter. -/
def Obligations.StrongroomBackgroundSteps : Prop :=
  ∀ (s : State) (h : Half) (n : Nat) (r : Rec) (g : Gallery),
    let both := s.srm.bank.cope.available = true ∧ s.srm.bank.drag.available = true
    let still := s.srm.bank.cope.stale.contains n = false ∧ s.srm.bank.drag.stale.contains n = false
    let due := fun k => s.gen.windowDone = true ∧ k ≤ tick s
    (quietFaults s → due (s.srm.bank.get h).scrubDue → (s.srm.bank.get h).available = true →
      (s.srm.bank.get h).scrubPos = 2 * n → n < 65536 → roomPaused s = false → (s.srm.bank.get h).stale.contains n = false →
      s.srm.overwrite = false → s.srm.quenching = false → goodCopy s h n = none → goodCopy s (other h) n = some r →
      ∃ t, exec (.mramScrubStep h) s = .next t ∧ copyOf t h n = some r ∧ (t.srm.bank.get h).scrubPos = 2 * n + 1 ∧
        (t.srm.bank.get h).scrubDue = tick s + 16 ∧
        t.srm.corrected.toNat = Nat.min (2 ^ 31 - 1) (s.srm.corrected.toNat + 1)) ∧
    ((s.srm.bank.get h).available = false ∨ ¬ due (s.srm.bank.get h).scrubDue → exec (.mramScrubStep h) s = .next s) ∧
    (∀ region, ((s.srm.bank.get h).available = false ∨ ¬ due (s.srm.bank.get h).wearDue →
        exec (.wearLevelStep h region) s = .next s) ∧
      ((s.srm.bank.get h).available = true → due (s.srm.bank.get h).wearDue → ∃ t, exec (.wearLevelStep h region) s = .next t ∧
        { t with srm := s.srm, freeCtr := s.freeCtr } = s ∧ (∀ k i, copyOf t k i = copyOf s k i) ∧
        (freeBit s = true → (t.srm.bank.get h).wear.get 0 region.toNat = (s.srm.bank.get h).wear.get 0 region.toNat + 1 ∧
          (t.srm.bank.get h).wearDue = tick s + 16) ∧
        (freeBit s = false → t.srm = s.srm))) ∧
    (s.srm.reseal = true → roomPaused s = false → s.srm.overwrite = false → both → due s.srm.resealDue → drbgReady s 2 = true →
      (still → s.srm.resealPos = ⟨n, n⟩ → n + 1 < 65536 → (∀ k, goodCopy s k n = some r) →
        ∃ t, exec .resealStep s = .next t ∧ t.srm.resealPos = ⟨n + 1, n + 1⟩ ∧ t.srm.reseal = true ∧
          ∀ k, ∃ iv, copyOf t k n =
            some (if r.epoch = s.srm.epoch then r else sealRec s r ((unsealed s r).getD []) iv)) ∧
      (s.srm.resealPos = ⟨65536, 65536⟩ → s.srm.bank.cope.stale = [] → s.srm.bank.drag.stale = [] →
        ∃ t, exec .resealStep s = .next t ∧ t.srm.reseal = false ∧ epochReg t (!s.srm.epoch) = none ∧
          epochReg t s.srm.epoch = epochReg s s.srm.epoch ∧ t.srm.epoch = s.srm.epoch ∧
          (s.lcs.state = .production → t.srm.reseals.toNat = Nat.min 65535 (s.srm.reseals.toNat + 1)))) ∧
    (s.srm.reseal = false ∨ ¬ due s.srm.resealDue ∨ drbgReady s 2 = false → exec .resealStep s = .next s) ∧
    (s.srm.overwrite = true → hasVek s = true → drbgReady s 2 = true → roomPaused s = false → both → s.srm.overwritePos = ⟨n, n⟩ → n + 1 < 65536 →
      ∃ t, exec .quenchOverwriteStep s = .next t ∧ t.srm.overwritePos = ⟨n + 1, n + 1⟩ ∧
        ((∀ k, goodCopy s k n = none) →
          ∀ k, ∃ r', copyOf t k n = some r' ∧ r'.alg = 0 ∧ r'.keyLen = 0 ∧ r'.gal = (mapEnt s n).owner ∧
            r'.epoch = s.srm.epoch) ∧
        ((∃ k, goodCopy s k n ≠ none) → ∀ k, copyOf t k n = copyOf s k n)) ∧
    (s.srm.overwrite = false → exec .quenchOverwriteStep s = .next s) ∧
    (hasVek s = false → s.srm.quenching = false → s.pwr.phase ≠ .off → drbgReady s 2 = true → rootSel s ≠ 0 →
      roomPaused s = false → ∃ t, exec .vekDraw s = .next t ∧ vekOf t s.srm.epoch = some (freeBytes s 32) ∧
        t.srm.epoch = s.srm.epoch ∧ t.srm.bank = s.srm.bank) ∧
    (hasVek s = true → exec .vekDraw s = .next s) ∧
    (both → roomPaused s = false → s.srm.reseal = false → (∀ k ∈ (s.srm.bank.get h).stale, n ≤ k) → n ∈ (s.srm.bank.get h).stale →
      copyOf s (other h) n = some r → ∃ t, exec (.staleCatchupStep h) s = .next t ∧ copyOf t h n = some r ∧
        (t.srm.bank.get h).stale = (s.srm.bank.get h).stale.filter (· ≠ n) ∧ t.srm.bank.get (other h) = s.srm.bank.get (other h)) ∧
    ((s.srm.bank.get h).stale = [] → exec (.staleCatchupStep h) s = .next s) ∧
    (s.pwr.phase ≠ .off → 1000 ≤ s.srm.seedAge → drbgReady s 2 = true → ∃ t, exec .maskSeedRefresh s = .next t ∧
      t.srm = { s.srm with maskSeed := some (mkShares s 1 (freeBytes s 32)), seedAge := 0 }) ∧
    (s.srm.seedAge < 1000 → exec .maskSeedRefresh s = .next s) ∧
    (s.pwr.cellOnly = true → (∀ e v, epochReg s e = some v → v.x.length = 32 ∧ v.y.length = 32) →
      ∃ t, exec .cellRemask s = .next t ∧ (∀ e, vekOf t e = vekOf s e) ∧ t.srm.bank = s.srm.bank ∧
        t.srm.cellSteps = s.srm.cellSteps + 1) ∧
    (s.pwr.cellOnly = false → exec .cellRemask s = .next s) ∧
    ((gal s g.toNat).state = .closing → roomPaused s = false → (s.adm.any fun c => c.phase == .running && c.op = 0x11 && c.p 0 1 = g.toNat) = false →
      ∃ t, exec (.galleryOverwriteDone g) s = .next t ∧
        gal t g.toNat = { state := .free, counter := (gal s g.toNat).counter } ∧
        ∀ k, k ∈ slotsOf s g.toNat → (mapEnt t k).assigned = false) ∧
    ((gal s g.toNat).state = .active ∨ roomPaused s = true → exec (.galleryOverwriteDone g) s = .next s)

/-! ### Monitors and recorder (spec/17, spec/18) -/

/-- Monitors (R492 to R497) and the recorder (R511 to R518): an event below COUNT is only remembered, one that completes it
within WINDOW fires the response in force (log, half reset, device reset, quench), a second event in one tick is none; minutes,
checkpoints, refreshes and seconds update the live record when their time has come. -/
def Obligations.MonitorsAndRecorder : Prop :=
  ∀ (s : State) (m : Byte) (detail : BitVec 16) (lf : Bool) (i : MonitorInfo), monitorInfo m.toNat = some i →
    let x := monEntry s m.toNat
    let hist := x.history ++ [tick s]
    let fires := x.countN.toNat ≤ hist.length ∧ tick s - nth 0 hist 0 < x.window.toNat
    (∀ d, detailOf s m.toNat detail.toNat lf = some d → monActive s m.toNat i = true → s.pwr.cellOnly = false →
      x.last ≠ some (tick s) →
      (hist.length < x.countN.toNat → ∃ t, exec (.monitorEvent m detail lf) s = .next t ∧
        monEntry t m.toNat = { x with history := hist, last := some (tick s) } ∧ t.tmp.log = s.tmp.log ∧ t.gen = s.gen ∧
        ∀ k, k ≠ m.toNat → monEntry t k = monEntry s k) ∧
      (fires → x.response = 0 → logCount s < 16384 → ∃ t, exec (.monitorEvent m detail lf) s = .next t ∧
        (monEntry t m.toNat).fired.toNat = Nat.min 255 (x.fired.toNat + 1) ∧ (monEntry t m.toNat).history = [] ∧
        (∀ h, bankUp s h = true → ∃ e, t.tmp.log.get h = s.tmp.log.get h ++ [e] ∧ leAt e 8 2 = m.toNat ∧ leAt e 12 2 = d % 65536) ∧
        t.gen = s.gen ∧ t.srm = s.srm) ∧
      (fires → x.response = 1 → s.tmp.decision = none → ∀ h, monHalf m.toNat = some h → s.atr.half.get h = .serving →
        s.flt.halfReset.get h = none → ∃ t, exec (.monitorEvent m detail lf) s = .next t ∧
          (t.flt.halfReset.get h).isSome = true ∧ halfStopped t h = true ∧ t.gen = s.gen) ∧
      (fires → x.response = 2 → s.tmp.decision = none → ∃ t, exec (.monitorEvent m detail lf) s = .next t ∧ t.gen = {} ∧
        t.pwr.cause = 3 ∧ t.sqs = [] ∧ t.gals = s.gals ∧ t.srm.epoch0 = s.srm.epoch0 ∧ t.srm.epoch1 = s.srm.epoch1) ∧
      (fires → x.response = 3 → s.tmp.decision = none → ∃ t, exec (.monitorEvent m detail lf) s = .next t ∧
        t.srm.epoch0 = none ∧ t.srm.epoch1 = none ∧ t.srm.quenching = true ∧ t.gen = s.gen ∧
        ∀ c, c < 8 → nth none t.cus.cer c = none)) ∧
    (s.pwr.cellOnly = false → x.last = some (tick s) → exec (.monitorEvent m detail lf) s = .next s) ∧
    (detailOf s m.toNat detail.toNat lf = none → exec (.monitorEvent m detail lf) s = .next s) ∧
    (monActive s m.toNat i = false → exec (.monitorEvent m detail lf) s = .next s) ∧
    (60000000 ≤ s.rcd.minuteTicks → ∃ t, exec .operatingMinute s = .next t ∧
      t.rcd.minutes.toNat = Nat.min (2 ^ 32 - 1) (s.rcd.minutes.toNat + 1) ∧ t.rcd.minuteTicks = s.rcd.minuteTicks - 60000000 ∧
      (t.rcd.minutes.toNat - s.rcd.live.minStart.toNat < 1440 → t.rcd.stored = s.rcd.stored ∧ t.rcd.live = s.rcd.live) ∧
      (1440 ≤ t.rcd.minutes.toNat - s.rcd.live.minStart.toNat → s.rcd.full = false → s.rcd.live.index ≠ 4095 →
        t.rcd.live.index = s.rcd.live.index + 1 ∧
        ∀ h, bankUp s h = true → (t.rcd.stored.get h).length = (s.rcd.stored.get h).length + 1)) ∧
    (s.rcd.minuteTicks < 60000000 → exec .operatingMinute s = .next s) ∧
    (60000000 ≤ s.rcd.sinceCheckpoint → s.rcd.full = false → ∃ t, exec .recorderCheckpoint s = .next t ∧
      { t with rcd := s.rcd } = s ∧ t.rcd.checkpoint = some t.rcd.live ∧ t.rcd.live.minEnd = s.rcd.minutes ∧
      t.rcd.live.pcEnd = s.tmp.powerCycles ∧ t.rcd.live.lane = s.rcd.live.lane ∧ t.rcd.sinceCheckpoint = 0) ∧
    (s.rcd.sinceCheckpoint < 60000000 → exec .recorderCheckpoint s = .next s) ∧
    (1000000 ≤ s.rcd.sinceRefresh → s.rcd.full = false → s.rcd.live.seq.toNat + 2 < 2 ^ 32 →
      ∃ t, exec .liveRefresh s = .next t ∧ { t with rcd := s.rcd } = s ∧
        t.rcd.live.seq.toNat % 2 = 0 ∧ s.rcd.live.seq.toNat < t.rcd.live.seq.toNat ∧ t.rcd.aperture = t.rcd.live.bytes) ∧
    (s.rcd.sinceRefresh < 1000000 → exec .liveRefresh s = .next s) ∧
    (∀ a b : Int, s.rcd.sinceSecond < 1000000 → exec (.operatingSecond a b) s = .next s) ∧
    (∀ a b temp : Int, 1000000 ≤ s.rcd.sinceSecond → temp = max a b → -10 ≤ temp → temp < 130 → s.rcd.full = false →
      ∃ t, exec (.operatingSecond a b) s = .next t ∧ { t with rcd := s.rcd } = s ∧
        { t.rcd.live with lane := s.rcd.live.lane, temp := s.rcd.live.temp } = s.rcd.live ∧
        t.rcd.live.temp = updNth s.rcd.live.temp ((temp + 20) / 10).toNat (fun v => Nat.min (2 ^ 32 - 1) (v + 1)) ∧
        t.rcd.live.lane = (if s.rcd.slots = 0 then s.rcd.live.lane
          else updNth s.rcd.live.lane (Nat.min 15 (16 * s.rcd.slotsHeld / s.rcd.slots)) fun v => Nat.min (2 ^ 32 - 1) (v + 1)) ∧
        t.rcd.sinceSecond = 0 ∧ t.rcd.slots = 0 ∧ t.rcd.slotsHeld = 0)

/-! ### Custodian cards, ceremonies, archive media (spec/11) -/

/-- A custodian card's session (R319 to R324, R329, R337, R601): detection powers the port, the answer to reset leads to PPS or
to S(IFS request), that to SELECT, a status word other than 0x9000 or a second bad answer refuses the card, a missing block is
asked for again, a new IFSC is answered alike, a share joins the oldest ceremony that takes it, enciphered under its key,
removal and VCARD_IO clear the ports. -/
def Obligations.CardSession : Prop :=
  ∀ (s : State) (port : Fin 16) (a : Atr) (size : Byte) (data : Bytes) (sw : BitVec 16), cardLive s port.val = true →
    let n := port.val
    let p := card s n
    let sent := fun (t : State) (b : Bytes) => t.out.card = s.out.card ++ [(n, b)]
    let refused := fun (t : State) (r : BitVec 4) => (card t n).state = .refused ∧ (card t n).reason = r ∧
      (card t n).power = false ∧ t.cus.refused.toNat = Nat.min (2 ^ 31 - 1) (s.cus.refused.toNat + 1)
    (p.present = false → s.pwr.vcardOk = true → ∃ t, exec (.cardDetect port) s = .next t ∧
      card t n = { state := .activating, power := true, waits := .power, present := true } ∧
      t.cus.event = s.cus.event ||| 1 ∧ t.cus.cer = s.cus.cer) ∧
    (p.present = true → exec (.cardDetect port) s = .next s) ∧
    (p.waits = .power → ∃ t, exec (.cardPowerTimeout port) s = .next t ∧
      card t n = { state := .error, reason := 11, present := p.present }) ∧
    (p.waits ≠ .power → exec (.cardPowerTimeout port) s = .next s) ∧
    (p.waits = .atr → ∀ t, exec (.cardAtr port a) s = .next t →
      (atrFault s a = none → a.ta1 = none → (card t n).waits = .ifs ∧ (card t n).ifsc = a.ta3 ∧ sent t (cardBlock 0xC1 [254])) ∧
      (∀ v, atrFault s a = none → a.ta1 = some v → a.specific = false → ta1Ok v = true → p.noPps1 = false →
        (card t n).waits = .pps ∧ sent t (ppsRequest (some v))) ∧
      (∀ r, atrFault s a = some r → p.retried = true → refused t (BitVec.ofNat 4 r)) ∧
      (∀ r, atrFault s a = some r → p.retried = false → card t n = { p with retried := true, waits := .atr })) ∧
    (p.waits = .atr → (∃ t, exec (.cardAtr port a) s = .next t) ∧
      (p.retried = true → ∃ t, exec (.cardAtrTimeout port) s = .next t ∧ refused t 1) ∧
      (p.retried = false → ∃ t, exec (.cardAtrTimeout port) s = .next t ∧ card t n = { p with retried := true, waits := .atr })) ∧
    (p.waits = .pps → (∃ t, exec (.cardPpsResponse port true) s = .next t ∧ (card t n).waits = .ifs ∧
        (card t n).ta1 = p.offered.getD 0x11 ∧ sent t (cardBlock 0xC1 [254])) ∧
      (p.noPps1 = false → ∃ t, exec (.cardPpsResponse port false) s = .next t ∧
        card t n = { state := .activating, power := true, waits := .power, present := true, noPps1 := true }) ∧
      (p.noPps1 = true → ∃ t, exec (.cardPpsResponse port false) s = .next t ∧ (card t n).state = .error ∧ (card t n).reason = 4)) ∧
    (p.waits = .ifs → cardWorking s n = false → (16 ≤ size.toNat → size.toNat ≤ 254 →
        ∃ t, exec (.cardBlockReceived port (.ifsRequest size)) s = .next t ∧ card t n = { p with ifsc := size, attempts := 0 } ∧
          sent t (cardBlock 0xE1 [size])) ∧
      (size = 254 → p.ifsc.toNat ≥ 16 → ∃ t, exec (.cardBlockReceived port (.ifsResponse size)) s = .next t ∧
        (card t n).state = .authenticating ∧ (card t n).waits = .apdu 0xA4 ∧
        sent t (cardBlock (if p.ns then 0x40 else 0) ([0x00, 0xA4, 0x04, 0x00, 7] ++ aidBytes))) ∧
      (p.attempts < 2 → ∀ i ∈ [Instr.cardWaitTimeExpiry port, .cardBlockReceived port .invalid], ∃ t, exec i s = .next t ∧
        card t n = { p with attempts := p.attempts + 1, wtx := 0 } ∧ sent t (cardBlock (if p.nr then 0x91 else 0x81) []))) ∧
    (p.waits = .apdu 0xA4 → p.rx = [] →
      (sw = 0x9000 → p.ifsc.toNat ≥ 16 → ∃ t, exec (.cardApduResponse port data sw) s = .next t ∧ (card t n).waits = .apdu 0x10 ∧
        sent t (cardBlock (if p.ns then 0x40 else 0) [0x80, 0x10, 0x00, 0x00, 249])) ∧
      (sw ≠ 0x9000 → ∃ t, exec (.cardApduResponse port data sw) s = .next t ∧ refused t 8)) ∧
    (p.state = .waitHolder → s.gen.a.toNat < p.holderTick + 1000000 → exec (.holderRecheck port) s = .next s) ∧
    (p.state = .waitHolder → drbgReady s 2 = false → exec (.holderRecheck port) s = .next s) ∧
    (p.state = .waitHolder → p.holderTick + 1000000 ≤ s.gen.a.toNat → drbgReady s 2 = true →
      ((runWants s n || cerWants s n) = true →
        (∀ u, opsDone s (cardOwner n p.challenge) [78] none u → ∃ t, exec (.holderRecheck port) s = .next t ∧
          (card t n).state = .authenticating ∧ (card t n).challenge = freeBytesAt s 1 32 ∧ (card t n).waits = .apdu 0x12) ∧
        (opsFresh s (cardOwner n p.challenge) [78] none → ∃ t, exec (.holderRecheck port) s = .next t ∧
          opsQueued s t (cardOwner n p.challenge) [78] none)) ∧
      ((runWants s n || cerWants s n) = false → ∃ t, exec (.holderRecheck port) s = .next t ∧ (card t n).state = .ready)) ∧
    (∀ k x, p.state = .ready → p.share ≠ [] → s.cus.run = none → eligible s n (cardIndex p) = some k →
      nth none s.cus.cer k = some x → ∃ t, exec (.shareGiven port) s = .next t ∧ (card t n).state = .done ∧ (card t n).share = [] ∧
        let share := if p.shareLine = 24 + k then p.share
          else lineCipher s (24 + k) (cardIndex p) (lineCipher s p.shareLine (cardIndex p) p.share)
        let shares := x.shares ++ [(cardIndex p, share)]
        let secret := shamirJoin (shares.map fun e => (e.1, lineCipher s (24 + k) e.1 e.2))
        if shares.length < s.cus.m then nth none t.cus.cer k = some { x with shares }
        else if commitment secret = s.cus.commit then
          nth none t.cus.cer k = some { x with complete := true, shares := [], secret := lineCipher s (24 + k) 0 secret }
        else nth none t.cus.cer k = none) ∧
    (p.share = [] → exec (.shareGiven port) s = .next s) ∧
    (p.present = true → s.pwr.vcardOk = true → ∃ t, exec (.cardRemoved port) s = .next t ∧ card t n = {} ∧
      t.cus.event = s.cus.event ||| 2) ∧
    (s.pwr.vcardOk = true → ∃ t, exec .vcardIoOutOfRange s = .next t ∧ t.pwr.vcardOk = false ∧
      ∀ k, k < 16 → (card s k).state ≠ .disabled → (card t k).state = .error ∧ (card t k).reason = 11) ∧
    (s.pwr.vcardOk = false → ∃ t, exec .vcardIoInRange s = .next t ∧ t.pwr.vcardOk = true ∧
      ∀ k, k < 16 → (card s k).state = .error → (card s k).reason = 11 →
        (card t k).state = if (card s k).present then .activating else .empty) ∧
    (s.pwr.vcardOk = true → exec .vcardIoInRange s = .next s)

/-- Windows of ceremonies and set commands, and archive media (R332, R340, R342, R347 to R350): a window that closes ends its
ceremony or set command; a record written brings the next, the last one CMD27 with TMP_WRITE_PROTECT, and the card that has it
the completion; a card that does not answer, fails a CRC or the switch to 1.8 V is in ERROR; a busy card gets the record in the
next block, and ends the command with ERROR reason 3 at the third failure; cards set and release the 1.8 V level. -/
def Obligations.CeremonyWindowsAndArchiveMedia : Prop :=
  ∀ (s : State) (k : Fin 8) (x : Ceremony) (run : SetRun) (c : AdminCmd) (port : Fin 4) (sd : SdCard) (w : ArcWrite),
    let n := port.val
    (nth none s.cus.cer k.val = some x → s.gen.windowDone = true → x.deadline ≤ tick s → citing s x.ref = none →
      ∃ t, exec (.ceremonyWindowExpiry k) s = .next t ∧ nth none t.cus.cer k.val = none ∧
        t.srm.lines.get [] (24 + k.val) = [] ∧ t.cus.event = s.cus.event ||| 8 ∧ t.cus.commit = s.cus.commit) ∧
    (nth none s.cus.cer k.val = none → exec (.ceremonyWindowExpiry k) s = .next s) ∧
    (s.cus.run = some run → s.gen.windowDone = true → run.deadline ≤ tick s → setCmd s run = some c →
      ∃ u, exec .setCreateWindowExpiry s = .next (fails u c .notAuthorised) ∧ u.cus.run = none ∧
        u.srm.lines.get [] 23 = [] ∧ u.cus.installed = s.cus.installed ∧ u.cus.commit = s.cus.commit) ∧
    (s.cus.run = none → exec .setCreateWindowExpiry s = .next s) ∧
    (arcLive s n = true → (arcAt s n).state = .empty →
      let up := sd.s18a && (s.arc.v18 || s.arc.uhsEn && !othersActive s n)
      let reason : BitVec 4 := if !sd.responds then 1 else if !sd.crcOk then 2 else 5
      (sd.responds = false ∨ sd.crcOk = false ∨ up = true ∧ sd.switchOk = false) → ∃ t, exec (.arcCardDetect port sd) s = .next t ∧
        arcAt t n = { state := .error, reason } ∧ t.arc.v18 = s.arc.v18 ∧ t.arc.write = s.arc.write) ∧
    (arcLive s n = true → (arcAt s n).state = .empty → s.arc.write = none → s.arc.v18 = false → sd.responds = true →
      sd.crcOk = true → sd.switchOk = true →
      let up := sd.s18a && s.arc.uhsEn && !othersActive s n
      ∃ t, exec (.arcCardDetect port sd) s = .next t ∧ t.arc.v18 = up ∧ arcAt t n = initSd sd up ∧
        (arcAt t n).state = .ready ∧ t.arc.vselAt = if up then some (tick s) else s.arc.vselAt) ∧
    (arcLive s n = true → (arcAt s n).state = .empty → s.arc.v18 = true → sd.s18a = false → sd.responds = true → sd.crcOk = true →
      ∃ t, exec (.arcCardDetect port sd) s = .next t ∧ (arcAt t n).state = .init ∧ (arcAt t n).no18 = true ∧ t.arc.v18 = true) ∧
    ((arcAt s n).state ≠ .empty → exec (.arcCardDetect port sd) s = .next s) ∧
    ((arcAt s n).state = .ready → s.arc.write = none → ∃ t, exec (.arcCardRemoved port) s = .next t ∧ arcAt t n = {} ∧
      t.arc.v18 = (s.arc.v18 && othersActive s n)) ∧
    ((arcAt s n).state = .empty → exec (.arcCardRemoved port) s = .next s) ∧
    (s.arc.write = some w → w.port = n → w.waitCard = false → (arcAt s n).state = .busy →
      (∃ t, exec (.arcCardRemoved port) s = .next t ∧ t.arc.rewrites = s.arc.rewrites ∧
        t.arc.write = some { w with block := if w.protecting then w.block else w.block + 1, attempts := 0, waitCard := true }) ∧
      (arcLive s n = true → writable (arcAt s n) = true → (arcAt s n).no18 = false →
        (∀ r rs, w.protecting = false → w.records.tail = r :: rs → ∃ t, exec .arcRecordWritten s = .next t ∧
          t.arc.write = some { w with records := r :: rs, seq := w.seq + 1, block := w.block + 1, attempts := 0 } ∧
          t.out.arc = s.out.arc ++ [(n, w.block + 1, r)]) ∧
        (w.protecting = false → w.records.tail = [] → ∃ t, exec .arcRecordWritten s = .next t ∧
          t.arc.write = some { w with records := [], protecting := true, attempts := 0 } ∧
          t.out.sd = s.out.sd ++ (readCsd (arcAt s n) ++ programCsd (arcAt s n) false true).map fun b => (n, b)) ∧
        (w.protecting = true → arcCmd s = some c → ∃ u, exec .arcRecordWritten s = .next (doneWith u c w.archiveId) ∧
          (arcAt u n).tmpWp = true ∧ (arcAt u n).state = .ready ∧ u.arc.write = none) ∧
        (w.protecting = false → w.attempts < 2 → ∃ t, exec .arcBusyTimeout s = .next t ∧
          t.arc.write = some { w with block := w.block + 1, attempts := w.attempts + 1 } ∧
          t.arc.rewrites.toNat = Nat.min (2 ^ 31 - 1) (s.arc.rewrites.toNat + 1) ∧
          t.out.arc = s.out.arc ++ [(n, w.block + 1, nth [] w.records 0)]) ∧
        (2 ≤ w.attempts → arcCmd s = some c → queuePair s c.key c.sqGen → c.unread = false →
          ∃ t, exec .arcBusyTimeout s = .next t ∧ answered t c .faultUnresolved (w.seq % 65536) [] ∧ t.arc.write = none ∧
            (arcAt t n).state = .error ∧ (arcAt t n).reason = 3))) ∧
    (s.arc.write = none → exec .arcRecordWritten s = .next s ∧ exec .arcBusyTimeout s = .next s)

/-- The custodian and archive commands 0x30 to 0x37 (R332 to R340, R347, R352, R353) once they run, outside an inspection
session. -/
def Obligations.CeremonyAndArchiveCommands : Prop :=
  ∀ (s : State) (g : Gallery) (q : QIndex) (c : AdminCmd), s.lcs.session = false →
    let open' := cerOf s (c.p 0 4)
    let m := c.p 9 1
    let T := c.p 0 1
    let R := c.p 2 4
    (∀ k, admRuns s g q 0x30 c → fieldOk (c.p 0 1) (c.p 1 1) = true → hasRange (c.p 4 2) 1 8191 = true → 1000000 ≤ c.p 6 4 →
      mayOpen c.gal (c.p 0 1) (c.p 1 1) = true → setThere s = true → s.cus.cer.length = 8 →
      (List.range 8).find? (fun i => (nth none s.cus.cer i).isNone) = some k → drbgReady s 2 = true →
      ∃ u ref, exec (.ceremonyOpen g q) s = .next (doneWith u c (le 4 ref)) ∧ ref % 8 = k ∧ ref < 2 ^ 32 ∧
        nth none u.cus.cer k = some {
          ref := BitVec.ofNat 32 ref, seq := c.seq, purpose := c.p 0 1, gallery := c.p 1 1, opener := c.gal
          ports := BitVec.ofNat 16 (c.p 2 2), uses := c.p 4 2, deadline := tick s + c.p 6 4 } ∧
        ∀ i, i ≠ k → nth none u.cus.cer i = nth none s.cus.cer i) ∧
    (admRuns s g q 0x30 c → mayOpen c.gal (c.p 0 1) (c.p 1 1) = true → fieldOk (c.p 0 1) (c.p 1 1) = false →
      exec (.ceremonyOpen g q) s = .next (fails s c .badInput)) ∧
    (admRuns s g q 0x30 c → hasRange (c.p 0 1) 1 9 = true → mayOpen c.gal (c.p 0 1) (c.p 1 1) = false →
      exec (.ceremonyOpen g q) s = .next (fails s c .notAuthorised)) ∧
    (∀ k x, open' = some (k, x) →
      (admRuns s g q 0x31 c → exec (.ceremonyWait g q) s = .next (if x.complete then done s c else keepRunning s c)) ∧
      (admRuns s g q 0x32 c → x.opener = c.gal → citing s x.ref = none → ∃ u, exec (.ceremonyClose g q) s = .next (done u c) ∧
        nth none u.cus.cer k = none ∧ u.srm.lines.get [] (24 + k) = []) ∧
      (admRuns s g q 0x32 c → x.opener ≠ c.gal → exec (.ceremonyClose g q) s = .next (fails s c .notAuthorised))) ∧
    (open' = none → (admRuns s g q 0x31 c → exec (.ceremonyWait g q) s = .next (fails s c .notAuthorised)) ∧
      (admRuns s g q 0x32 c → exec (.ceremonyClose g q) s = .next (fails s c .notAuthorised))) ∧
    (∀ adopt point, s.cus.run = none → drbgReady s 2 = true → setThere s = false → cerOf s 0 = none →
      let i : Instr := if adopt then .custodianSetAdopt g q point else .custodianSetCreate g q point
      admRuns s g q (if adopt then 0x34 else 0x33) c →
      ((m < 2 ∨ c.p 8 1 < m ∨ 16 < c.p 8 1) → exec i s = .next (fails s c .badInput)) ∧
      (2 ≤ m → m ≤ c.p 8 1 → c.p 8 1 ≤ 16 → c.p 16 4 = 0 →
        (∀ b, point = some b → ∃ t, exec i s = .next t ∧
          if pointOk 2 (padTo 97 b) then carriesOn t c ∧ ∃ r, t.cus.run = some r ∧ r.n = c.p 8 1 ∧ r.m = m ∧ r.adopt = adopt ∧
            r.ports = BitVec.ofNat 16 (c.p 10 2) ∧ r.deadline = tick s + c.p 12 4 ∧ r.point = padTo 97 b ∧ r.stored = []
          else t = fails s c .badInput) ∧
        (point = none → exec i s = .next (completeAdmin s c .dmaError 1 0 [])))) ∧
    (admRuns s g q 0x35 c → (useCerLong s c.cited c.gal R 3 T).1 = true → c.p 1 1 ≤ 3 → (gal s T).state = .active →
      (c.gal = 0 ∨ c.gal = T) → slotTurn s T c = true → s.arc.write = none → drbgReady s 2 = true → hasVek s = true →
      roomPaused s = false →
      let ok := arcLive s (c.p 1 1) && (arcAt s (c.p 1 1)).state == .ready && writable (arcAt s (c.p 1 1)) &&
        decide (2 * arcLength s T ≤ (arcAt s (c.p 1 1)).blocks)
      (ok = true → arcLength s T ≤ (gal s T).arcQuota → ∃ t w, exec (.archiveWrite g q) s = .next t ∧ carriesOn t c ∧
        t.arc.write = some w ∧ w.port = c.p 1 1 ∧ w.records.length = arcLength s T ∧ w.seq = 0 ∧ w.block = 0 ∧
        (arcAt t (c.p 1 1)).state = .busy ∧ t.out.arc = s.out.arc ++ [(c.p 1 1, 0, nth [] w.records 0)]) ∧
      (ok = false → ∃ u, exec (.archiveWrite g q) s = .next (fails u c .badInput) ∧ u.arc = s.arc)) ∧
    (admRuns s g q 0x36 c → c.p 0 1 ≤ 3 → s.arc.write = none → (useCer s c.gal (c.p 1 4) 4 0).1 = true →
      ∀ hdr trl, let p := arcAt s (c.p 0 1)
      let ok := arcLive s (c.p 0 1) && p.state == .ready && p.tmpWp && !p.permWp && !p.switchWp && hdr && trl
      (ok = true → ∃ u, exec (.archiveSeal g q hdr trl) s = .next (done u c) ∧ arcAt u (c.p 0 1) = { p with permWp := true }) ∧
      (ok = false → ∃ u, exec (.archiveSeal g q hdr trl) s = .next (fails u c .badInput) ∧ u.arc = s.arc)) ∧
    (∀ blocks, admRuns s g q 0x37 c → T ≤ 3 → (gal s (c.p 1 1)).state = .active → s.arc.write = none →
      drbgReady s 2 = true → hasVek s = true → roomPaused s = false → arcLive s T = true → (arcAt s T).state = .ready →
      let u := useCer s c.gal (c.p 8 4) 5 (c.p 1 1)
      u.1 = true → exec (.archiveRestore g q blocks) s = .next (match findHeader 4 blocks with
        | none => completeAdmin u.2.2 c .badInput 0 0 []
        | some h =>
          let x : Restore :=
            { target := c.p 1 1, src := c.p 2 2, dst := c.p 4 2, count := c.p 6 2, sid := slice (recPayload h) 0 48
              ak := arcKey u.2.1 (slice h 8 16) (slice (recPayload h) 0 48) }
          match readArchive (slice h 8 16) (2 * (leAt (recPayload h) 0x44 4 + 2)) 0 blocks [] with
          | none => completeAdmin u.2.2 c .badInput 0 0 []
          | some rs => match checkArchive u.2.2 x u.2.1 rs with
            | .error e => completeAdmin u.2.2 c .badInput (e % 65536) 0 []
            | .ok body =>
              let a := body.foldl x.apply { s := u.2.2 }
              match a.failed with
              | some k => completeAdmin a.s c .badInput k 0 []
              | none => done a.s c))

/-! ### Span and chain (spec/18, spec/19) -/

/-- Links (R523 to R532): training leads to HELLO when the topology enables the link and to REFUSED otherwise; HELLO1 and HELLO2
pass their checks or refuse the link with the number of the check; flits out of order are refused by NAK, a flit whose tag fails
retrains the link, one that passes moves the sequence; the replay buffer is sent again after one tick without progress, the
ninth time in a row retrains; keys are replaced at every multiple of 2^32. What the hello signs, checks and derives waits for
its Reserve operations, one link at a time. -/
def Obligations.SpanLinks : Prop :=
  ∀ (s : State) (l : BitVec 7) (m f : Bytes),
    let n := l.toNat
    let x := link s n
    let b := padTo 232 f
    let refused := fun (t : State) (r : Nat) => (link t n).state = .refused ∧ (link t n).reason = BitVec.ofNat 4 r
    let own := fun step : Nat => [5] ++ le 1 n ++ le 1 step ++ le 8 x.eph
    let turn := fun step : Nat => ∀ w ∈ resWorks s, w.owner.head? = some 5 → w.owner = own step
    let ready := fun (step : Nat) (ticks : List Nat) => turn step ∧ ∃ u, opsDone s (own step) ticks (some x.half) u
    let queued := fun (step : Nat) (ticks : List Nat) (i : Instr) => turn step → opsFresh s (own step) ticks (some x.half) →
      ∃ t, exec i s = .next t ∧ opsQueued s t (own step) ticks (some x.half)
    ((x.state = .down ∨ x.state = .training ∨ (x.state = .hello ∧ x.helloTx = [])) → linkPowered s n = true →
        s.atr.restarting = false →
      (topoOf s n = none → ∃ t, exec (.linkTrained l) s = .next t ∧ refused t 1) ∧
      (topoOf s n ≠ none → drbgReady s 2 = true → queued 0 [78] (.linkTrained l) ∧
        (ready 0 [78] → ∃ t, exec (.linkTrained l) s = .next t ∧ (link t n).state = .hello ∧
          (link t n).helloTx = hello1Of s n s.freeCtr ∧ (link t n).seqTx = 0 ∧ (link t n).seqRx = 0))) ∧
    (linkPowered s n = false → exec (.linkTrained l) s = .next s) ∧
    (x.state = .hello → x.helloTx = [] → exec (.hello1 l m) s = .next s) ∧
    (∀ e, topoOf s n = some e → x.state = .hello → x.helloTx ≠ [] → s.atr.restarting = false → drbgReady s 2 = true →
      queued 1 [80] (.hello1 l m) ∧ (ready 1 [80] →
        (∀ r, helloCheck e m = some r → ∃ t, exec (.hello1 l m) s = .next t ∧ refused t r) ∧
        (helloCheck e m = none → s.chn.valid = true → ∃ t, exec (.hello1 l m) s = .next t ∧ (link t n).state = .hello ∧
          (link t n).helloRx = m) ∧
        (helloCheck e m = none → s.chn.valid = false → ∃ t, exec (.hello1 l m) s = .next t ∧
          refused t (if helloEpoch m = s.chn.epoch.toNat then 7 else 6)))) ∧
    (x.state = .hello → queued 2 [140, 75] (.hello2 l m)) ∧
    (x.state = .hello → x.helloRx ≠ [] → s.atr.restarting = false → ready 2 [140, 75] → ∃ t, exec (.hello2 l m) s = .next t ∧
      if ecVerify 2 (helloPoint x.helloRx) (sha384 (ascii "QLV-SPAN-HELLO" ++ x.helloRx ++ x.helloTx)) (padTo 96 m) = false then
        refused t 5
      else if helloEpoch x.helloRx ≠ s.chn.epoch.toNat then refused t 6
      else if s.chn.valid = false then refused t 7
      else (link t n).state = .up ∧ (link t n).peer = BitVec.ofNat 10 (helloUnit x.helloRx) ∧ (link t n).countTx = 0 ∧
        let low := fromBe (partId s) < fromBe (helloId x.helloRx)
        let k := ladderKdf (ecdh 2 (ephOf x.eph) (helloEph x.helloRx)) "QLV-SPAN-LINK"
          (sha384 (if low then x.helloTx ++ x.helloRx else x.helloRx ++ x.helloTx)) 72
        (link t n).keyTx = (if low then slice k 0 32 else slice k 32 32) ∧
        (link t n).keyRx = (if low then slice k 32 32 else slice k 0 32) ∧
        (link t n).saltTx = (if low then slice k 64 4 else slice k 68 4) ∧
        (link t n).saltRx = (if low then slice k 68 4 else slice k 64 4)) ∧
    (x.state = .up →
      (x.countTx ≠ 0 → x.countTx % 2 ^ 32 = 0 → x.ratchetTx < x.countTx / 2 ^ 32 → ∃ t, exec (.keyRatchet l true) s = .next t ∧
        link t n = { x with keyTx := ladderKdf x.keyTx "QLV-SPAN-RATCHET" (be 8 x.countTx) 32, ratchetTx := x.ratchetTx + 1 }) ∧
      (x.countRx ≠ 0 → x.countRx % 2 ^ 32 = 0 → x.ratchetRx < x.countRx / 2 ^ 32 → ∃ t, exec (.keyRatchet l false) s = .next t ∧
        link t n = { x with keyRx := ladderKdf x.keyRx "QLV-SPAN-RATCHET" (be 8 x.countRx) 32, ratchetRx := x.ratchetRx + 1 }) ∧
      (leAt b 0 2 / 1024 % 4 = 1 → exec (.flitReceived l f false) s = .next (sendAck s n true)) ∧
      (x.replay = [] → leAt b 0 2 / 1024 % 4 = 1 → leAt b 2 2 = (x.seqTx + 1023) % 1024 →
        (leAt b 0 2 % 1024 ≠ x.seqRx → exec (.flitReceived l f true) s = .next (sendAck s n true)) ∧
        (leAt b 0 2 % 1024 = x.seqRx → quietFaults s → ∃ t, exec (.flitReceived l f true) s = .next t ∧
          match gcmDec x.ratchetIn.keyRx (x.saltRx ++ be 8 x.countRx) (slice b 0 8) (slice b 8 208) (slice b 0xD8 16) with
          | none => (link t n).state = .training
          | some _ => (link t n).seqRx = (x.seqRx + 1) % 1024 ∧ (link t n).countRx = x.countRx + 1)) ∧
      (x.replay ≠ [] → x.sinceAck + 1 ≤ s.gen.a.toNat →
        (x.resends < 8 → ∃ t, exec (.replayTimeout l) s = .next t ∧ (link t n).resends = x.resends + 1 ∧
          (link t n).replay = x.replay ∧ (link t n).retry = BitVec.ofNat 31 (Nat.min 2147483647 (x.retry.toNat + x.replay.length)) ∧
          t.out.flits.length = s.out.flits.length + x.replay.length) ∧
        (8 ≤ x.resends → quietFaults s → ∃ t, exec (.replayTimeout l) s = .next t ∧ (link t n).state = .training)) ∧
      (s.gen.a.toNat < x.sinceAck + 1 → exec (.replayTimeout l) s = .next s)) ∧
    (x.state = .hello → leAt b 0 2 / 1024 % 4 = 2 → leAt b 10 2 = 0 → 1 ≤ byteAt b 12 → byteAt b 12 ≤ 200 → byteAt b 13 = 1 →
      (spanBuffersFull s = true → ∃ t, exec (.flitReceived l f true) s = .next t ∧ t.spn.inbox = s.spn.inbox ∧
        t.spn.dropBuffer = satInc31 s.spn.dropBuffer) ∧
      (spanBuffersFull s = false → ∃ t, exec (.flitReceived l f true) s = .next t ∧
        t.spn.inbox = if byteAt b 16 = 9 then s.spn.inbox ++ [slice b 16 (byteAt b 12)] else s.spn.inbox)) ∧
    (x.state ≠ .hello → x.state ≠ .up → ∀ ok, exec (.flitReceived l f ok) s = .next s)

/-- The chain and its roll call, and the end of a loop-back test (R484, R485, R533, R534, R538, R553, R597). A unit that is not
the head passes a frame on with the larger epoch or the next address; the head takes its own frame in the pass that runs; every
other frame is discarded and counted; a pass that takes 100,000 ticks ends the command `FAULT_UNRESOLVED`. -/
def Obligations.ChainRollCallAndLoopbackEnd : Prop :=
  ∀ (s : State) (e a : BitVec 16) (own : Bool) (d q p : Nat) (c : AdminCmd),
    let rows : List Instr := [.rollQuery e own, .rollAssign e a own, .rollDone e a own]
    let errors := fun t : State => t.chn.frameErr.toNat = Nat.min (2 ^ 31 - 1) (s.chn.frameErr.toNat + 1)
    let frame := fun (t : State) (k x y : Nat) => t.out.chain = s.out.chain ++ [le 1 k ++ le 2 x ++ le 2 y ++ zeros 4]
    (chainOn s = false → (∀ i ∈ .chainFrameDiscard :: rows, exec i s = .next s)) ∧
    (chainOn s = true → ∃ t, exec .chainFrameDiscard s = .next t ∧ errors t) ∧
    (chainOn s = true → s.chn.head = false →
      (∃ t, exec (.rollQuery e own) s = .next t ∧ frame t 1 (Nat.max e.toNat s.chn.epoch.toNat) 0 ∧ t.chn.addr = s.chn.addr) ∧
      (∃ t, exec (.rollAssign e a own) s = .next t ∧ frame t 2 e.toNat (a + 1).toNat ∧ t.chn.epoch = e ∧
        (a.toNat < 1024 → t.chn.addr = a ∧ t.chn.valid = true) ∧ (1024 ≤ a.toNat → t.chn.addr = 0 ∧ t.chn.valid = false)) ∧
      (∃ t, exec (.rollDone e a own) s = .next t ∧ frame t 3 e.toNat a.toNat ∧ t.spn.topo = [] ∧ t.spn.routes = [] ∧
        t.chn.count = BitVec.ofNat 11 (Nat.min 2047 a.toNat))) ∧
    (chainOn s = true → s.chn.head = true → own = false → ∀ i ∈ rows, ∃ t, exec i s = .next t ∧ errors t ∧ t.spn = s.spn ∧
      t.chn.addr = s.chn.addr ∧ t.chn.epoch = s.chn.epoch ∧ t.out.chain = s.out.chain) ∧
    (chainOn s = true → s.chn.head = true → own = true → s.chn.roll = some (p, d, q) → s.gen.a.toNat < d →
      (p = 1 → ∃ t, exec (.rollQuery e own) s = .next t ∧ t.chn.epoch = e + 1 ∧ t.chn.addr = 0 ∧ t.chn.valid = true ∧
        t.chn.roll = some (2, s.gen.a.toNat + 100000, q) ∧ frame t 2 (e + 1).toNat 1) ∧
      (p = 2 → ∃ t, exec (.rollAssign e a own) s = .next t ∧ t.chn.roll = some (3, s.gen.a.toNat + 100000, q) ∧
        frame t 3 e.toNat a.toNat) ∧
      (p = 3 → rollCmd s q = some c → ∃ u, u.chn.roll = none ∧ u.spn.topo = [] ∧ exec (.rollDone e a own) s =
        .next (if 1024 < a.toNat then fails u c .quota else doneWith u c (le 2 a.toNat ++ le 2 e.toNat)))) ∧
    (s.chn.roll = some (p, d, q) → d ≤ s.gen.a.toNat → rollCmd s q = some c → ∃ u, u.chn.roll = none ∧ u.chn.rollFail = true ∧
      exec .rollPassTimeout s = .next (fails u c .faultUnresolved)) ∧
    (s.chn.roll = some (p, d, q) → s.gen.a.toNat < d → exec .rollPassTimeout s = .next s) ∧
    (s.chn.roll = none → exec .rollPassTimeout s = .next s) ∧
    ∀ (kind index : Byte) (back : Word) (first : Option Word) (l : LoopTest),
      (s.flt.loops.find? fun x => x.kind = kind.toNat && x.index = index.toNat) = some l → s.gen.windowDone = true →
      (s.adm.find? fun c => c.key = l.sq && c.phase == .running && c.op = 0x75) = some c →
      ((back.toNat = l.units ∨ (back.toNat ≤ l.units ∧ l.deadline ≤ s.gen.a.toNat)) →
        ∃ u, u.flt.loops = s.flt.loops.filter (· ≠ l) ∧ exec (.loopbackEnd kind index back first) s =
          .next (doneWith u c (le 4 l.units ++ le 4 back.toNat ++ le 4 (first.getD 0xFFFFFFFF).toNat))) ∧
      (back.toNat < l.units → s.gen.a.toNat < l.deadline → exec (.loopbackEnd kind index back first) s = .next s)

/-- What doorbells (R109), the admin pair's enable (R111), the steps of a link (R526 to R532) and chain frames (R533, R597)
change, and that each of these commands takes its effect and leaves everything else as it is: a doorbell its queue's record, a
write of the enable the gallery's record, a link's step the Span state and what the part sends, a frame the chain's state. -/
def Obligations.DoorbellsLinksAndFramesComplete : Prop :=
  ∀ (s : State) (port : Half) (g : Gallery) (q : QIndex) (v : Word) (l : BitVec 7) (m f : Bytes) (e a : BitVec 16),
    let n := g.toNat
    let k := 64 * n + q.toNat
    let y := link s l.toNat
    let open' := (fnCfg s port n).flrEnd = none ∧ (gal s n).state = .active
    let now := s.gen.a.toNat
    (open' → (sq s k).exist = true → (sq s k).gen.toNat = v.toNat / 2 ^ 28 → sqIndexOk (sq s k) (v.toNat % 2 ^ 17) = true →
      ∃ t, exec (.sqDoorbellWrite port g q v) s = .next t ∧ { t with sqs := s.sqs } = s ∧
        sq t k = { sq s k with pi := v.toNat % 2 ^ 17 } ∧ ∀ i, i ≠ k → sq t i = sq s i) ∧
    (open' → (cq s k).exist = true → (cq s k).gen.toNat = v.toNat / 2 ^ 28 → cqIndexOk (cq s k) (v.toNat % 2 ^ 17) = true →
      ∃ t, exec (.cqDoorbellWrite port g q v) s = .next t ∧ { t with cqs := s.cqs } = s ∧
        cq t k = { cq s k with ci := v.toNat % 2 ^ 17 } ∧ ∀ i, i ≠ k → cq t i = cq s i) ∧
    (open' → (gv s n).aq.ready = false → ∃ t, exec (.aqEnableWrite port g v) s = .next t ∧ { t with galv := s.galv } = s ∧
      (gv t n).aq.enable = true ∧ (gv t n).aq.deciding = true ∧ ∀ i, i ≠ n → gv t i = gv s i) ∧
    ((gal s n).state = .active → (gv s n).aq.deciding = true → s.gen.windowDone = true → (gv s n).aq.due ≤ now →
      ∃ t, exec (.aqEnableDecide g) s = .next t ∧ { t with galv := s.galv, sqs := s.sqs, cqs := s.cqs } = s ∧
        (gv t n).aq.deciding = false ∧ ((gv t n).aq.ready = true ∨ (gv t n).aq.refused = true)) ∧
    (open' → (gv s n).aq.ready = true → (gv s n).aq.closing = false → ∃ t, exec (.aqDisable port g) s = .next t ∧
      (gv t n).aq.closing = true ∧ (sq t (64 * n)).closing = true ∧ t.cqs = s.cqs ∧ t.out = s.out ∧ t.mem = s.mem) ∧
    (y.state = .training → linkPowered s l.toNat = true → s.atr.restarting = false → topoOf s l.toNat = none →
      ∃ t, exec (.linkTrained l) s = .next t ∧ { t with spn := s.spn } = s ∧ (link t l.toNat).state = .refused ∧
        ∀ i, i ≠ l.toNat → link t i = link s i) ∧
    (y.state ≠ .hello → ∀ i ∈ [Instr.hello1 l m, .hello2 l m], ∃ t, exec i s = .next t ∧ { t with spn := s.spn } = s ∧
      (∀ i, link t i = link s i) ∧
      t.spn.inbox = s.spn.inbox.eraseP fun b => msgClass b = 9 && msgBody b = m) ∧
    (y.state = .up → ∀ out, ∃ t, exec (.keyRatchet l out) s = .next t ∧ { t with spn := s.spn } = s ∧
      (∀ i, i ≠ l.toNat → link t i = link s i) ∧ t.spn.inbox = s.spn.inbox ∧ t.spn.outbox = s.spn.outbox) ∧
    (y.state = .up → leAt (padTo 232 f) 0 2 / 1024 % 4 = 1 → ∃ t, exec (.flitReceived l f false) s = .next t ∧
      { t with out := s.out } = s ∧ t.out.flits.length = s.out.flits.length + 1) ∧
    (y.state = .up → y.replay ≠ [] → y.sinceAck + 1 ≤ now → y.resends < 8 → ∃ t, exec (.replayTimeout l) s = .next t ∧
      { t with out := s.out, spn := s.spn } = s ∧ (∀ i, i ≠ l.toNat → link t i = link s i) ∧
      (link t l.toNat).replay = y.replay ∧ t.out.flits.length = s.out.flits.length + y.replay.length) ∧
    (chainOn s = true → ∃ t, exec .chainFrameDiscard s = .next t ∧ { t with chn := s.chn } = s ∧
      t.chn.frameErr = satInc31 s.chn.frameErr) ∧
    (chainOn s = true → s.chn.head = false → ∀ i ∈ [Instr.rollQuery e false, .rollAssign e a false], ∃ t, exec i s = .next t ∧
      { t with chn := s.chn, out := s.out, cores := s.cores } = s ∧ t.out.chain.length = s.out.chain.length + 1) ∧
    (chainOn s = true → s.chn.head = false → ∃ t, exec (.rollDone e a false) s = .next t ∧
      { t with chn := s.chn, out := s.out, cores := s.cores, spn := s.spn } = s ∧ t.spn.replicas = [] ∧ t.spn.inbox = [] ∧
      t.out.chain.length = s.out.chain.length + 1) ∧
    (∀ p d r, s.chn.roll = some (p, d, r) → d ≤ now → rollCmd s r = none → ∃ t, exec .rollPassTimeout s = .next t ∧
      { t with chn := s.chn } = s ∧ t.chn.roll = none ∧ t.chn.rollFail = true)

/-- Pairs: handshake, heartbeat, replication (R540 to R545). A PAIR_HELLO that passes makes the pair ACTIVE; hellos and
heartbeats leave every 1,000 ticks; silence of 3,000 ticks makes a pair UNREACHABLE and any message ends that; replicas carry
rising numbers, leave again after 10,000 ticks, and are applied once, in a changes step and in order, when they verify. -/
def Obligations.PairHandshakeAndReplication : Prop :=
  ∀ (s : State) (m : Bytes) (gal : Gallery) (slot : BitVec 16),
    let g := msgDstGal m
    let p := pairAt s g
    let o := pairAt s gal.toNat
    let now := s.gen.a.toNat
    let x := Replica.of (msgBody m)
    let t := applyReplicas s
    let refusals := t.spn.replRefused.toNat = Nat.min (2 ^ 31 - 1) (s.spn.replRefused.toNat + 1)
    let ack := fun r : Nat => sentTo s t (msgSrc m)
      (spanMsg s 2 (msgSrc m) (msgTseq m) g (msgSrcGal m) (slice (msgBody m) 0 8 ++ le 1 r ++ zeros 7))
    let sends := fun (t : State) (n : Nat) => (pairAt t gal.toNat).replSent = o.replSent + 1 ∧
      (pairAt t gal.toNat).inFlight = o.inFlight.filter (·.1 ≠ n) ++ [(n, o.replSent + 1, now)] ∧
      (pairAt t gal.toNat).pending = o.pending
    (forUnit s 7 m → fromPartner s g m = true → p.state ≠ .resync → ∃ t, exec (.pairHello m) s = .next t ∧
      if pairHelloOk p (msgBody m) then (pairAt t g).state = .active ∧ (pairAt t g).point = (msgBody m).take 97 ∧
        (pairAt t g).transport = slice (msgBody m) 145 97 ∧ (pairAt t g).lastMsg = now
      else pairAt t g = p) ∧
    (o.state = .pending → anyServing s = true → s.atr.restarting = false → drbgReady s 2 = true →
      (o.lastHello + 1000 ≤ now → ∃ t, exec (.pairHelloTimer gal) s = .next t ∧ (pairAt t gal.toNat).lastHello = now ∧
        sentTo s t o.unit.toNat (spanMsg s 7 o.unit.toNat 0 gal.toNat o.partner.toNat (dikPub s ++ transportKeys s 1))) ∧
      (now < o.lastHello + 1000 → exec (.pairHelloTimer gal) s = .next s)) ∧
    (o.state = .active → anyServing s = true →
      (o.lastBeat + 1000 ≤ now → ∃ t, exec (.heartbeatTimer gal) s = .next t ∧ (pairAt t gal.toNat).lastBeat = now ∧
        sentTo s t o.unit.toNat (spanMsg s 5 o.unit.toNat 0 gal.toNat o.partner.toNat [])) ∧
      (now < o.lastBeat + 1000 → exec (.heartbeatTimer gal) s = .next s)) ∧
    (forUnit s 5 m → fromPartner s g m = true → ∃ t, exec (.spanHeartbeat m) s = .next t ∧
      pairAt t g = { p with lastMsg := now, state := if p.state = .unreachable then .active else p.state }) ∧
    (o.state = .active → o.lastMsg + 3000 ≤ now → ∃ t, exec (.pairUnreachableTimeout gal) s = .next t ∧
      pairAt t gal.toNat = { o with state := .unreachable }) ∧
    (now < o.lastMsg + 3000 → exec (.pairUnreachableTimeout gal) s = .next s) ∧
    (o.state = .active → anyServing s = true → s.atr.restarting = false → drbgReady s 2 = true →
      (∀ n, (o.pending.find? fun n => !(o.inFlight.any (·.1 = n)) && (recNow s n).isSome) = some n →
        ∃ t, exec (.replicaSend gal) s = .next t ∧ sends t n) ∧
      ((o.pending.find? fun n => !(o.inFlight.any (·.1 = n)) && (recNow s n).isSome) = none →
        exec (.replicaSend gal) s = .next s) ∧
      ((o.inFlight.any fun e => e.1 = slot.toNat && e.2.2 + 10000 ≤ now) = true → (recNow s slot.toNat).isSome = true →
        ∃ t, exec (.replicaResendTimeout gal slot) s = .next t ∧ sends t slot.toNat) ∧
      ((o.inFlight.any fun e => e.1 = slot.toNat && e.2.2 + 10000 ≤ now) = false →
        exec (.replicaResendTimeout gal slot) s = .next s)) ∧
    (forUnit s 2 m → ∀ r, spanReqOf s 1 m = some r → ∀ e,
      (pairAt s r.gal).inFlight.find? (·.2.1 = leAt (msgBody m) 0 8) = some e → ∃ t, exec (.replicaAck m) s = .next t ∧
        (pairAt t r.gal).pending = (pairAt s r.gal).pending.erase e.1 ∧
        (pairAt t r.gal).inFlight = (pairAt s r.gal).inFlight.filter (· ≠ e) ∧ t.spn.reqs = s.spn.reqs.filter (· ≠ r)) ∧
    (forUnit s 1 m → ∃ t, exec (.replica m) s = .next t ∧ t.spn.replicas = s.spn.replicas ++ [m] ∧ t.srm = s.srm ∧
      pairAt t g = if fromPartner s g m then { p with lastMsg := now, state := if p.state = .unreachable then .active else p.state }
        else p) ∧
    (s.atr.restarting = false → roomPaused s = false → hasVek s = true → s.spn.replicas = [m] → t.spn.replicas = [] ∧
      if p.state ≠ .active ∨ fromPartner s g m = false then t.spn.pairs = s.spn.pairs ∧ t.srm = s.srm ∧ refusals ∧ ack 1
      else if ecVerify 2 p.point (replSigned p.identity (partId s) p.partner.toNat g x.signed) x.sig = false then
        (pairAt t g).replApplied = p.replApplied ∧ refusals ∧ ack 2
      else if x.seq ≤ p.replApplied then (pairAt t g).replApplied = p.replApplied ∧ refusals ∧ ack 3
      else (pairAt t g).replApplied = x.seq ∧
        if replFits s g x = false then refusals ∧ ack 4
        else match replMaterial s x with
          | none => refusals ∧ ack 5
          | some k => t.spn.replRefused = s.spn.replRefused ∧ ack 0 ∧
            (x.op = 1 → wideAlg x.alg = false → recorded s t x.slot x.alg x.attr x.hash x.keyLen
              (padTo 80 (slice (stored x.alg k) 0 (Nat.min 80 (stored x.alg k).length))))) ∧
    ((s.atr.restarting = true ∨ roomPaused s = true ∨ hasVek s = false) → t = s)

/-- Paired execution, provenance of a peer, echoes, stray messages (R535, R540, R546 to R551): a confirmed paired job goes to
the partner one tick after its fetch; without partner, or after the pair's timeout, it ends `PAIR_LOST` under the strict policy;
a partner's job becomes a job of this unit; a reply without its request and a message of another epoch are dropped and counted.
-/
def Obligations.PairedExecutionAndReplies : Prop :=
  ∀ (s : State) (m : Bytes) (id : Nat) (j : Job) (r : SpanReq) (c : AdminCmd) (g : Gallery) (q : QIndex),
    let p := pairAt s j.gal
    let now := s.gen.a.toNat
    let body := msgBody m
    let lost := fun t : State => jobEnded t j .pairLost 0 0 [] ∧
      t.spn.pairLost.toNat = Nat.min (2 ^ 31 - 1) (s.spn.pairLost.toNat + 1)
    let late := fun t : State => t.spn.dropLate.toNat = Nat.min (2 ^ 31 - 1) (s.spn.dropLate.toNat + 1) ∧ t.jobs = s.jobs ∧ t.adm = s.adm
    (job s id = some j → j.paired = true → j.sent = none →
      (now < j.confirmTick + 1 → exec (.pairExecSend id) s = .next s) ∧
      (j.confirmTick + 1 ≤ now →
        (p.state = .active → s.chn.valid = true → routeTo s p.unit.toNat ≠ none → ∃ t, exec (.pairExecSend id) s = .next t ∧
          job t id = some { j with sent := some now } ∧
          let e := j.step.entry
          let e := e.take 0x18 ++ zeros 8 ++ (if j.req.inHost then zeros 8 else slice e 0x20 8) ++ slice e 0x28 24
          sentTo s t p.unit.toNat (spanMsg s 3 p.unit.toNat s.spn.tseq j.gal p.partner.toNat
            (le 8 j.confirmTick ++ e ++ padTo j.req.inLen j.step.input))) ∧
        (p.state ≠ .active → p.policy.getLsbD 2 = false → plainJob s id j → ∃ t, exec (.pairExecSend id) s = .next t ∧ lost t))) ∧
    (job s id = some j → j.paired = true → j.digest = [] → ∀ k, j.sent = some k →
      (now < k + p.timeout → exec (.pairExecTimeout id) s = .next s) ∧
      (k + p.timeout ≤ now → p.policy.getLsbD 2 = false → plainJob s id j → ∃ t, exec (.pairExecTimeout id) s = .next t ∧ lost t)) ∧
    (job s id = none → exec (.pairExecSend id) s = .next s ∧ exec (.pairExecTimeout id) s = .next s) ∧
    (forUnit s 3 m → fromPartner s (msgDstGal m) m = true → (pairAt s (msgDstGal m)).state = .active →
      (gal s (msgDstGal m)).state = .active → s.gen.windowDone = true → ∃ t j', exec (.pairExec m) s = .next t ∧ t.jobs = s.jobs ++ [j'] ∧
        j'.id = s.nextJob ∧ j'.origin = .partner ∧ j'.gal = msgDstGal m ∧ (j'.steps.map (·.entry)) = [slice body 8 64] ∧
        j'.fetch = now + 1 ∧ t.spn.partners = s.spn.partners ++ [⟨s.nextJob, msgSrc m, msgTseq m, leAt body 0 8, msgSrcGal m⟩]) ∧
    (forUnit s 3 m → fromPartner s (msgDstGal m) m = false → ∃ t, exec (.pairExec m) s = .next t ∧ t.jobs = s.jobs) ∧
    (forUnit s 4 m → spanReqOf s 3 m = some r → r.job = some id → job s id = some j →
      (j.confirmTick = leAt body 0 8 → ∃ t, exec (.pairResult m) s = .next t ∧ job t id = some { j with digest := slice body 8 48 } ∧
        t.spn.reqs = s.spn.reqs.filter (· ≠ r)) ∧
      (j.confirmTick ≠ leAt body 0 8 → ∃ t, exec (.pairResult m) s = .next t ∧ late t)) ∧
    (forUnit s 2 m → spanReqOf s 1 m = none → ∃ t, exec (.replicaAck m) s = .next t ∧ late t) ∧
    (forUnit s 4 m → spanReqOf s 3 m = none → ∃ t, exec (.pairResult m) s = .next t ∧ late t) ∧
    (forUnit s 6 m → spanReqOf s 6 m = none → ∃ t, exec (.provReply m) s = .next t ∧ late t) ∧
    (s.chn.valid = true → anyServing s = true → s.atr.restarting = false → msgEpoch m ≠ s.chn.epoch.toNat →
      ∀ e ∈ [(1, Instr.replica m), (2, .replicaAck m), (3, .pairExec m), (4, .pairResult m), (5, .spanHeartbeat m), (6, .provRequest m),
        (6, .provReply m), (7, .pairHello m), (8, .echoMessage m)], msgClass m = e.1 → ∃ t, exec e.2 s = .next t ∧
          t.spn.dropEpoch.toNat = Nat.min (2 ^ 31 - 1) (s.spn.dropEpoch.toNat + 1) ∧ t.spn.pairs = s.spn.pairs ∧ t.out = s.out) ∧
    (forUnit s 6 m → (msgSrcGal m = 0 ∨ fromPartner s (msgDstGal m) m = true) → drbgReady s 2 = true →
      let g := if fromPartner s (msgDstGal m) m then msgDstGal m else 0
      (opsFresh s ([1] ++ m) [80] none → ∃ t, exec (.provRequest m) s = .next t ∧ opsQueued s t ([1] ++ m) [80] none) ∧
      ((∃ u, opsDone s ([1] ++ m) [80] none u) → ∃ t, exec (.provRequest m) s = .next t ∧ sentTo s t (msgSrc m)
        (spanMsg s 6 (msgSrc m) (msgTseq m) g (msgSrcGal m) (statement s 1 g (padTo 32 body))))) ∧
    (forUnit s 6 m → msgSrcGal m ≠ 0 → fromPartner s (msgDstGal m) m = false → ∃ t, exec (.provRequest m) s = .next t ∧
      t.out = s.out ∧ t.spn.pairs = s.spn.pairs) ∧
    (forUnit s 6 m → spanReqOf s 6 m = some r → (∀ k, r.sq = some k → runningCmd s k 0x57 = some c) → r.sq ≠ none →
      body.length ≤ c.p 42 2 → ∃ u, u.spn.reqs = s.spn.reqs.filter (· ≠ r) ∧
        exec (.provReply m) s = .next (doneOut u c [(BitVec.ofNat 64 (c.p 34 8), body)] (le 2 body.length))) ∧
    (runningCmd s (qkey g.toNat q.toNat) 0x57 = some c →
      (c.mark + 100000 ≤ now → ∃ u, u.jobs = s.jobs ∧ u.adm = s.adm ∧ exec (.peerProvenanceTimeout g q) s = .next (fails u c .pairLost)) ∧
      (now < c.mark + 100000 → exec (.peerProvenanceTimeout g q) s = .next s)) ∧
    (forUnit s 8 m → spanReqOf s 8 m = none → 16 ≤ m.length → ∃ t, exec (.echoMessage m) s = .next t ∧ sentTo s t (msgSrc m)
      (setNth (slice m 0 4 ++ slice m 6 2 ++ slice m 4 2 ++ m.drop 8) 10 0)) ∧
    (forUnit s 8 m → spanReqOf s 8 m = some r → (∀ k, r.sq = some k → runningCmd s k 0x58 = some c) → r.sq ≠ none →
      let same := body = prbs31 (c.p 2 2)
      let back := if same then s.spn.echo.2.1 + 1 else s.spn.echo.2.1
      let differ := if same then s.spn.echo.2.2 else some (s.spn.echo.2.2.getD (s.spn.echo.1 - 1))
      (s.spn.echo.1 < c.p 4 4 → ∃ t, exec (.echoMessage m) s = .next t ∧ t.spn.echo = (s.spn.echo.1 + 1, back, differ)) ∧
      (c.p 4 4 ≤ s.spn.echo.1 → ∃ u, u.jobs = s.jobs ∧ u.adm = s.adm ∧ exec (.echoMessage m) s =
        .next (doneWith u c (le 4 (c.p 4 4) ++ le 4 back ++ le 4 (differ.getD 0xFFFFFFFF)))))

/-! ### Host ports and SPDM (spec/20, R379, R380, R557) -/

/-- Ports (R68, R80, R82, R141, R372, R554, R557, R561 to R566, R569): training, loss of a link, IDE streams that leave Secure,
function-level reset, fewer virtual functions, the recovery read. Queues that a function loses with its port are gone. -/
def Obligations.PortEventsAndFunctionReset : Prop :=
  ∀ (s : State) (port : Half) (rate : BitVec 3) (width : BitVec 5) (flit : Bool) (fn : Gallery) (i : Fin 5) (nv : Byte) (d : Bytes),
    let x := s.hst.port.get port
    let n := fn.toNat
    let down := fun (t : State) (k : Nat) => (sq s k).exist = true → (sq s k).port = port → (sq t k).exist = false
    let lossUp := fun t : State => (t.hst.loss.get port).toNat = Nat.min (2 ^ 31 - 1) ((s.hst.loss.get port).toNat + 1)
    (mayUp s port = true → 1 ≤ rate.toNat → rate.toNat ≤ 6 → width.toNat ∈ [1, 2, 4, 8, 16] →
      ∃ t, exec (.portUsable port rate width flit) s = .next t ∧
        let y := t.hst.port.get port
        y.linkUp = true ∧ (s.lcs.state = .endOfLife → y.rate = 1 ∧ y.width = 1 ∧ y.flit = false) ∧
          (s.lcs.state ≠ .endOfLife → y.rate = rate ∧ y.width = width ∧ y.flit = (flit || decide (rate = 6)))) ∧
    (mayUp s port = false → exec (.portUsable port rate width flit) s = .next s) ∧
    (x.linkUp = true → ∃ t, exec (.portLoss port none) s = .next t ∧
      let y := t.hst.port.get port
      y.linkUp = false ∧ y.ideSecure = 0 ∧ y.sessions = [] ∧ y.spdm = 0 ∧ (serving s port = false → t.hst.loss = s.hst.loss) ∧
        (serving s port = true → quietFaults s → lossUp t ∧ ∀ k, k / 64 ∈ galleries s → (gal s (k / 64)).dual = false → down t k)) ∧
    (x.linkUp = false → exec (.portLoss port none) s = .next s) ∧
    (x.ideSecure.getLsbD i.val = true →
      (∃ t, exec (.portLoss port (some i)) s = .next t ∧ (t.hst.port.get port).ideSecure.getLsbD i.val = false ∧
        (x.ideReq.getLsbD i.val = true → serving s port = true → x.linkUp = true → quietFaults s → lossUp t)) ∧
      (quietFaults s → ∃ t, exec (.ideCheckFail port i) s = .next t ∧ (t.hst.port.get port).ideSecure.getLsbD i.val = false ∧
        (t.hst.port.get port).ideFail.toNat = Nat.min (2 ^ 31 - 1) (x.ideFail.toNat + 1))) ∧
    (x.ideSecure.getLsbD i.val = false → exec (.portLoss port (some i)) s = .next s ∧ exec (.ideCheckFail port i) s = .next s) ∧
    (fnThere s port n = true → ∃ t, exec (.functionLevelReset port fn) s = .next t ∧ (fnCfg t port n).busMaster = false ∧
      (fnCfg t port n).flrEnd = some (s.gen.a.toNat + 1000) ∧ (∀ k, k / 64 = n → down t k) ∧
        (n = 0 → (t.hst.port.get port).vfEnable = false)) ∧
    (fnThere s port n = false → exec (.functionLevelReset port fn) s = .next s) ∧
    ((fnCfg s port n).flrEnd ≠ none → ∃ t, exec (.flrComplete port fn) s = .next t ∧ (fnCfg t port n).flrEnd = none ∧ t.sqs = s.sqs) ∧
    ((fnCfg s port n).flrEnd = none → exec (.flrComplete port fn) s = .next s) ∧
    ((nv = 0 ∨ (x.vfEnable = true ∧ nv.toNat < x.numVfs.toNat)) → ∃ t, exec (.vfDisable port nv) s = .next t ∧
      (t.hst.port.get port).numVfs = nv ∧ (t.hst.port.get port).vfEnable = (x.vfEnable && decide (nv ≠ 0)) ∧
      ∀ k, k / 64 ≠ 0 → k / 64 < 256 → x.vfEnable = true → k / 64 ≤ x.numVfs.toNat → nv.toNat < k / 64 → down t k) ∧
    (nv ≠ 0 → x.numVfs.toNat ≤ nv.toNat → exec (.vfDisable port nv) s = .next s) ∧
    (barOpen s port 0 0x7020C = true → s.mld.noMould = true → s.mld.recBusy = false → ∃ t, exec (.recoveryGo port) s = .next t ∧
      t.mld.recBusy = true ∧ t.mld.recFail = false ∧ t.mld.recDone = false ∧
      t.out.host = s.out.host ++ [.read s.nextRid (recoveryPort s) s.mld.recAddr s.mld.recLen.toNat]) ∧
    (barOpen s port 0 0x7020C = false → exec (.recoveryGo port) s = .next s) ∧
    (s.mld.recBusy = true → s.pwr.phase = .recovery →
      (∃ t, exec (.recoveryReadDone none) s = .next t ∧ t.mld.recFail = true ∧ t.mld.recBusy = false ∧ t.mld.slotA = s.mld.slotA) ∧
      ∃ t, exec (.recoveryReadDone (some d)) s = .next t ∧ t.mld.recBusy = false ∧ match mouldError s d with
        | some (sect, r) => t.mld.recFail = true ∧ t.mld.errSection = BitVec.ofNat 8 sect ∧ t.mld.errReason = BitVec.ofNat 8 r ∧
          t.mld.slotA = s.mld.slotA
        | none => t.mld.recDone = true ∧ ∀ h, (s.pwr.feed.get h).valid = true → t.mld.slotA.get h = some d) ∧
    (s.mld.recBusy = false → ∀ b, exec (.recoveryReadDone b) s = .next s)

/-- The SPDM responder and IDE key management (R266, R379, R380, R554, R568, R569): the negotiation order, the identity chain in
slot 0, signed answers after their Reserve operations, measurements by index, at most two sessions, streams keyed inside a
session; everything else is answered by an error. -/
def Obligations.SpdmResponder : Prop :=
  ∀ (s : State) (port : Half) (req nonce : Bytes) (slot sess op ix code : Byte) (off len : Nat) (sign : Bool) (i : Fin 5)
    (key : Option Bytes),
    let x := s.hst.port.get port
    let y := fun t : State => t.hst.port.get port
    let ready := fun (owner : Bytes) (ticks : List Nat) => ∃ u, opsDone s owner ticks none u
    let queued := fun (owner : Bytes) (ticks : List Nat) (i : Instr) => opsFresh s owner ticks none →
      ∃ t, exec i s = .next t ∧ opsQueued s t owner ticks none
    let open' : List Instr := [.keyUpdate port sess op, .spdmHeartbeat port sess, .endSession port sess, .vendorDefinedRequest port sess i key]
    let late : List Instr := [.getDigests port, .getCertificate port slot off len, .challenge port slot nonce,
      .getMeasurements port ix sign nonce, .keyExchange port req, .finish port sess nonce] ++ open'
    let early : List Instr := [.doeDiscovery port ix, .getVersion port, .getCapabilities port req, .negotiateAlgorithms port req,
      .spdmUnsupportedRequest port code]
    (doeOpen s port = false → ∀ r ∈ early ++ late, exec r s = .next s) ∧
    (doeOpen s port = true →
      (ix.toNat ≤ 2 → exec (.doeDiscovery port ix) s = .next (answerDoe s (le 2 1 ++ le 1 ix.toNat ++ le 1 ((ix.toNat + 1) % 3)))) ∧
      exec (.spdmUnsupportedRequest port code) s = .next (answerDoe s (spdmError 7 code.toNat)) ∧
      (∃ t, exec (.getVersion port) s = .next t ∧ (y t).spdm = 1 ∧ (y t).sessions = [] ∧
        t.out.doe = [0x10, 0x04, 0, 0, 0, 1, 0x00, 0x12] ∧ (y t).transcript = [0x10, 0x84, 0, 0] ++ t.out.doe) ∧
      (1 ≤ x.spdm → ∃ t, exec (.getCapabilities port req) s = .next t ∧ (y t).spdm = 2 ∧ t.out.doe.take 4 = [0x12, 0x61, 0, 0] ∧
        (y t).transcript = x.transcript ++ ([0x12, 0xE1, 0, 0] ++ req) ++ t.out.doe) ∧
      (2 ≤ x.spdm → ∃ t, exec (.negotiateAlgorithms port req) s = .next t ∧ (y t).spdm = 3 ∧ t.out.doe.take 4 = [0x12, 0x63, 4, 0] ∧
        (y t).transcript = x.transcript ++ ([0x12, 0xE3, 0, 0] ++ req) ++ t.out.doe) ∧
      (x.spdm < 3 → ∀ r ∈ late, exec r s = .next (answerDoe s errUnexpected)) ∧
      (3 ≤ x.spdm →
        (∀ c, slotChain s = some c → exec (.getDigests port) s = .next (answerDoe s (spdmRsp 1 0 1 (sha384 c))) ∧
          (slot = 0 → off < c.length → ∃ b rest, b ++ rest = c.drop off ∧ b.length = Nat.min len (Nat.min 0xFFFF (c.length - off)) ∧
            exec (.getCertificate port slot off len) s =
              .next (answerDoe s (spdmRsp 2 0 0 (le 2 b.length ++ le 2 rest.length ++ b)))) ∧
          (slot ≠ 0 ∨ c.length ≤ off → exec (.getCertificate port slot off len) s = .next (answerDoe s errInvalid))) ∧
        (slotChain s = none → exec (.getDigests port) s = .next (answerDoe s (spdmRsp 1 0 0 [])) ∧
          exec (.getCertificate port slot off len) s = .next (answerDoe s errInvalid)) ∧
        (slot = 0 → drbgReady s 2 = true → queued ([2] ++ nonce) [80] (.challenge port slot nonce) ∧ (ready ([2] ++ nonce) [80] →
          ∃ t rsp, exec (.challenge port slot nonce) s = .next t ∧ rsp.take 2 = [0x12, 0x03] ∧ t.out.doe = rsp ++
            spdmSign s "responder-challenge_auth signing" (x.transcript ++ ([0x12, 0x83, 0, 0] ++ padTo 32 nonce) ++ rsp))) ∧
        (slot ≠ 0 → exec (.challenge port slot nonce) s = .next (answerDoe s errInvalid)) ∧
        (ix = 0 → sign = false → drbgReady s 2 = true → ∃ t, exec (.getMeasurements port ix sign nonce) s = .next t ∧
          t.out.doe = spdmRsp 0x60 (measurements s).length 0 ([0] ++ zeros 3 ++ freeBytesAt s 1 32 ++ [0, 0])) ∧
        (∀ m, ix ≠ 0 → ix ≠ 0xFF → (measurements s).filter (·.index = ix.toNat) = [m] → drbgReady s 2 = true →
          let rsp := spdmRsp 0x60 0 0 ([1] ++ le 3 m.block.length ++ m.block ++ freeBytesAt s 1 32 ++ [0, 0])
          (sign = false → ∃ t, exec (.getMeasurements port ix sign nonce) s = .next t ∧ t.out.doe = rsp) ∧
          (sign = true → queued ([3] ++ nonce) [80] (.getMeasurements port ix sign nonce) ∧ (ready ([3] ++ nonce) [80] →
            ∃ t, exec (.getMeasurements port ix sign nonce) s = .next t ∧ t.out.doe = rsp ++
              spdmSign s "responder-measurements signing" (x.transcript ++ ([0x12, 0xE0, 1, ix] ++ (padTo 32 nonce ++ [0])) ++ rsp)))) ∧
        (ix ≠ 0 → ix ≠ 0xFF → (∀ m ∈ measurements s, m.index ≠ ix.toNat) →
          exec (.getMeasurements port ix sign nonce) s = .next (answerDoe s errInvalid)) ∧
        (if req.length < 134 ∨ pointOk 2 ([4] ++ slice req 36 96) = false then
            exec (.keyExchange port req) s = .next (answerDoe s errInvalid)
          else if (spdmSession x 1).isSome && (spdmSession x 2).isSome then exec (.keyExchange port req) s = .next (answerDoe s errLimit)
          else drbgReady s 2 = true → queued ([4] ++ req) [78, 75, 80] (.keyExchange port req) ∧ (ready ([4] ++ req) [78, 75, 80] →
            ∃ t e, exec (.keyExchange port req) s = .next t ∧ (y t).sessions = x.sessions ++ [e] ∧ e.ready = false ∧ e.id = (if (spdmSession x 1).isSome then 2 else 1) ∧
            e.key = hmac 3 (zeros 48) (ecdh 2 (ecScalar (freeBytesAt s 1 64)) ([4] ++ slice req 36 96)))) ∧
        (spdmSession x sess = none → ∀ r ∈ Instr.finish port sess nonce :: open', exec r s = .next (answerDoe s errSession)) ∧
        (∀ e, spdmSession x sess = some e → e.ready = false →
          (∀ r ∈ open', exec r s = .next (answerDoe s errUnexpected)) ∧
          ∃ t, exec (.finish port sess nonce) s = .next t ∧
            if padTo 48 nonce = spdmVerify e.key e.th (e.th ++ spdmVerify e.key e.th e.th "rsp hs data" ++ [0x12, 0xE5, 0, 0]) "req hs data"
            then (y t).sessions.map (·.id) = x.sessions.map (·.id) ∧ (∃ z, spdmSession (y t) sess = some z ∧ z.ready = true) ∧
              t.out.doe = spdmRsp 0x65 0 0 []
            else (y t).sessions = x.sessions.filter (·.id ≠ sess) ∧ t.out.doe = errDecrypt) ∧
        (∀ e, spdmSession x sess = some e → e.ready = true →
          exec (.finish port sess nonce) s = .next (answerDoe s errUnexpected) ∧
          exec (.spdmHeartbeat port sess) s = .next (answerDoe s (spdmRsp 0x68 0 0 [])) ∧
          (op = 1 ∨ op = 2 → ∃ t z, exec (.keyUpdate port sess op) s = .next t ∧ spdmSession (y t) sess = some z ∧
            z.updates = e.updates + 1 ∧ z.key = spdmExpand e.key 48 "traffic upd" []) ∧
          (op = 3 → exec (.keyUpdate port sess op) s = .next (answerDoe s (spdmRsp 0x69 3 0 []))) ∧
          (∃ t, exec (.endSession port sess) s = .next t ∧ (y t).sessions = x.sessions.filter (·.id ≠ sess)) ∧
          (∀ k, key = some k → k.length = 32 → ∃ t, exec (.vendorDefinedRequest port sess i key) s = .next t ∧
            (y t).ideSecure.getLsbD i.val = true ∧ nth [] (y t).ideKeys i.val = k) ∧
          (key = none → ∃ t, exec (.vendorDefinedRequest port sess i key) s = .next t ∧ (y t).ideSecure.getLsbD i.val = false))))

/-! ### Admin commands (R115, R116, R609 and the chapters of the opcodes) -/

/-- What every admin command shares (R18, R102, R376, R609): a nonzero reserved field ends it `BAD_INPUT`, a gallery that may
not issue it `NOT_AUTHORISED`, an inspection session `RESERVE_BUSY`, an unassigned opcode `BAD_INPUT`; it waits for its turn
between the parting window and the end of the tick and for a Reserve restart (entry 13), but a Mould command in an Atrium pour
ends `RESERVE_BUSY` (R78). A completion leaves the admin unit and stands in the hold. -/
def Obligations.AdminCommandsRefuseAndComplete : Prop :=
  ∀ (s : State) (g : Gallery) (q : QIndex) (ok ok' : Bool) (d d' : Option Bytes) (bl : List Bytes) (bs : List Byte) (c : AdminCmd),
    (admAt s g.toNat q.toNat .confirmed = none → exec (.unassignedOpcode g q) s = .next s ∧
      ∀ e, adminRow g q ok ok' d d' bl bs e → exec e.2 s = .next s) ∧
    (admAt s g.toNat q.toNat .confirmed = some c → c.unread = false →
      (s.gen.windowDone = true → admRow c.op = none → exec (.unassignedOpcode g q) s = .next (fails s c .badInput)) ∧
      (s.gen.windowDone = false → exec (.unassignedOpcode g q) s = .next s) ∧
      ∀ e, adminRow g q ok ok' d d' bl bs e →
        (c.op ≠ e.1 ∨ s.gen.windowDone = false → exec e.2 s = .next s) ∧
        (c.op = e.1 → s.gen.windowDone = true → ∃ r, admRow e.1 = some r ∧
          (r.clean c.entry = false → exec e.2 s = .next (fails s c .badInput)) ∧
          (r.clean c.entry = true → r.curator = true → g ≠ 0 → exec e.2 s = .next (fails s c .notAuthorised)) ∧
          (r.clean c.entry = true → g = 0 → s.lcs.session = true → sessionAllows e.1 = false →
            exec e.2 s = .next (fails s c .reserveBusy)) ∧
          (r.clean c.entry = true → (r.curator = true → g = 0) → (g = 0 → s.lcs.session = true → sessionAllows e.1 = true) →
            (0x80 ≤ e.1 → e.1 ≤ 0x86 → s.mld.atriumPour ≠ none → exec e.2 s = .next (fails s c .reserveBusy)) ∧
            (¬ (0x80 ≤ e.1 ∧ e.1 ≤ 0x86 ∧ s.mld.atriumPour ≠ none) → r.reserve = true → s.atr.restarting = true →
              exec e.2 s = .next s)))) ∧
    (∀ (st : Status) (detail : Nat) (b : Bytes), queuePair s c.key c.sqGen → c.unread = false →
      answered (completeAdmin s c st detail 0 b) c st detail b ∧
      (completeAdmin s c st detail 0 b).jobs = s.jobs ∧ (completeAdmin s c st detail 0 b).out = s.out) ∧
    (∀ (o : Nat) (b r : Bytes), queuePair s c.key c.sqGen → c.unread = false →
      (∃ h ∈ (cq (query s c o true b r) (cqKey s c.key)).hold, h.outs = [(BitVec.ofNat 64 (c.p o 8), b)] ∧ h.status = .done ∧
        h.cmdId = leAt c.entry 4 2 ∧ h.result = r) ∧
      answered (query s c o false b r) c .dmaError 3 [])

/-- The queue commands 0x00 to 0x06 (R105, R133 to R135, R138 to R140). -/
def Obligations.QueueCommands : Prop :=
  ∀ (s : State) (g : Gallery) (q : QIndex) (c : AdminCmd),
    let i := c.p 0 1
    let k := qkey c.gal i
    let base := BitVec.ofNat 64 (c.p 4 8)
    (admRuns s g q 0x00 c → 1 ≤ i → i ≤ 63 → c.p 4 1 ≤ 3 →
      (∀ st, cqCheck s k (CqSpec.of c) = some st → exec (.queueCreateCq g q) s = .next (fails s c st)) ∧
      (cqCheck s k (CqSpec.of c) = none → ∃ u, exec (.queueCreateCq g q) s = .next (doneWith u c (idWord (cq u k).id (cq u k).gen)) ∧
        u.jobs = s.jobs ∧ u.sqs = s.sqs ∧ (∀ x, x ≠ k → cq u x = cq s x) ∧
        let y := cq u k
        y.exist = true ∧ y.gen = (cq s k).gen + 1 ∧ y.id = freeCqId s ∧ y.port = halfOf (c.p 1 1) ∧ y.depthLog2 = c.p 2 1 ∧
          y.holdLog2 = c.p 3 1 ∧ y.intEn = nbit (c.p 4 1) 0 ∧ y.mirror = nbit (c.p 4 1) 1 ∧ y.vector = c.p 5 2 ∧
          y.base = BitVec.ofNat 64 (c.p 11 8) ∧ y.pi = 0 ∧ y.ci = 0 ∧ y.hold = [])) ∧
    (admRuns s g q 0x01 c → 1 ≤ i → i ≤ 63 → c.p 3 1 ≤ 1 →
      (s.lcs.session = true → c.p 3 1 = 0 → exec (.queueCreateSq g q) s = .next (fails s c .reserveBusy)) ∧
      (s.lcs.session = false ∨ c.p 3 1 = 1 →
        (∀ st, sqCheck s k (c.p 1 1) (c.p 2 1) base false = some st → exec (.queueCreateSq g q) s = .next (fails s c st)) ∧
        (sqCheck s k (c.p 1 1) (c.p 2 1) base false = none →
          ∃ u, exec (.queueCreateSq g q) s = .next (doneWith u c (idWord (sq u k).id (sq u k).gen)) ∧
            u.jobs = s.jobs ∧ u.cqs = s.cqs ∧ (∀ x, x ≠ k → sq u x = sq s x) ∧
            let y := sq u k
            y.exist = true ∧ y.gen = (sq s k).gen + 1 ∧ y.id = freeSqId s ∧ y.admin = decide (c.p 3 1 = 1) ∧ y.depthLog2 = c.p 2 1 ∧
              y.cq = c.p 1 1 ∧ y.base = base ∧ y.port = (cq s (qkey c.gal (c.p 1 1))).port ∧ y.pi = 0 ∧ y.ci = 0))) ∧
    (admRuns s g q 0x02 c → 1 ≤ i → i ≤ 63 →
      ((sq s k).exist = true → (sq s k).closing = false → ∃ t, exec (.queueDestroySq g q) s = .next t ∧ carriesOn t c ∧
        (sq t k).closing = true ∧ (sq t k).resetting = false ∧ (sq t k).closeTick = s.gen.a.toNat ∧ (sq t k).exist = true) ∧
      ((sq s k).exist = false ∨ (sq s k).closing = true → exec (.queueDestroySq g q) s = .next (fails s c .badInput))) ∧
    (admRuns s g q 0x03 c → 1 ≤ i → i ≤ 63 →
      ((cq s k).exist = true → (∀ x ∈ sqsOf s c.gal, (sq s x).cq ≠ i) → ∃ u, exec (.queueDestroyCq g q) s = .next (done u c) ∧
        (cq u k).exist = false ∧ (cq u k).gen = (cq s k).gen ∧ u.sqs = s.sqs ∧ u.jobs = s.jobs) ∧
      ((cq s k).exist = false ∨ (∃ x ∈ sqsOf s c.gal, (sq s x).cq = i) →
        exec (.queueDestroyCq g q) s = .next (fails s c .badInput))) ∧
    (admRuns s g q 0x04 c → 1 ≤ i → i ≤ 63 →
      ((cq s k).exist = true → ∃ t, exec (.queueReset g q) s = .next t ∧ carriesOn t c ∧
        ∀ x ∈ sqsOf s c.gal, (sq s x).cq = i → (sq t x).closing = true) ∧
      ((cq s k).exist = false → exec (.queueReset g q) s = .next (fails s c .badInput))) ∧
    (admRuns s g q 0x05 c → i ≤ 63 → c.p 1 1 ≤ 1 → (cq s k).exist = true →
      let on := nbit (c.p 1 1) 0
      (vectorOk s c.gal on (c.p 2 2) (c.p 4 2) = true → ∃ u, exec (.queueSetModeration g q) s = .next (done u c) ∧
        cq u k = { cq s k with intEn := on, vector := c.p 2 2, modCount := c.p 4 2, modTime := c.p 6 2 } ∧
        (∀ x, x ≠ k → cq u x = cq s x) ∧ u.sqs = s.sqs) ∧
      (vectorOk s c.gal on (c.p 2 2) (c.p 4 2) = false → exec (.queueSetModeration g q) s = .next (fails s c .badInput))) ∧
    (admRuns s g q 0x06 c → i ≤ 63 → (sq s k).exist = true → (sq s k).admin = true →
      ((s.adm.find? fun a => a.seq ≠ c.seq && waitsIn s a k (c.p 1 2)) = none →
        exec (.queueAbort g q) s = .next (fails s c .badInput)) ∧
      ∀ a, (s.adm.find? fun a => a.seq ≠ c.seq && waitsIn s a k (c.p 1 2)) = some a → a.phase = .confirmed →
        exec (.queueAbort g q) s = .next (done (fails s a .aborted) c)) ∧
    (∀ e ∈ [(0x00, Instr.queueCreateCq g q), (0x01, .queueCreateSq g q), (0x02, .queueDestroySq g q), (0x03, .queueDestroyCq g q),
        (0x04, .queueReset g q)], admRuns s g q e.1 c → (i = 0 ∨ 63 < i) → exec e.2 s = .next (fails s c .badInput))

/-- The gallery commands 0x10 to 0x17 (R84 to R98), those of the Curator one at a time in the order of confirmation (R89). -/
def Obligations.GalleryCommands : Prop :=
  ∀ (s : State) (g : Gallery) (q : QIndex) (c : AdminCmd) (ok : Bool) (key : Option Bytes),
    let n := c.p 0 1
    let old := gal s n
    let turn := firstOf s (fun x => x.gal = 0 && 0x10 ≤ x.op && x.op ≤ 0x17) c
    let kept := fun u : State => ∀ m, m ≠ n → gal u m = gal s m
    let event := fun (u : State) (b : Nat) => gal u n ≠ old → (gv u n).event.getLsbD b = true
    (turn = false → ∀ e ∈ [(0x10, Instr.galleryCreate g q), (0x11, .galleryDestroy g q), (0x12, .gallerySetShare g q),
      (0x13, .gallerySetLimits g q), (0x14, .gallerySetFlags g q), (0x15, .galleryBindAuthority g q key), (0x17, .galleryPoolQuery g q ok)],
      admRuns s g q e.1 c → exec e.2 s = .next s) ∧
    (turn = true →
      (admRuns s g q 0x10 c → n ≠ 0 →
        let x := withFlags { state := .active, units := ⟨c.p 2 2, c.p 4 2⟩, cupola := c.p 6 1, sqLimit := c.p 7 1, cqLimit := c.p 8 1,
                             parts := ⟨c.p 9 1, c.p 10 1⟩, slotQuota := c.p 11 4, arcQuota := c.p 15 4, counter := old.counter } (c.p 1 1)
        (old.state = .active ∨ c.p 2 2 = 0 ∨ c.p 4 2 = 0 ∨ limitsRange s x = false →
          exec (.galleryCreate g q) s = .next (fails s c .badInput)) ∧
        (old.state ≠ .active → c.p 2 2 ≠ 0 → c.p 4 2 ≠ 0 → limitsRange s x = true →
          (old.state = .closing → exec (.galleryCreate g q) s = .next (fails s c .reserveBusy)) ∧
          (old.state = .free →
            (flagsForbidden s (c.p 1 1) = true → exec (.galleryCreate g q) s = .next (fails s c .notAuthorised)) ∧
            (flagsForbidden s (c.p 1 1) = false →
              ((limits s).maxGalleries ≤ existing s ∨ boundsOk s n x = false →
                exec (.galleryCreate g q) s = .next (fails s c .quota)) ∧
              (existing s < (limits s).maxGalleries → boundsOk s n x = true → unitsRange x = false →
                exec (.galleryCreate g q) s = .next (fails s c .badInput)) ∧
              (existing s < (limits s).maxGalleries → boundsOk s n x = true → unitsRange x = true →
                ∃ u, exec (.galleryCreate g q) s = .next (done u c) ∧ gal u n = x ∧ kept u ∧ u.jobs = s.jobs))))) ∧
      (admRuns s g q 0x11 c →
        (n = 0 ∨ old.state ≠ .active → exec (.galleryDestroy g q) s = .next (fails s c .badInput)) ∧
        (n ≠ 0 → old.state = .active → ∃ t, exec (.galleryDestroy g q) s = .next t ∧ carriesOn t c ∧
          gal t n = { old with state := .closing } ∧ kept t)) ∧
      (admRuns s g q 0x12 c →
        let x := { old with units := ⟨c.p 1 2, c.p 3 2⟩, cupola := c.p 5 1 }
        (old.state ≠ .active ∨ c.p 1 2 = 0 ∨ c.p 3 2 = 0 → exec (.gallerySetShare g q) s = .next (fails s c .badInput)) ∧
        (old.state = .active → c.p 1 2 ≠ 0 → c.p 3 2 ≠ 0 →
          (shareBoundsOk s n x = false → exec (.gallerySetShare g q) s = .next (fails s c .quota)) ∧
          (shareBoundsOk s n x = true → unitsRange x = false → exec (.gallerySetShare g q) s = .next (fails s c .badInput)) ∧
          (shareBoundsOk s n x = true → unitsRange x = true → ∃ u, exec (.gallerySetShare g q) s = .next (done u c) ∧ gal u n = x ∧ kept u ∧ event u 0))) ∧
      (admRuns s g q 0x13 c →
        let x := { old with sqLimit := c.p 1 1, cqLimit := c.p 2 1, parts := ⟨c.p 3 1, c.p 4 1⟩, slotQuota := c.p 5 4, arcQuota := c.p 9 4 }
        (old.state ≠ .active ∨ limitsRange s x = false → exec (.gallerySetLimits g q) s = .next (fails s c .badInput)) ∧
        (old.state = .active → limitsRange s x = true →
          (limitBoundsOk s n x = false → exec (.gallerySetLimits g q) s = .next (fails s c .quota)) ∧
          (limitBoundsOk s n x = true → ∃ u, exec (.gallerySetLimits g q) s = .next (done u c) ∧ gal u n = x ∧ kept u ∧ event u 1))) ∧
      (admRuns s g q 0x14 c →
        (old.state ≠ .active → exec (.gallerySetFlags g q) s = .next (fails s c .badInput)) ∧
        (old.state = .active →
          (flagsForbidden s (c.p 1 1) = true → exec (.gallerySetFlags g q) s = .next (fails s c .notAuthorised)) ∧
          (flagsForbidden s (c.p 1 1) = false → ∃ u, exec (.gallerySetFlags g q) s = .next (done u c) ∧ kept u ∧ event u 1 ∧
            gal u n = { old with lend := nbit (c.p 1 1) 0, borrow := nbit (c.p 1 1) 1, dual := nbit (c.p 1 1) 2,
                                 pairing := nbit (c.p 1 1) 3 }))) ∧
      (admRuns s g q 0x15 c → slotTurn s n c = true → old.state = .active → 1 ≤ c.p 1 1 → c.p 1 1 ≤ 2 →
        ((useCer s c.gal (c.p 10 4) 1 n).1 = false → exec (.galleryBindAuthority g q key) s = .next (fails s c .notAuthorised)) ∧
        ((useCer s c.gal (c.p 10 4) 1 n).1 = true → ∃ u, u.gals = s.gals ∧
          (key = none → exec (.galleryBindAuthority g q key) s = .next (completeAdmin u c .dmaError 1 0 [])) ∧
          ∀ b, key = some b → ∃ t, exec (.galleryBindAuthority g q key) s = .next t ∧
            let k := padTo (if c.p 1 1 = 1 then 97 else 2592) b
            if c.p 1 1 = 1 ∧ pointOk 2 k = false then t = fails u c .badInput
            else ∃ v, t = done v c ∧ gal v n = { old with authAlg := c.p 1 1, authDigest := sha384 k } ∧ kept v ∧ event v 3)) ∧
      (admRuns s g q 0x17 c → exec (.galleryPoolQuery g q ok) s = .next (query s c 0 ok (wordsBytes (poolWord s) 16) []))) ∧
    (admRuns s g q 0x16 c →
      (c.gal ≠ 0 → n ≠ c.gal → exec (.galleryQuery g q ok) s = .next (fails s c .notAuthorised)) ∧
      (c.gal = 0 → turn = false → exec (.galleryQuery g q ok) s = .next s) ∧
      (c.gal = 0 ∨ n = c.gal → c.gal ≠ 0 ∨ turn = true →
        (n ≠ 0 → old.state ≠ .active → exec (.galleryQuery g q ok) s = .next (fails s c .badInput)) ∧
        (n = 0 ∨ old.state = .active → exec (.galleryQuery g q ok) s = .next (queryPage s c ok n))))

/-- The slot commands 0x20 to 0x27 (R299 to R308, R313, R316): assignment, update under the checks of R303, destruction,
queries. What a message's checks and a signature compute waits for its Reserve operations (R266). -/
def Obligations.SlotCommands : Prop :=
  ∀ (s : State) (g : Gallery) (q : QIndex) (c : AdminCmd) (ok : Bool) (msg key : Option Bytes),
    let first := c.p 0 2
    let cleared := fun u : State => updGv u c.gal fun v => { v with wide := none }
    let s1 := cleared s
    let queued := fun (ticks : List Nat) (i : Instr) => opsFresh s (cmdOwner c) ticks none →
      ∃ t, exec i s = .next t ∧ opsQueued s t (cmdOwner c) ticks none
    let owned := (mapEnt s first).assigned = true ∧ (mapEnt s first).owner = c.gal
    let emptied := fun (u : State) (k : Nat) => ∀ h, (s.srm.bank.get h).available = true → ∃ r, copyOf u h k = some r ∧ r.alg = 0
    let slotRows : List (Nat × Instr) := [(0x22, .slotUpdate g q msg key), (0x23, .slotDestroy g q), (0x24, .slotQuery g q ok),
      (0x25, .slotCounter g q), (0x26, .slotTransportKeys g q ok)]
    (slotTurn s c.gal c = false → ∀ e ∈ slotRows, admRuns s g q e.1 c → exec e.2 s = .next s) ∧
    (drbgReady s 2 = false → ∀ e ∈ [(0x20, Instr.slotAssign g q), (0x22, .slotUpdate g q msg key), (0x23, .slotDestroy g q),
      (0x26, .slotTransportKeys g q ok), (0x27, .slotReseal g q)], admRuns s g q e.1 c → exec e.2 s = .next s) ∧
    (drbgReady s 2 = true → (hasVek s = false ∨ roomPaused s = true) →
      (∀ e ∈ slotRows, admRuns s g q e.1 c → slotTurn s c.gal c = true → exec e.2 s = .next (fails s1 c .reserveBusy)) ∧
      ∀ e ∈ [(0x20, Instr.slotAssign g q), (0x21, .slotRelease g q), (0x27, .slotReseal g q)], admRuns s g q e.1 c →
        exec e.2 s = .next (fails s c .reserveBusy)) ∧
    (drbgReady s 2 = true → hasVek s = true → roomPaused s = false →
      (admRuns s g q 0x20 c → c.p 5 1 ≤ 1 → 1 ≤ c.p 3 2 → c.p 3 2 ≤ 4096 →
        let from' := c.p 1 2
        let wide := decide (c.p 5 1 = 1)
        let n := if wide then 16 * c.p 3 2 else c.p 3 2
        ((gal s (c.p 0 1)).state = .active → from' + n ≤ 65536 → (wide = true → from' % 16 = 0) →
          (∀ i, i < n → (mapEnt s (from' + i)).assigned = false) →
            ((slotsOf s (c.p 0 1)).length + n ≤ (gal s (c.p 0 1)).slotQuota → ∃ u, exec (.slotAssign g q) s = .next (done u c) ∧
              ∀ i, i < n → let k := from' + i
                mapEnt u k = { owner := c.p 0 1, assigned := true, head := wide && decide (k % 16 = 0), member := wide && decide (k % 16 ≠ 0) } ∧
                emptied u k) ∧
            ((gal s (c.p 0 1)).slotQuota < (slotsOf s (c.p 0 1)).length + n → exec (.slotAssign g q) s = .next (fails s1 c .quota))) ∧
        (∀ i, i < n → (mapEnt s (from' + i)).assigned = true → exec (.slotAssign g q) s = .next (fails s1 c .badInput))) ∧
      (admRuns s g q 0x21 c →
        let ok' := decide (first + c.p 2 2 ≤ 65536) && (List.range (c.p 2 2)).all fun i => releasable s first (c.p 2 2) (first + i)
        (ok' = true → ∃ u, exec (.slotRelease g q) s = .next (done u c) ∧ (∀ h k, copyOf u h k = copyOf s h k) ∧
          ∀ i, i < c.p 2 2 → (mapEnt u (first + i)).assigned = false) ∧
        (ok' = false → exec (.slotRelease g q) s = .next (fails s1 c .badInput))) ∧
      (admRuns s g q 0x27 c →
        (s.srm.reseal = false → s.srm.overwrite = false → rootSel s ≠ 2 → ∃ u, exec (.slotReseal g q) s = .next (done u c) ∧
          u.srm.epoch = (!s.srm.epoch) ∧ u.srm.reseal = true ∧ u.srm.resealPos = ⟨0, 0⟩ ∧ u.srm.bank = s.srm.bank ∧ hasVek u = true) ∧
        (s.srm.reseal = true ∨ s.srm.overwrite = true ∨ rootSel s = 2 → exec (.slotReseal g q) s = .next (fails s1 c .reserveBusy))) ∧
      (slotTurn s c.gal c = true →
        (admRuns s g q 0x22 c → msg = none → c.p 18 4 = 0 →
          exec (.slotUpdate g q msg key) s = .next (completeAdmin s1 c .dmaError 1 0 [])) ∧
        (∀ b k, admRuns s g q 0x22 c → msg = some b → key = some k → c.p 10 8 ≠ 0 → c.p 18 4 = 0 →
          queued (sumTicks b) (.slotUpdate g q msg key) ∧ ∀ u, opsDone s (cmdOwner c) (sumTicks b) none u →
            let u1 := cleared u
            let x := Sum.of (padTo (c.p 8 2) b)
            let m := (sumOpen u1 x).getD []
            ∃ t, exec (.slotUpdate g q msg key) s = .next t ∧
              match sumCheck u1 c.gal x (c.p 8 2) k false (gv s c.gal).wide with
              | some (n, st) => t = completeAdmin u1 c st n 0 []
              | none => x.op = 1 → x.total = 1 → wideAlg x.alg = false → ∃ v, t = done v c ∧
                (gal v c.gal).counter = BitVec.ofNat 64 x.counter ∧
                recorded u1 v x.slot x.alg x.attr x.hash x.keyLen
                  (padTo 80 (slice (stored x.alg m) 0 (Nat.min 80 (stored x.alg m).length)))) ∧
        (admRuns s g q 0x23 c → c.p 2 4 = 0 →
          (¬ owned → exec (.slotDestroy g q) s = .next (fails s1 c .notAuthorised)) ∧
          (owned → (mapEnt s first).member = true → exec (.slotDestroy g q) s = .next (fails s1 c .badInput)) ∧
          (owned → (mapEnt s first).member = false → (∀ r, recNow s first = some r → r.alg = 0 ∨ dualControl r.attr = false) →
            ((dirEnt s first).state = .empty → exec (.slotDestroy g q) s = .next (done s1 c)) ∧
            ((dirEnt s first).state ≠ .empty → queuePair s c.key c.sqGen → ∃ t, exec (.slotDestroy g q) s = .next t ∧
              answered t c .done 0 [] ∧ emptied t first))) ∧
        (admRuns s g q 0x24 c →
          (¬ owned → exec (.slotQuery g q ok) s = .next (fails s1 c .notAuthorised)) ∧
          (owned → ∀ r, recNow s first = some r → exec (.slotQuery g q ok) s = .next (query s1 c 2 ok (padTo 32 (r.head ++
            le 1 (dirEnt s first).state.code ++
            le 1 (b2n (goodCopy s .cope first).isSome + 2 * b2n (goodCopy s .drag first).isSome))) []))) ∧
        (admRuns s g q 0x25 c → exec (.slotCounter g q) s = .next (doneWith s1 c (le 8 (gal s c.gal).counter.toNat))) ∧
        (admRuns s g q 0x26 c → queued [80] (.slotTransportKeys g q ok) ∧ ∀ u, opsDone s (cmdOwner c) [80] none u →
          exec (.slotTransportKeys g q ok) s =
            .next (query (bump (drawFrom (cleared u) 2)) c 0 ok (transportKeys (cleared u) 1) []))))

/-- Life-cycle moves, inspection consent, provenance, identity (0x40 to 0x44, R360, R365, R367, R373 to R382) and extension
programs (0x60 to 0x63, R400 to R404): each burn, installation and load happens exactly under its checks, in their order. A burn
begins with its intent record in both banks, and its command completes when the fuses hold it (entry 59); burns run one at a
time. -/
def Obligations.LifeCycleIdentityAndExtensionCommands : Prop :=
  ∀ (s : State) (g : Gallery) (q : QIndex) (c : AdminCmd) (ok : Bool) (d key : Option Bytes),
    let f := s.lcs.fuses
    let move := c.p 0 1
    let legal := move = 2 ∧ fused s = .test ∨ move = 3 ∧ (fused s = .test ∨ fused s = .production)
    let begins := fun (t : State) (kind arg : Nat) => ∃ u, t = startBurn u c kind arg [] ∧ u.lcs = s.lcs ∧ u.srm.bank = s.srm.bank
    let hs := maskHalves (c.p 0 1)
    (burning s = true → ∀ e ∈ [(0x40, Instr.lifecycleMove g q), (0x41, .inspectionConsent g q d)], admRuns s g q e.1 c →
      exec e.2 s = .next s) ∧
    (admRuns s g q 0x40 c → burning s = false →
      (¬ legal ∨ 1 < c.p 1 1 → exec (.lifecycleMove g q) s = .next (fails s c .badInput)) ∧
      (legal → c.p 1 1 ≤ 1 →
        (move = 2 →
          let ready := s.lcs.chain ≠ none ∧ (running s).length = 3 ∧ ∀ m ∈ running s, m.test = false
          (ready → bothBanks s = true → exec (.lifecycleMove g q) s = .next (startBurn s c 2 0 [])) ∧
          (ready → bothBanks s = false → exec (.lifecycleMove g q) s = .next (fails s c .reserveBusy)) ∧
          (¬ ready → exec (.lifecycleMove g q) s = .next (fails s c .notAuthorised))) ∧
        (move = 3 →
          let need := setThere s = true ∨ fused s ≠ .test
          let may := need ∧ (useCer s c.gal (c.p 2 4) 6 0).1 = true ∨ ¬ need ∧ c.p 2 4 = 0
          (may → bothBanks s = true → ∃ t, exec (.lifecycleMove g q) s = .next t ∧ begins t 3 0) ∧
          (may → bothBanks s = false → exec (.lifecycleMove g q) s = .next (fails (endAuthorised s c).2 c .reserveBusy)) ∧
          (¬ may → exec (.lifecycleMove g q) s = .next (fails s c .notAuthorised))))) ∧
    (∀ (kind arg : Nat) (b : Bytes), let t := startBurn s c kind arg b
      let i : Intent := { kind, arg, seq := s.lcs.intentSeq + 1, payload := b }
      t.lcs = { s.lcs with intentSeq := s.lcs.intentSeq + 1,
                           intents := s.lcs.intents.map (· ++ [{ i with mac := i.macOf (rootKey s) }]) } ∧
        (c ∈ s.adm → carriesOn t c)) ∧
    (∀ i, (intentsOf s).find? (fun i => i.seq.toNat = c.mark) = some i → ∃ u, endBurn s c = done u c ∧
      u.lcs.fuses = burnIntent f i.kind i.arg i.payload ∧
      (∀ h, (s.pwr.feed.get h).valid = true → ∀ x ∈ u.lcs.intents.get h, x.seq ≠ i.seq) ∧
      u.lcs.resetAfter = if c.op = 0x40 ∧ nbit (c.p 1 1) 0 = true then some c.key else s.lcs.resetAfter) ∧
    (admRuns s g q 0x41 c → burning s = false →
      (fused s ≠ .production ∨ openToken f ≠ none → exec (.inspectionConsent g q d) s = .next (fails s c .badInput)) ∧
      (fused s = .production → openToken f = none →
        (d = none → exec (.inspectionConsent g q d) s = .next (completeAdmin s c .dmaError 1 0 [])) ∧
        ∀ b, d = some b → let u := padTo (c.p 8 2) b
          let dig := sha384 (u.take 0x80)
          ∃ t, exec (.inspectionConsent g q d) s = .next t ∧
            if unlockOk u = false then t = fails s c .badInput
            else if nextToken f = 8 then t = fails s c .quota
            else if byteAt u 5 ≠ nextToken f then t = fails s c .badInput
            else if slice u 8 48 ≠ partId s ∨ leAt u 0x38 8 ≠ f.dieId.toNat then t = fails s c .notAuthorised
            else if ecVerify 2 Config.vendorEcdsa dig (slice u 0x80 96) = false ∨
              Config.mldsaVerify Config.vendorMldsa [] dig (slice u 0xE0 4627) false = false then t = fails s c .notAuthorised
            else if (useCer s c.gal (c.p 10 4) 7 0).1 = false then t = fails s c .notAuthorised
            else if bothBanks s = false then t = fails (useCer s c.gal (c.p 10 4) 7 0).2.2 c .reserveBusy
            else begins t 4 (nextToken f))) ∧
    (admRuns s g q 0x42 c →
      (drbgReady s 2 = false → exec (.provenanceGet g q ok) s = .next s) ∧
      (drbgReady s 2 = true →
        (opsFresh s (cmdOwner c) [80] none → ∃ t, exec (.provenanceGet g q ok) s = .next t ∧ opsQueued s t (cmdOwner c) [80] none) ∧
        ∀ u, opsDone s (cmdOwner c) [80] none u → let b := statement u 1 c.gal (c.pb 10 32)
          let v := bump (drawFrom u 2)
          exec (.provenanceGet g q ok) s = .next (if c.p 8 2 < b.length then completeAdmin v c .outputShort 0 b.length []
            else query v c 0 ok b (le 2 b.length)))) ∧
    (admRuns s g q 0x43 c →
      (d = none → exec (.identityInstall g q d) s = .next (completeAdmin s c .dmaError 1 0 [])) ∧
      ∀ b, d = some b → let x := padTo (c.p 8 2) b
        ∃ t, exec (.identityInstall g q d) s = .next t ∧
          if s.lcs.chain ≠ none ∧ s.lcs.state = .production then t = fails s c .notAuthorised
          else if x = [] ∨ 8192 < x.length ∨ Config.x509Leaf x ≠ some s.lcs.point ∨ Config.x509Verifies x Config.identityKey = false then
            t = fails s c .badInput
          else ∃ u, t = done u c ∧ u.lcs = { s.lcs with chain := some x }) ∧
    (admRuns s g q 0x44 c →
      (∀ b, (move = 0 ∧ s.lcs.chain = some b ∨ move = 1 ∧ s.lcs.request = b) → exec (.identityGet g q ok) s =
        .next (if c.p 9 2 < b.length then completeAdmin s c .outputShort 0 b.length [] else query s c 1 ok b (le 2 b.length))) ∧
      ((move = 0 ∧ s.lcs.chain = none ∨ 1 < move) → exec (.identityGet g q ok) s = .next (fails s c .badInput))) ∧
    (admRuns s g q 0x60 c →
      (c.p 0 1 = 0 ∨ 3 < c.p 0 1 → exec (.extLoad g q d key) s = .next (fails s c .badInput)) ∧
      (1 ≤ c.p 0 1 → c.p 0 1 ≤ 3 →
        (d = none → exec (.extLoad g q d key) s = .next (completeAdmin s c .dmaError 1 0 [])) ∧
        ∀ b k, d = some b → key = some k → let x := padTo (c.p 9 4) b
          let kk := padTo (if (extImage x).alg = 1 then 97 else 2592) k
          ∃ t, exec (.extLoad g q d key) s = .next t ∧
            if extStructure x (c.p 9 4) = false then t = fails s c .badInput
            else if (gal s c.gal).authAlg ≠ (extImage x).alg ∨ sha384 kk ≠ (gal s c.gal).authDigest ∨ extVerifies x kk = false then
              t = fails s c .notAuthorised
            else if ∃ h ∈ hs, serving s h = false then t = fails s c .reserveBusy
            else if ∃ h ∈ hs, (gal s c.gal).parts.get h = 0 ∨ program s h c.gal ≠ none then t = fails s c .badInput
            else if ∃ h ∈ hs, placeOf s c.gal x h = none then t = fails s c .quota
            else ∃ u, t = doneWith u c (le 1 (c.p 0 1)) ∧ ∀ h ∈ hs, ∃ p, program u h c.gal = some p ∧ p.digest = sha384 (extSigned x) ∧
              placeOf s c.gal x h = some (p.part, p.base) ∧ p.entries = (extImage x).entries ∧ p.deadline = (extImage x).deadline)) ∧
    (admRuns s g q 0x61 c →
      ((c.p 0 1 = 0 ∨ 3 < c.p 0 1 ∨ ∃ h ∈ hs, program s h c.gal = none) → exec (.extUnload g q) s = .next (fails s c .badInput)) ∧
      (1 ≤ c.p 0 1 → c.p 0 1 ≤ 3 → (∀ h ∈ hs, program s h c.gal ≠ none) → ∃ u, exec (.extUnload g q) s = .next (done u c) ∧
        ∀ h ∈ hs, program u h c.gal = none ∧ u.wld.stopped.get 0 (progKey h c.gal) = 1)) ∧
    (admRuns s g q 0x62 c → exec (.extStatus g q ok) s = .next (query s c 0 ok (extReport s c.gal .cope ++ extReport s c.gal .drag) [])) ∧
    (admRuns s g q 0x63 c →
      (c.p 1 1 = 0 ∨ 3 < c.p 1 1 → exec (.extStop g q) s = .next (fails s c .badInput)) ∧
      (1 ≤ c.p 1 1 → c.p 1 1 ≤ 3 → ∃ u, exec (.extStop g q) s = .next (done u c) ∧
        ∀ h ∈ maskHalves (c.p 1 1), program u h (c.p 0 1) = none))

/-- The Span commands 0x50 to 0x58 (R528, R533, R536, R541, R545, R550, R551). -/
def Obligations.SpanCommands : Prop :=
  ∀ (s : State) (g : Gallery) (q : QIndex) (c : AdminCmd) (d : Option Bytes),
    let n := c.p 0 1
    let p := pairAt s n
    let now := s.gen.a.toNat
    (∀ e ∈ [(0x50, Instr.spanSetTopology g q none), (0x51, .spanSetRoutes g q none)], admRuns s g q e.1 c → c.p 8 2 ≤ 128 →
      exec e.2 s = .next (completeAdmin s c .dmaError 1 0 [])) ∧
    (∀ b, d = some b → admRuns s g q 0x50 c → let es := tabulate (c.p 8 1) fun i => slice b (64 * i) 64
      ((128 < c.p 8 1 ∨ es.all (topoRowOk s) = false ∨ distinctKeys (es.map fun e => byteAt e 0) = false) →
        exec (.spanSetTopology g q d) s = .next (fails s c .badInput)) ∧
      (c.p 8 1 ≤ 128 → es.all (topoRowOk s) = true → distinctKeys (es.map fun e => byteAt e 0) = true →
        ∃ u, exec (.spanSetTopology g q d) s = .next (done u c) ∧ u.spn.topoLoaded = true ∧
          (∀ e ∈ es, u.spn.topo.get none (byteAt e 0) = some { enabled := nbit (byteAt e 1) 0, unit := leAt e 2 2, link := byteAt e 4, id := slice e 16 48 }) ∧
          ∀ l, (∀ e ∈ es, byteAt e 0 ≠ l) → u.spn.topo.get none l = none)) ∧
    (∀ b, d = some b → admRuns s g q 0x51 c → let es := tabulate (c.p 8 2) fun i => slice b (8 * i) 8
      ((1024 < c.p 8 2 ∨ es.all (routeRowOk s) = false ∨ distinctKeys (es.map fun e => leAt e 0 2) = false) →
        exec (.spanSetRoutes g q d) s = .next (fails s c .badInput)) ∧
      (c.p 8 2 ≤ 1024 → es.all (routeRowOk s) = true → distinctKeys (es.map fun e => leAt e 0 2) = true →
        ∃ u, exec (.spanSetRoutes g q d) s = .next (done u c) ∧ u.spn.routesLoaded = true ∧
          (∀ e ∈ es, u.spn.routes.get none (leAt e 0 2) = some ⟨byteAt e 2, byteAt e 3, byteAt e 4⟩) ∧
          ∀ l, (∀ e ∈ es, leAt e 0 2 ≠ l) → u.spn.routes.get none l = none)) ∧
    (admRuns s g q 0x52 c → let on := s.mld.runAtrium.any fun m => m.atrium.chainEn
      ((s.chn.head = false ∨ on = false) → exec (.spanRollCall g q) s = .next (fails s c .badInput)) ∧
      (s.chn.head = true → on = true →
        (looped s 4 0 = true ∨ s.chn.roll ≠ none → exec (.spanRollCall g q) s = .next (fails s c .reserveBusy)) ∧
        (looped s 4 0 = false → s.chn.roll = none → ∃ t, exec (.spanRollCall g q) s = .next t ∧ carriesOn t c ∧
          t.chn.roll = some (1, now + 100000, c.key) ∧
          t.out.chain = s.out.chain ++ [[1] ++ le 2 s.chn.epoch.toNat ++ [0, 0] ++ zeros 4]))) ∧
    (admRuns s g q 0x53 c → let valid := (gal s n).state = .active ∧ c.p 2 2 ≤ 1023 ∧ c.p 4 1 ≤ 7 ∧ 16 ≤ c.p 6 2
      let may := (gal s n).pairing = true ∧ (limits s).pairOk = true
      (¬ valid → exec (.spanPairSet g q d) s = .next (fails s c .badInput)) ∧
      (valid → ¬ may → exec (.spanPairSet g q d) s = .next (fails s c .notAuthorised)) ∧
      (valid → may → (d = none → exec (.spanPairSet g q d) s = .next (completeAdmin s c .dmaError 1 0 [])) ∧
        ∀ b, d = some b → ∃ u, exec (.spanPairSet g q d) s = .next (done u c) ∧
          pairAt u n = { state := .pending, policy := BitVec.ofNat 3 (c.p 4 1), unit := BitVec.ofNat 10 (c.p 2 2),
                         partner := BitVec.ofNat 8 (c.p 1 1), timeout := c.p 6 2, identity := padTo 48 b, lastHello := now })) ∧
    (admRuns s g q 0x54 c →
      ((gal s n).state = .free → exec (.spanPairClear g q) s = .next (fails s c .badInput)) ∧
      ((gal s n).state ≠ .free → ∃ u, exec (.spanPairClear g q) s = .next (done u c) ∧ pairAt u n = {})) ∧
    (admRuns s g q 0x55 c →
      ((gal s n).state = .free → exec (.spanPairResync g q) s = .next (fails s c .badInput)) ∧
      ((gal s n).state ≠ .free →
        ((p.state = .none ∨ p.policy.getLsbD 0 = false) → exec (.spanPairResync g q) s = .next (done s c)) ∧
        (p.state ≠ .none → p.policy.getLsbD 0 = true → ∃ u, exec (.spanPairResync g q) s = .next (done u c) ∧ (pairAt u n).inFlight = [] ∧
          (1024 < (replicaSlots s n).length → (pairAt u n).state = .resync ∧ (pairAt u n).pending = []) ∧
          ((replicaSlots s n).length ≤ 1024 → (pairAt u n).pending = replicaSlots s n ∧
            (pairAt u n).state = if p.state = .resync then (if p.point = [] then .pending else .active) else p.state)))) ∧
    (admRuns s g q 0x56 c →
      (bonded s n = false → exec (.spanLinkReset g q) s = .next (fails s c .badInput)) ∧
      (bonded s n = true →
        ((link s n).state = .loop → exec (.spanLinkReset g q) s = .next (fails s c .reserveBusy)) ∧
        ((link s n).state ≠ .loop → quietFaults s → ∃ u, exec (.spanLinkReset g q) s = .next (done u c) ∧
          (link u n).state = .training ∧ (link u n).keyTx = []))) ∧
    (admRuns s g q 0x57 c → let u := c.p 0 2
      (1023 < u → exec (.spanPeerProvenance g q) s = .next (fails s c .badInput)) ∧
      (u ≤ 1023 → c.gal ≠ 0 → ((pairAt s c.gal).state = .none ∨ (pairAt s c.gal).unit.toNat ≠ u) →
        exec (.spanPeerProvenance g q) s = .next (fails s c .notAuthorised)) ∧
      (u ≤ 1023 → c.gal = 0 → ∃ t, exec (.spanPeerProvenance g q) s = .next t ∧ carriesOn t c ∧
        t.spn.reqs = s.spn.reqs ++ [{ tseq := s.spn.tseq, epoch := s.chn.epoch.toNat, dst := u, cls := 6, tick := now, sq := some c.key }] ∧
        sentTo s t u (spanMsg s 6 u s.spn.tseq 0 0 (c.pb 2 32)))) ∧
    (admRuns s g q 0x58 c →
      (1023 < c.p 0 2 ∨ 8176 < c.p 2 2 → exec (.spanEcho g q) s = .next (fails s c .badInput)) ∧
      (c.p 0 2 ≤ 1023 → c.p 2 2 ≤ 8176 →
        ((s.adm.any fun x => x.phase == .running && x.op = 0x58) = true → exec (.spanEcho g q) s = .next s) ∧
        ((s.adm.any fun x => x.phase == .running && x.op = 0x58) = false →
          (c.p 4 4 = 0 → ∃ u, exec (.spanEcho g q) s = .next (doneWith u c (le 4 0 ++ le 4 0 ++ le 4 0xFFFFFFFF)) ∧ u.jobs = s.jobs) ∧
          (c.p 4 4 ≠ 0 → ∃ t, exec (.spanEcho g q) s = .next t ∧ carriesOn t c ∧ t.spn.echo = (1, 0, none) ∧
            sentTo s t (c.p 0 2) (spanMsg s 8 (c.p 0 2) s.spn.tseq 0 0 (prbs31 (c.p 2 2)))))))

/-- The commands 0x70 to 0x7C and the end of an assay (R477, R481 to R486, R498 to R501, R509, R518, R521, R584). A policy
becomes stricter only; a self-test runs through the monitors and completes with the number of those that failed. -/
def Obligations.FaultTamperAndRecorderCommands : Prop :=
  ∀ (s : State) (g : Gallery) (q : QIndex) (c : AdminCmd) (ok : Bool) (bs : List Byte),
    let n := c.p 0 1
    let i := c.p 1 1
    let range := fun (l m : Nat) => hasRange (c.p 2 2) 1 m = true ∧ c.p 0 2 + c.p 2 2 ≤ l
    let cut := fun (l : List Bytes) => ((l.drop (c.p 0 2)).take (c.p 2 2)).flatMap id
    (admRuns s g q 0x70 c → exec (.faultQuery g q ok) s = .next (query s c 0 ok (faultReport s) [])) ∧
    (admRuns s g q 0x71 c → ∃ u, exec (.faultClear g q) s = .next (doneWith u c (le8 (clearFaults s (BitVec.ofNat 64 (c.p 0 8))).2)) ∧
      { u with flt := s.flt } = s ∧
      ∀ k, k < 64 → u.flt.status.getLsbD k =
        (s.flt.status.getLsbD k && !((BitVec.ofNat 64 (c.p 0 8)).getLsbD k && !(s.flt.status.getLsbD k && pinAsserted s k)))) ∧
    (admRuns s g q 0x72 c → let x := fltSrc s n
      let strict := x.cls.toNat ≤ i ∧ c.p 2 1 ≤ x.countN.toNat ∧ x.window.toNat ≤ c.p 4 4
      (63 < n ∨ faultRowOk n ⟨i, c.p 2 1, c.p 4 4⟩ = false → exec (.faultSetPolicy g q) s = .next (fails s c .badInput)) ∧
      (n ≤ 63 → faultRowOk n ⟨i, c.p 2 1, c.p 4 4⟩ = true →
        (¬ strict → exec (.faultSetPolicy g q) s = .next (fails s c .notAuthorised)) ∧
        (strict → ∃ u, exec (.faultSetPolicy g q) s = .next (done u c) ∧ { u with flt := s.flt } = s ∧
          fltSrc u n = { x with cls := BitVec.ofNat 2 i, countN := BitVec.ofNat 8 (c.p 2 1), window := BitVec.ofNat 24 (c.p 4 4) } ∧
          ∀ m, m ≠ n → fltSrc u m = fltSrc s m))) ∧
    (∀ h, admRuns s g q 0x73 c → n ≤ 1 →
      let per := if n = 1 then 9 else 40
      let u := i % per
      let st := if n = 1 then (nth {} (s.cup.units.get h) u).state else (nth {} (s.lanes.half.get h).lanes u).state
      i < 2 * per → h = halfOf (i / per) →
      ((s.lanes.half.get h).assay ≠ none → exec (.assayRequest g q) s = .next (fails s c .reserveBusy)) ∧
      ((s.lanes.half.get h).assay = none →
        (st ≠ .active → st ≠ .spare → exec (.assayRequest g q) s = .next (fails s c .badInput)) ∧
        (st = .active ∨ st = .spare → ∃ t a, exec (.assayRequest g q) s = .next t ∧ carriesOn t c ∧
          (t.lanes.half.get h).assay = some a ∧ a.cupola = decide (n = 1) ∧ a.unit = u ∧ a.cmd = some c.key ∧
          a.left = if n = 1 then 5000 else 64))) ∧
    (∀ h a passed, (s.lanes.half.get h).assay = some a → s.gen.windowDone = true →
      (a.left ≠ 0 → exec (.assayEnd h passed) s = .next s) ∧
      (a.left = 0 → ∀ k, a.cmd = some k →
        (s.adm.find? fun x => x.key = k && x.phase == .running && x.op = 0x73) = some c →
        ∃ u, exec (.assayEnd h passed) s = .next (doneWith u c [if passed then 0 else 1]) ∧ (u.lanes.half.get h).assay = none ∧
          (a.cupola = false → a.unit < (s.lanes.half.get h).lanes.length → (nth {} (u.lanes.half.get h).lanes a.unit).state =
            if passed then (if a.inPlace then .active else .spare) else .retired) ∧
          (a.cupola = true → a.unit < (s.cup.units.get h).length → (nth {} (u.cup.units.get h) a.unit).state =
            if passed then (if a.inPlace then .active else .spare) else .retired))) ∧
    (∀ h, admRuns s g q 0x74 c → h = halfOf n →
      (1 < n ∨ (sq s c.key).port = h ∨ serving s (other h) = false → exec (.halfReset g q) s = .next (fails s c .badInput)) ∧
      (n ≤ 1 → (sq s c.key).port ≠ h → serving s (other h) = true → (s.pwr.feed.get h).valid = true → s.mld.pour.get h = none →
        ∃ t, exec (.halfReset g q) s = .next t ∧ serving t h = false ∧ ((t.mld.pour.get h).isSome = true → carriesOn t c) ∧
          (t.pwr.halfResets.get h).toNat = Nat.min 255 ((s.pwr.halfResets.get h).toNat + 1))) ∧
    (admRuns s g q 0x75 c → let valid := n ≤ 4 ∧ i < loopCount n ∧ hasRange (c.p 2 1) 1 3 = true ∧ hasRange (c.p 4 4) 1 16777215 = true
      (¬ valid → exec (.loopback g q) s = .next (fails s c .badInput)) ∧
      (valid → loopBusy s c n i = true → exec (.loopback g q) s = .next (fails s c .reserveBusy)) ∧
      (valid → loopBusy s c n i = false → ∃ t, exec (.loopback g q) s = .next t ∧ carriesOn t c ∧ looped t n i = true ∧
        t.flt.loops = s.flt.loops ++ [⟨n, i, c.p 2 1, c.p 4 4, c.key, s.gen.a.toNat + 1000000⟩])) ∧
    (admRuns s g q 0x76 c → exec (.tamperQuery g q ok) s = .next (query s c 0 ok (tamperReport s) [])) ∧
    (admRuns s g q 0x77 c → let m := c.p 0 2
      let x := monEntry s m
      let row : TamperRow := ⟨m, c.p 2 1, c.p 3 1, c.p 4 4⟩
      let strict := x.response.toNat ≤ c.p 2 1 ∧ c.p 3 1 ≤ x.countN.toNat ∧ x.window.toNat ≤ c.p 4 4
      (tamperRowOk row = false → exec (.tamperSetPolicy g q) s = .next (fails s c .badInput)) ∧
      (tamperRowOk row = true →
        (¬ strict → exec (.tamperSetPolicy g q) s = .next (fails s c .notAuthorised)) ∧
        (strict → ∃ u, exec (.tamperSetPolicy g q) s = .next (done u c) ∧ { u with tmp := s.tmp } = s ∧ monEntry u m =
          { x with response := BitVec.ofNat 2 (c.p 2 1), countN := BitVec.ofNat 8 (c.p 3 1), window := BitVec.ofNat 24 (c.p 4 4), history := [] }))) ∧
    (admRuns s g q 0x78 c → let m := c.p 0 2
      (monitorInfo m = none → exec (.tamperStimulate g q ok) s = .next (fails s c .badInput)) ∧
      (monitorInfo m ≠ none → monPowered s m = false → exec (.tamperStimulate g q ok) s = .next (fails s c .reserveBusy)) ∧
      (monitorInfo m ≠ none → monPowered s m = true → quietFaults s → ∃ u,
        exec (.tamperStimulate g q ok) s = .next (doneWith u c [if ok then 1 else 0]) ∧ (monEntry u m).stimPass = ok ∧
        (monEntry u m).failed = (!ok) ∧ (monEntry u m).last = some s.gen.a.toNat)) ∧
    (admRuns s g q 0x79 c → (range (tamperLog s).length 16384 →
        exec (.tamperLogRead g q ok) s = .next (query s c 4 ok (cut (tamperLog s)) [])) ∧
      (¬ range (tamperLog s).length 16384 → exec (.tamperLogRead g q ok) s = .next (fails s c .badInput))) ∧
    (admRuns s g q 0x7A c →
      (s.tmp.selfRun ≠ none → exec (.tamperSelftest g q bs) s = .next s) ∧
      (s.tmp.selfRun = none → ∃ t, exec (.tamperSelftest g q bs) s = .next t ∧ carriesOn t c ∧
        t.tmp = { s.tmp with selfRun := some { seq := c.seq, left := monitorNos, failing := bs } })) ∧
    (∀ r, s.tmp.selfRun = some r →
      (r.left = [] → (s.adm.find? fun x => x.seq = r.seq && x.phase == .running && x.op = 0x7A) = some c →
        ∃ u, u.jobs = s.jobs ∧ selfStep s = doneWith u c (le 2 r.bad)) ∧
      (∀ m ms, r.left = m :: ms → quietFaults s → let bad := monPowered s m && r.failing.any fun b => b.toNat = m
        (selfStep s).tmp.selfRun = some { r with left := ms, bad := r.bad + b2n bad } ∧
        (monPowered s m = true → (monEntry (selfStep s) m).stimPass = (!bad) ∧ (monEntry (selfStep s) m).failed = bad))) ∧
    (admRuns s g q 0x7B c → (range (storedRecs s).length 4096 →
        exec (.recExport g q ok) s = .next (query s c 4 ok (cut (storedRecs s)) [])) ∧
      (¬ range (storedRecs s).length 4096 → exec (.recExport g q ok) s = .next (fails s c .badInput))) ∧
    (admRuns s g q 0x7C c → exec (.recLive g q ok) s =
      .next (query s c 0 ok (if s.rcd.full then zeros 512 else s.rcd.live.bytes) []))

/-- The Mould commands 0x80 to 0x86 (R57, R65 to R78, R339, R367), busy while a pour is in progress, and the entropy commands
0x90 to 0x93 (R456, R465 to R467). -/
def Obligations.MouldAndEntropyCommands : Prop :=
  ∀ (s : State) (g : Gallery) (q : QIndex) (c : AdminCmd) (ok : Bool) (d : Option Bytes),
    let n := c.p 0 1
    let en := c.p 1 1
    let x := srcAt s n
    (∀ e ∈ [(0x80, Instr.mouldStage g q d), (0x81, .mouldPourHalf g q), (0x82, .mouldPourAtrium g q), (0x83, .mouldCommit g q),
        (0x84, .mouldQuery g q ok), (0x85, .mouldBindOwner g q d), (0x86, .mouldDiscard g q)],
      admRuns s g q e.1 c → pourBusy s = true → exec e.2 s = .next (fails s c .reserveBusy)) ∧
    (admRuns s g q 0x80 c → pourBusy s = false →
      (freeSlot s = none → exec (.mouldStage g q d) s = .next (fails s c .reserveBusy)) ∧
      ∀ b, freeSlot s = some b → (d = none → exec (.mouldStage g q d) s = .next (completeAdmin s c .dmaError 1 0 [])) ∧
        ∀ m, d = some m → let m' := padTo (Nat.min (c.p 8 4) 2621441) m
          ∃ t, exec (.mouldStage g q d) s = .next t ∧ match mouldError s m' with
            | some (sect, r) => ∃ u, t = fails u c (mouldStatus r) ∧ { u with mld := s.mld } = s ∧
              u.mld = { s.mld with errSection := BitVec.ofNat 8 sect, errReason := BitVec.ofNat 8 r }
            | none => ∃ u, t = done u c ∧ { u with mld := s.mld } = s ∧
              ∀ h, (if b then u.mld.slotB else u.mld.slotA).get h = if bankUp s h then some m' else none) ∧
    (∀ h, admRuns s g q 0x81 c → pourBusy s = false → h = halfOf n →
      (pourSlot s en (s.mld.runSlotHalf.get h) = none → exec (.mouldPourHalf g q) s = .next (fails s c .badInput)) ∧
      ∀ b, pourSlot s en (s.mld.runSlotHalf.get h) = some b →
        (1 < n ∨ (sq s c.key).port = h ∨ serving s (other h) = false → exec (.mouldPourHalf g q) s = .next (fails s c .badInput)) ∧
        (n ≤ 1 → (sq s c.key).port ≠ h → serving s (other h) = true → (s.pwr.feed.get h).valid = true → s.mld.pour.get h = none →
          ∃ t, exec (.mouldPourHalf g q) s = .next t ∧ match slotMould s (.half h) b with
            | some m =>
              let active := fun (l : List Role) => (l.filter (· == .active)).length
              if compatOk m [s.mld.runAtrium, s.mld.runHalf.get (other h)] = false then t = fails (setErr s 0xFF 0x0A) c .notAuthorised
              else if 128 * active (m.halves.get h).laneRole < grantedUnits s h + 16 ∨
                  16 * active (m.halves.get h).cupolaRole < grantedCupola s + 16 then
                t = fails (setErr s 0xFF 0x0B) c .quota
              else serving t h = false ∧ ((t.mld.pour.get h).isSome = true → carriesOn t c)
            | none => serving t h = false)) ∧
    (admRuns s g q 0x82 c → pourBusy s = false →
      (pourSlot s n s.mld.runSlotAtrium = none → exec (.mouldPourAtrium g q) s = .next (fails s c .badInput)) ∧
      ∀ b, pourSlot s n s.mld.runSlotAtrium = some b → ∃ t, exec (.mouldPourAtrium g q) s = .next t ∧
        match slotMould s .atrium b with
        | some m =>
          if compatOk m [s.mld.runHalf.cope, s.mld.runHalf.drag] = false then t = fails (setErr s 0xFF 0x0A) c .notAuthorised
          else if m.atrium.limits.maxGalleries < existing s ∨ m.atrium.limits.maxSq < sqCount s ∨ m.atrium.limits.maxCq < cqCount s then
            t = fails (setErr s 0xFF 0x0C) c .quota
          else t.atr.restarting = true ∧ t.mld.atriumNext = some b ∧ t.mld.atriumPour = some c.key
        | none => t.atr.restarting = true ∧ t.mld.atriumNext = some b) ∧
    (pourBusy s = false → burning s = true → ∀ e ∈ [(0x83, Instr.mouldCommit g q), (0x85, .mouldBindOwner g q d)],
      admRuns s g q e.1 c → exec e.2 s = .next s) ∧
    (admRuns s g q 0x83 c → pourBusy s = false → burning s = false →
      (∀ m, (running s).length = 3 → (∀ y ∈ running s, y.digest = m.digest) → (running s).head? = some m →
        (bothBanks s = true → exec (.mouldCommit g q) s = .next (startBurn s c 6 m.secVer [])) ∧
        (bothBanks s = false → exec (.mouldCommit g q) s = .next (fails s c .reserveBusy))) ∧
      ((running s).length ≠ 3 → exec (.mouldCommit g q) s = .next (fails s c .notAuthorised))) ∧
    (admRuns s g q 0x84 c → pourBusy s = false → exec (.mouldQuery g q ok) s =
      .next (query s c 0 ok (padTo 128 ((slotImage s false).getD []) ++ padTo 128 ((slotImage s true).getD [])) [])) ∧
    (admRuns s g q 0x85 c → pourBusy s = false → burning s = false → let ce := useCer s c.gal (c.p 8 4) 8 0
      (ce.1 = false → exec (.mouldBindOwner g q d) s = .next (fails s c .notAuthorised)) ∧
      (ce.1 = true →
        (ownerBound s = true → exec (.mouldBindOwner g q d) s = .next (fails ce.2.2 c .notAuthorised)) ∧
        (ownerBound s = false → bothBanks s = false → exec (.mouldBindOwner g q d) s = .next (fails ce.2.2 c .reserveBusy)) ∧
        (ownerBound s = false → bothBanks s = true →
          (d = none → exec (.mouldBindOwner g q d) s = .next (completeAdmin ce.2.2 c .dmaError 1 0 [])) ∧
          ∀ b, d = some b → ∃ t, exec (.mouldBindOwner g q d) s = .next t ∧
            let alg := leAt b 0 2
            let k := slice b 2 (if alg = 1 then 97 else 2592)
            if alg = 0 ∨ 2 < alg ∨ (alg = 1 ∧ pointOk 2 k = false) then t = fails ce.2.2 c .badInput
            else t = startBurn ce.2.2 c 7 0 (le 1 alg ++ sha384 k)))) ∧
    (admRuns s g q 0x86 c → pourBusy s = false → ∃ u, exec (.mouldDiscard g q) s = .next (done u c) ∧ { u with mld := s.mld } = s ∧
      u.mld.slotA = (if slotRuns s false then s.mld.slotA else ⟨none, none⟩) ∧
      u.mld.slotB = (if slotRuns s true then s.mld.slotB else ⟨none, none⟩)) ∧
    (admRuns s g q 0x90 c → n ≤ 15 → en ≤ 1 →
      (en = 1 →
        ((rawSource s ≠ none ∨ (x.state ≠ .healthy ∧ x.state ≠ .excluded)) → exec (.rngSourceRaw g q) s = .next (fails s c .badInput)) ∧
        (rawSource s = none → (x.state = .healthy ∨ x.state = .excluded) →
          let left := healthy s (srcHalfOf n) - if x.state = .healthy then 1 else 0
          (left < 2 → exec (.rngSourceRaw g q) s = .next (fails s c .quota)) ∧
          (2 ≤ left → ∃ u, exec (.rngSourceRaw g q) s = .next (done u c) ∧ (srcAt u n).state = .raw ∧ u.rng.rawActive = true ∧
            u.rng.fifo = [] ∧ u.rng.fifoSrc = BitVec.ofNat 4 n))) ∧
      (en = 0 →
        (x.state ≠ .raw → exec (.rngSourceRaw g q) s = .next (fails s c .badInput)) ∧
        (x.state = .raw → ∃ u, exec (.rngSourceRaw g q) s = .next (done u c) ∧
          (srcAt u n).state = if x.wasHealthy then .starting else .excluded))) ∧
    (admRuns s g q 0x91 c → n ≤ 1 → en ≤ 15 →
      (s.lcs.state ≠ .test → exec (.rngDeviceRaw g q) s = .next (fails s c .notAuthorised)) ∧
      (s.lcs.state = .test →
        (n = 1 → ∃ u, exec (.rngDeviceRaw g q) s = .next (done u c) ∧ u.rng.deviceRaw = true ∧ u.rng.drbg = List.replicate 4 {} ∧
          u.rng.held = ⟨[], []⟩ ∧ ∀ k, k < 16 → (srcAt u k).state = if (srcAt s k).state = .off then .off else .raw) ∧
        (n = 0 → s.rng.deviceRaw = true → ∃ u, exec (.rngDeviceRaw g q) s = .next (done u c) ∧ u.rng.deviceRaw = false ∧
          ∀ k, k < 16 → (srcAt u k).state = if (srcAt s k).state = .off then .off else .starting) ∧
        (n = 0 → s.rng.deviceRaw = false → exec (.rngDeviceRaw g q) s = .next (done s c)))) ∧
    (admRuns s g q 0x92 c →
      (15 < n ∨ x.state ≠ .excluded → exec (.rngReadmit g q) s = .next (fails s c .badInput)) ∧
      (n ≤ 15 → x.state = .excluded → ∃ u, exec (.rngReadmit g q) s = .next (done u c) ∧ (srcAt u n).state = .starting ∧
        (srcAt u n).win = [] ∧ ∀ k, k ≠ n → srcAt u k = srcAt s k)) ∧
    (admRuns s g q 0x93 c →
      (3 < n → exec (.rngReseed g q) s = .next (fails s c .badInput)) ∧
      (n ≤ 3 → ∃ t, exec (.rngReseed g q) s = .next t ∧ carriesOn t c ∧ t.rng = s.rng))

/-! ### Life cycle and reset (spec/12, spec/21) -/

/-- The fused state (R364): a group is set when two of its three fuses read 1 (R362). -/
def Obligations.FusedStateFollowsGroups : Prop :=
  ∀ f : Fuses,
    let eol := 2 ≤ f.stEol
    let prod := 2 ≤ f.stProd
    let test := 2 ≤ f.stTest
    (eol ∨ prod ∧ ¬test → fusedState f = .endOfLife) ∧
    (¬eol → prod → test → fusedState f = .production) ∧
    (¬eol → ¬prod → test → fusedState f = .test) ∧
    (¬eol → ¬prod → ¬test → fusedState f = .blank)

/-- No step returns a fuse to 0: whatever command stands in front, what the fuses of an earlier state hold, the fuses of the
next state still hold (the fuse bank, before R362). -/
def Obligations.FusesOnlyBurn : Prop :=
  ∀ (f : Fuses) (s t : State), Fuses.keeps f s.lcs.fuses → step s = .next t → Fuses.keeps f t.lcs.fuses

/-- The state after reset: tick counts 0 (R51), no queue, job or command, gallery 0 with the resources it has at manufacture
(R91), its memories empty in canonical form. The blank fuses and empty banks are the model's choice (entries 2, 3 and 10). -/
def Obligations.ResetState : Prop :=
  let s := State.reset
  s.gen.a = 0 ∧ s.gen.b = 0 ∧ s.pending = [] ∧ s.sqs = [] ∧ s.cqs = [] ∧ s.jobs = [] ∧ s.adm = [] ∧
    (∀ g, (gal s g).state = .active ↔ g = 0) ∧
    (gal s 0).units = ⟨32, 32⟩ ∧ (gal s 0).cupola = 16 ∧ (gal s 0).slotQuota = 0 ∧ (gal s 0).sqLimit = 4 ∧ (gal s 0).cqLimit = 4 ∧
    (∀ m i, monitorInfo m = some i → (monEntry s m).response.toNat = i.floor) ∧
    (∀ n, n < 64 → (fltSrc s n).cls.toNat = lowestClass n ∧ (fltSrc s n).count = 0) ∧
    fused s = .blank ∧ anyServing s = false ∧ s.lcs.session = false ∧
    s.mem.reserve.wf = true ∧ ∀ h, (s.mem.floor.get h).wf = true ∧ (s.mem.mram.get h).wf = true
end

