-- ==== Sys2Proof/Laws/Memory.lean ====
section
/-!
SUPPORT. Byte memories: read after write, frames, and the canonical form that every memory operation keeps.
-/
namespace Sys2Proof.Machine

theorem Memory.read_insert (m : Memory) (k : Nat) (v : Byte) (j : Nat) (h : ∀ c ∈ m, c.1 ≠ k) :
    (Memory.insert m k v).read j = if j = k then v else m.read j := by
  induction m with
  | nil =>
    by_cases e : j = k
    · simp [Memory.insert, Memory.read, e]
    · have e' : ¬k = j := fun x => e x.symm
      simp [Memory.insert, Memory.read, e, e']
  | cons c m ih =>
    have hc : c.1 ≠ k := h c (by simp)
    have ih := ih fun x hx => h x (by simp [hx])
    simp only [Memory.insert]
    split
    · by_cases e : j = k
      · simp [Memory.read, e]
      · have e' : ¬k = j := fun x => e x.symm
        simp [Memory.read, e, e']
    · by_cases e : c.1 = j
      · simp [Memory.read, e, (show j ≠ k from e ▸ hc)]
      · simp [Memory.read, e, ih]

theorem Memory.read_filter (m : Memory) (p : Nat → Bool) (j : Nat) :
    Memory.read (m.filter fun c => p c.1) j = if p j then m.read j else 0 := by
  induction m with
  | nil => simp [Memory.read]
  | cons c m ih =>
    rw [List.filter_cons]
    by_cases e : c.1 = j
    · subst e
      by_cases hp : p c.1 = true
      · simp [Memory.read, hp]
      · simpa [hp] using ih
    · by_cases hp : p c.1 = true
      · simpa [Memory.read, hp, e] using ih
      · simpa [Memory.read, hp, e] using ih

/-- A write sets one byte and leaves every other as it was. -/
theorem Memory.read_write (m : Memory) (k : Nat) (v : Byte) (j : Nat) :
    (m.write k v).read j = if j = k then v else m.read j := by
  have hf := Memory.read_filter m (fun a => decide (a ≠ k)) j
  unfold Memory.write
  by_cases e : v = 0
  · by_cases h : j = k <;> simp_all
  · simp only [e, if_false]
    rw [Memory.read_insert _ k v j (by simp)]
    by_cases h : j = k <;> simp_all

@[simp] theorem Memory.read_write_same (m : Memory) (k : Nat) (v : Byte) : (m.write k v).read k = v := by
  simp [Memory.read_write]

theorem Memory.read_write_ne (m : Memory) {k j : Nat} (h : j ≠ k) (v : Byte) : (m.write k v).read j = m.read j := by
  simp [Memory.read_write, h]

/-- A store of several bytes leaves every byte outside its range as it was. -/
theorem Memory.read_writeN_outside (b : Bytes) : ∀ (m : Memory) (a j : Nat), (j < a ∨ a + b.length ≤ j) →
    (m.writeN a b).read j = m.read j := by
  induction b with
  | nil => intro m a j _; rfl
  | cons x t ih =>
    intro m a j h
    have hl : (x :: t).length = t.length + 1 := rfl
    simp only [Memory.writeN]
    rw [ih _ _ _ (by omega), Memory.read_write_ne _ (by omega)]

/-- Within its range a store reads back. -/
theorem Memory.read_writeN_inside (b : Bytes) : ∀ (m : Memory) (a i : Nat), i < b.length →
    (m.writeN a b).read (a + i) = nth 0 b i := by
  induction b with
  | nil => intro m a i h; simp at h
  | cons x t ih =>
    intro m a i h
    simp only [Memory.writeN]
    cases i with
    | zero => rw [Memory.read_writeN_outside _ _ _ _ (by omega)]; simp [nth]
    | succ i =>
      have := ih (m.write a x) (a + 1) i (by simpa using h)
      rwa [show a + (i + 1) = a + 1 + i by omega]

/-- Clearing a range reads as zero there and leaves the rest. -/
theorem Memory.read_clear (m : Memory) (a n j : Nat) :
    (m.clear a n).read j = if j < a ∨ a + n ≤ j then m.read j else 0 := by
  simpa [Memory.clear] using Memory.read_filter m (fun k => decide (k < a) || decide (a + n ≤ k)) j

theorem Memory.wfFrom_filter (p : Host.Cell → Bool) (m : Memory) :
    ∀ lo l', l' ≤ lo → Memory.wfFrom lo m = true → Memory.wfFrom l' (m.filter p) = true := by
  induction m with
  | nil => intro lo l' _ _; rfl
  | cons c m ih =>
    intro lo l' hl h
    simp only [Memory.wfFrom, Bool.and_eq_true, decide_eq_true_eq] at h
    rw [List.filter_cons]
    split
    · simp only [Memory.wfFrom, Bool.and_eq_true, decide_eq_true_eq]
      exact ⟨⟨by omega, h.1.2⟩, ih _ _ (Nat.le_refl _) h.2⟩
    · exact ih (c.1 + 1) l' (by omega) h.2

theorem Memory.wfFrom_insert (m : Memory) (k : Nat) (v : Byte) (hv : v ≠ 0) :
    ∀ lo, lo ≤ k → (∀ c ∈ m, c.1 ≠ k) → Memory.wfFrom lo m = true → Memory.wfFrom lo (Memory.insert m k v) = true := by
  induction m with
  | nil => intro lo h _ _; simpa [Memory.insert, Memory.wfFrom, h] using hv
  | cons c m ih =>
    intro lo h hn w
    have hc : c.1 ≠ k := hn c (by simp)
    simp only [Memory.wfFrom, Bool.and_eq_true, decide_eq_true_eq] at w
    simp only [Memory.insert]
    split
    · simp only [Memory.wfFrom, Bool.and_eq_true, decide_eq_true_eq]
      exact ⟨⟨h, hv⟩, ⟨by omega, w.1.2⟩, w.2⟩
    · simp only [Memory.wfFrom, Bool.and_eq_true, decide_eq_true_eq]
      exact ⟨w.1, ih (c.1 + 1) (by omega) (fun x hx => hn x (by simp [hx])) w.2⟩

/-- A write keeps the canonical form. -/
theorem Memory.wf_write (m : Memory) (k : Nat) (v : Byte) (h : m.wf = true) : (m.write k v).wf = true := by
  unfold Memory.write Memory.wf at *
  have hf := Memory.wfFrom_filter (fun c => decide (c.1 ≠ k)) m 0 0 (Nat.le_refl _) h
  by_cases e : v = 0
  · simpa [e] using hf
  · simp only [e, if_false]
    exact Memory.wfFrom_insert _ k v e 0 (Nat.zero_le _) (by simp) hf

/-- So does a store of several bytes. -/
theorem Memory.wf_writeN (b : Bytes) : ∀ (m : Memory) (a : Nat), m.wf = true → (m.writeN a b).wf = true := by
  induction b with
  | nil => intro m a h; exact h
  | cons x t ih => intro m a h; exact ih _ _ (Memory.wf_write m a x h)

/-- So does clearing a range. -/
theorem Memory.wf_clear (m : Memory) (a n : Nat) (h : m.wf = true) : (m.clear a n).wf = true :=
  Memory.wfFrom_filter _ m 0 0 (Nat.le_refl _) h

/-- The memories right after reset list nothing. -/
theorem reset_memories_wf : State.reset.mem = {} ∧ Memory.wf [] = true := ⟨rfl, rfl⟩

end Sys2Proof.Machine
end

