-- ==== Sys2Proof/Laws/Tab.lean ====
section
/-!
SUPPORT. Tables and pairs: read after write, and the canonical form that every table operation keeps.
-/
namespace Sys2Proof.Machine

@[simp] theorem Two.get_set_same {α : Type} (t : Two α) (h : Half) (a : α) : (t.set h a).get h = a := by cases h <;> rfl

@[simp] theorem Two.get_set_other {α : Type} (t : Two α) (h : Half) (a : α) : (t.set h a).get (other h) = t.get (other h) := by
  cases h <;> rfl

theorem Two.get_set_ne {α : Type} (t : Two α) {h k : Half} (e : h ≠ k) (a : α) : (t.set h a).get k = t.get k := by
  cases h <;> cases k <;> first | rfl | exact absurd rfl e

@[simp] theorem other_other (h : Half) : other (other h) = h := by cases h <;> rfl

@[simp] theorem halfOf_halfNo (h : Half) : halfOf (halfNo h) = h := by cases h <;> rfl

theorem Tab.get_insert {α : Type} (d : α) (t : Tab α) (k : Nat) (a : α) (j : Nat) (h : ∀ e ∈ t, e.1 ≠ k) :
    (Tab.insert t k a).get d j = if j = k then a else t.get d j := by
  induction t with
  | nil =>
    by_cases e : j = k
    · simp [Tab.insert, Tab.get, e]
    · have e' : ¬k = j := fun x => e x.symm
      simp [Tab.insert, Tab.get, e, e']
  | cons c t ih =>
    have hc : c.1 ≠ k := h c (by simp)
    have ih := ih fun e he => h e (by simp [he])
    simp only [Tab.insert]
    split
    · by_cases e : j = k
      · simp [Tab.get, e]
      · have e' : ¬k = j := fun x => e x.symm
        simp [Tab.get, e, e']
    · by_cases e : c.1 = j
      · simp [Tab.get, e, (show j ≠ k from e ▸ hc)]
      · simp [Tab.get, e, ih]

theorem Tab.get_filter {α : Type} (d : α) (t : Tab α) (k j : Nat) (h : j ≠ k) :
    Tab.get d (t.filter fun e => e.1 ≠ k) j = t.get d j := by
  induction t with
  | nil => rfl
  | cons c t ih =>
    by_cases e : c.1 = k
    · have : c.1 ≠ j := fun x => h (x ▸ e)
      simpa [List.filter, e, Tab.get, this, Ne.symm h] using ih
    · by_cases f : c.1 = j <;> simp_all [List.filter, Tab.get]

theorem Tab.get_filter_same {α : Type} (d : α) (t : Tab α) (k : Nat) : Tab.get d (t.filter fun e => e.1 ≠ k) k = d := by
  induction t with
  | nil => rfl
  | cons c t ih => by_cases e : c.1 = k <;> simp_all [List.filter, Tab.get]

/-- A write sets one number and leaves every other as it was, in any table. -/
theorem Tab.get_put {α : Type} [DecidableEq α] (d : α) (t : Tab α) (k : Nat) (a : α) (j : Nat) :
    (t.put d k a).get d j = if j = k then a else t.get d j := by
  unfold Tab.put
  by_cases e : j = k
  · subst e
    split
    · rename_i h; rw [Tab.get_filter_same]; simp [h]
    · simpa using (Tab.get_insert d _ j a j (by simp)).trans (if_pos rfl)
  · simp only [if_neg e]
    split
    · exact Tab.get_filter d t k j e
    · rw [Tab.get_insert d _ k a j (by simp), if_neg e, Tab.get_filter d t k j e]

@[simp] theorem Tab.get_put_same {α : Type} [DecidableEq α] (d : α) (t : Tab α) (k : Nat) (a : α) :
    (t.put d k a).get d k = a := by simp [Tab.get_put]

theorem Tab.get_put_ne {α : Type} [DecidableEq α] (d : α) (t : Tab α) {k j : Nat} (h : j ≠ k) (a : α) :
    (t.put d k a).get d j = t.get d j := by simp [Tab.get_put, h]

theorem Tab.wfFrom_filter {α : Type} [DecidableEq α] (d : α) (p : Nat × α → Bool) (t : Tab α) :
    ∀ lo l', l' ≤ lo → Tab.wfFrom d lo t = true → Tab.wfFrom d l' (t.filter p) = true := by
  induction t with
  | nil => intro lo l' _ _; rfl
  | cons c t ih =>
    intro lo l' hl h
    simp only [Tab.wfFrom, Bool.and_eq_true, decide_eq_true_eq] at h
    rw [List.filter_cons]
    split
    · simp only [Tab.wfFrom, Bool.and_eq_true, decide_eq_true_eq]
      exact ⟨⟨by omega, h.1.2⟩, ih _ _ (Nat.le_refl _) h.2⟩
    · exact ih (c.1 + 1) l' (by omega) h.2

theorem Tab.wfFrom_insert {α : Type} [DecidableEq α] (d : α) (t : Tab α) (k : Nat) (a : α) (ha : a ≠ d) :
    ∀ lo, lo ≤ k → (∀ e ∈ t, e.1 ≠ k) → Tab.wfFrom d lo t = true → Tab.wfFrom d lo (Tab.insert t k a) = true := by
  induction t with
  | nil => intro lo h _ _; simp [Tab.insert, Tab.wfFrom, h, ha]
  | cons c t ih =>
    intro lo h hn w
    have hc : c.1 ≠ k := hn c (by simp)
    simp only [Tab.wfFrom, Bool.and_eq_true, decide_eq_true_eq] at w
    simp only [Tab.insert]
    split
    · simp only [Tab.wfFrom, Bool.and_eq_true, decide_eq_true_eq]
      exact ⟨⟨h, ha⟩, ⟨by omega, w.1.2⟩, w.2⟩
    · simp only [Tab.wfFrom, Bool.and_eq_true, decide_eq_true_eq]
      exact ⟨w.1, ih (c.1 + 1) (by omega) (fun e he => hn e (by simp [he])) w.2⟩

/-- A write keeps the canonical form. -/
theorem Tab.wf_put {α : Type} [DecidableEq α] (d : α) (t : Tab α) (k : Nat) (a : α) (h : t.wf d = true) :
    (t.put d k a).wf d = true := by
  unfold Tab.put Tab.wf at *
  have hf := Tab.wfFrom_filter d (fun e => decide (e.1 ≠ k)) t 0 0 (Nat.le_refl _) h
  by_cases e : a = d
  · simpa [e] using hf
  · simpa [e] using Tab.wfFrom_insert d _ k a e 0 (Nat.zero_le _) (by simp) (by simpa using hf)

theorem Tab.wf_upd {α : Type} [DecidableEq α] (d : α) (t : Tab α) (k : Nat) (f : α → α) (h : t.wf d = true) :
    (t.upd d k f).wf d = true := Tab.wf_put d t k _ h

theorem nth_setNth {α : Type} (d : α) (l : List α) (i : Nat) (b : α) (j : Nat) :
    nth d (setNth l i b) j = if i = j ∧ j < l.length then b else nth d l j := by
  induction l generalizing i j with
  | nil => simp [setNth, nth]
  | cons a t ih =>
    cases i with
    | zero => cases j <;> simp [setNth, nth]
    | succ i => cases j <;> simp [setNth, nth, ih]

theorem nth_updNth {α : Type} (d : α) (l : List α) (i : Nat) (f : α → α) (j : Nat) :
    nth d (updNth l i f) j = if i = j ∧ j < l.length then f (nth d l j) else nth d l j := by
  induction l generalizing i j with
  | nil => simp [updNth, nth]
  | cons a t ih =>
    cases i with
    | zero => cases j <;> simp [updNth, nth]
    | succ i => cases j <;> simp [updNth, nth, ih]

@[simp] theorem length_setNth {α : Type} (l : List α) (i : Nat) (b : α) : (setNth l i b).length = l.length := by
  induction l generalizing i with
  | nil => rfl
  | cons a t ih => cases i <;> simp [setNth, ih]

@[simp] theorem length_updNth {α : Type} (l : List α) (i : Nat) (f : α → α) : (updNth l i f).length = l.length := by
  induction l generalizing i with
  | nil => rfl
  | cons a t ih => cases i <;> simp [updNth, ih]

/-- What an update of one element reads is that element. -/
theorem updNth_congr {α : Type} (d : α) (l : List α) (i : Nat) (f g : α → α) (h : f (nth d l i) = g (nth d l i)) :
    updNth l i f = updNth l i g := by
  induction l generalizing i with
  | nil => rfl
  | cons a t ih =>
    cases i with
    | zero => simpa [updNth, nth] using h
    | succ i => simpa [updNth] using ih i (by simpa [nth] using h)

end Sys2Proof.Machine
end

