-- ==== Sys2Proof/Laws/Records.lean ====
section
/-!
SUPPORT. Slot records: what was sealed verifies, and what a write leaves in each bank.
-/
namespace Sys2Proof.Machine

/-- What AES-256-GCM sealed opens under the same key, nonce and additional data. -/
theorem gcmDec_gcmEnc (key iv aad m : Bytes) :
    gcmDec key iv aad (gcmEnc key iv aad m).1 (gcmEnc key iv aad m).2 =
      some (ctr32 (aes true key) (inc32 (iv ++ be 4 1) 1) (gcmEnc key iv aad m).1) := by
  simp only [gcmDec, gcmEnc, beq_self_eq_true, if_true]

/-- A record sealed under the key of its epoch register verifies at its own position (R289). -/
theorem tagOk_sealWith (s : State) (r : Rec) (key iv m : Bytes) (hk : sealKey s r.epoch = some key) (hs : sealedSession s = false) :
    tagOk s r.slot (r.sealWith key iv m) = true := by
  have h : unsealed s (r.sealWith key iv m) =
      gcmDec key iv { r with iv }.aad (gcmEnc key iv { r with iv }.aad (padTo 80 m)).1 (gcmEnc key iv { r with iv }.aad (padTo 80 m)).2 := by
    show (sealKey s r.epoch).bind _ = _
    rw [hk]; rfl
  unfold tagOk
  rw [h, gcmDec_gcmEnc, hs]
  show (!false && !false && decide (r.slot = r.slot) && true) = true
  simp

/-- A sealed record of the slot's owner is the good copy of a narrow slot in an available bank that is current for it (R289, R297). -/
theorem goodCopy_sealWith (s : State) (h : Half) (r : Rec) (key iv m : Bytes) (hk : sealKey s r.epoch = some key)
    (hs : sealedSession s = false) (hb : (s.srm.bank.get h).available = true)
    (hst : (s.srm.bank.get h).stale.contains r.slot = false) (hc : copyOf s h r.slot = some (r.sealWith key iv m))
    (hg : r.gal = (mapEnt s r.slot).owner) (hw : inWide s r.slot = false) (hp : r.part = 0) :
    goodCopy s h r.slot = some (r.sealWith key iv m) := by
  have ht := tagOk_sealWith s r key iv m hk hs
  have hgood : recGood s h r.slot (r.sealWith key iv m) = true := by
    unfold recGood
    rw [ht, hw, show (r.sealWith key iv m).gal = r.gal from rfl, show (r.sealWith key iv m).part = r.part from rfl, hp, partAt, hw]
    simp [hg]
  simp [goodCopy, hb, hc, hgood, -List.contains_eq_mem, hst]

/-- A written record stands in every available bank; every other copy is as before (R296). -/
theorem copyOf_writeRec (s : State) (n : Nat) (r : Rec) (m : Bytes) (h : Half) (k : Nat) :
    copyOf (writeRec s n r m) h k =
      if k = n ∧ (s.srm.bank.get h).available = true then some (sealRec s { r with slot := n } m (freeBytes s 12)) else copyOf s h k := by
  have put : ∀ b : Bank, ∀ v : Rec,
      (if b.available then { b with recs := b.recs.put none n (some v), stale := b.stale.filter (· ≠ n) } else
        { b with stale := if b.stale.contains n then b.stale else b.stale ++ [n] } : Bank).recs.get none k =
        (if k = n ∧ b.available = true then some v else b.recs.get none k) ∧
      (if b.available then { b with recs := b.recs.put none n (some v), stale := b.stale.filter (· ≠ n) } else
        { b with stale := if b.stale.contains n then b.stale else b.stale ++ [n] } : Bank).base = b.base := by
    intro b v
    by_cases ha : b.available = true
    · simp only [ha, if_true, and_true]
      by_cases e : k = n
      · subst e; simp
      · simp [e, Tab.get_put_ne]
    · have h0 : b.available = false := by simpa using ha
      simp [h0]
  have both : ∀ b c : Bank, c.recs.get none k = (if k = n ∧ b.available = true then
        some (sealRec s { r with slot := n } m (freeBytes s 12)) else b.recs.get none k) → c.base = b.base →
      (match c.recs.get none k with
        | some r => some r
        | none => c.base.map fun b => b.record k) =
      if k = n ∧ b.available = true then some (sealRec s { r with slot := n } m (freeBytes s 12)) else
        (match b.recs.get none k with
          | some r => some r
          | none => b.base.map fun b => b.record k) := by
    intro b c h1 h2
    rw [h1, h2]
    by_cases hc : k = n ∧ b.available = true
    · rw [if_pos hc, if_pos hc]
    · rw [if_neg hc, if_neg hc]
  cases h
  · exact both s.srm.bank.cope _ (put _ _).1 (put _ _).2
  · exact both s.srm.bank.drag _ (put _ _).1 (put _ _).2

end Sys2Proof.Machine
end

