-- ==== Sys2Proof/Laws/Reserve.lean ====
section
/-!
SUPPORT. What Reserve firmware's Cupola operations can do to what asks for them (R266, entry 38).
-/
namespace Sys2Proof.Machine

/-- Results that are there are used. -/
theorem reserveOp_done {s u : State} {owner : Bytes} {ticks : List Nat} {half : Option Half} (f : State → State)
    (h : opsDone s owner ticks half u) : reserveOp s owner ticks half f = f u := by
  rcases h with ⟨h, rfl⟩ | ⟨h1, h2, h3, rfl⟩
  · have hc : (ticks.isEmpty || !canReserve u half) = true := by
      rcases h with rfl | h <;> simp_all
    simp only [reserveOp, hc, if_true]
  · have hc : (ticks.isEmpty || !canReserve s half) = false := by simp [h1, h2]
    simp only [reserveOp, hc, h3, updCup]
    rfl

/-- The first asking queues the operations and changes nothing else. -/
theorem reserveOp_fresh {s : State} {owner : Bytes} {ticks : List Nat} {half : Option Half} (f : State → State)
    (h : opsFresh s owner ticks half) : opsQueued s (reserveOp s owner ticks half f) owner ticks half := by
  obtain ⟨h1, h2, h3, h4⟩ := h
  have hc : (ticks.isEmpty || !canReserve s half) = false := by simp [h1, h2]
  simp only [opsQueued, reserveOp, hc, h3, h4, updCup]
  rfl

/-- Until they have ended, asking again changes nothing. -/
theorem reserveOp_waits {s : State} {owner : Bytes} {ticks : List Nat} {half : Option Half} (f : State → State) (ht : ticks ≠ [])
    (hc : canReserve s half = true) (hd : s.cup.resDone.contains owner = false) (hw : (resWorks s).any (·.owner == owner) = true) :
    reserveOp s owner ticks half f = s := by
  have h : (ticks.isEmpty || !canReserve s half) = false := by simp [ht, hc]
  simp only [reserveOp, h, hd, hw]
  rfl

end Sys2Proof.Machine
end

