-- ==== Sys2Proof/Laws/State.lean ====
section
/-!
SUPPORT. One lemma per field of State per basic update, so that no proof unfolds a record update.
-/
namespace Sys2Proof.Machine

/-! `bump` -/
@[simp ↓] theorem bump_pending (s : State) : (bump s).pending = s.pending := (rfl)
@[simp ↓] theorem bump_freeCtr (s : State) : (bump s).freeCtr = s.freeCtr + 1 := (rfl)
@[simp ↓] theorem bump_response (s : State) : (bump s).response = s.response := (rfl)
@[simp ↓] theorem bump_out (s : State) : (bump s).out = s.out := (rfl)
@[simp ↓] theorem bump_atr (s : State) : (bump s).atr = s.atr := (rfl)
@[simp ↓] theorem bump_gen (s : State) : (bump s).gen = s.gen := (rfl)
@[simp ↓] theorem bump_pwr (s : State) : (bump s).pwr = s.pwr := (rfl)
@[simp ↓] theorem bump_mld (s : State) : (bump s).mld = s.mld := (rfl)
@[simp ↓] theorem bump_gals (s : State) : (bump s).gals = s.gals := (rfl)
@[simp ↓] theorem bump_galv (s : State) : (bump s).galv = s.galv := (rfl)
@[simp ↓] theorem bump_mbxSel (s : State) : (bump s).mbxSel = s.mbxSel := (rfl)
@[simp ↓] theorem bump_mbxPending (s : State) : (bump s).mbxPending = s.mbxPending := (rfl)
@[simp ↓] theorem bump_mbxAcked (s : State) : (bump s).mbxAcked = s.mbxAcked := (rfl)
@[simp ↓] theorem bump_sqs (s : State) : (bump s).sqs = s.sqs := (rfl)
@[simp ↓] theorem bump_cqs (s : State) : (bump s).cqs = s.cqs := (rfl)
@[simp ↓] theorem bump_reads (s : State) : (bump s).reads = s.reads := (rfl)
@[simp ↓] theorem bump_nextRid (s : State) : (bump s).nextRid = s.nextRid := (rfl)
@[simp ↓] theorem bump_jobs (s : State) : (bump s).jobs = s.jobs := (rfl)
@[simp ↓] theorem bump_nextJob (s : State) : (bump s).nextJob = s.nextJob := (rfl)
@[simp ↓] theorem bump_adm (s : State) : (bump s).adm = s.adm := (rfl)
@[simp ↓] theorem bump_nextSeq (s : State) : (bump s).nextSeq = s.nextSeq := (rfl)
@[simp ↓] theorem bump_lanes (s : State) : (bump s).lanes = s.lanes := (rfl)
@[simp ↓] theorem bump_cup (s : State) : (bump s).cup = s.cup := (rfl)
@[simp ↓] theorem bump_srm (s : State) : (bump s).srm = s.srm := (rfl)
@[simp ↓] theorem bump_cus (s : State) : (bump s).cus = s.cus := (rfl)
@[simp ↓] theorem bump_arc (s : State) : (bump s).arc = s.arc := (rfl)
@[simp ↓] theorem bump_lcs (s : State) : (bump s).lcs = s.lcs := (rfl)
@[simp ↓] theorem bump_wld (s : State) : (bump s).wld = s.wld := (rfl)
@[simp ↓] theorem bump_lcu (s : State) : (bump s).lcu = s.lcu := (rfl)
@[simp ↓] theorem bump_cores (s : State) : (bump s).cores = s.cores := (rfl)
@[simp ↓] theorem bump_rng (s : State) : (bump s).rng = s.rng := (rfl)
@[simp ↓] theorem bump_flt (s : State) : (bump s).flt = s.flt := (rfl)
@[simp ↓] theorem bump_tmp (s : State) : (bump s).tmp = s.tmp := (rfl)
@[simp ↓] theorem bump_rcd (s : State) : (bump s).rcd = s.rcd := (rfl)
@[simp ↓] theorem bump_spn (s : State) : (bump s).spn = s.spn := (rfl)
@[simp ↓] theorem bump_chn (s : State) : (bump s).chn = s.chn := (rfl)
@[simp ↓] theorem bump_hst (s : State) : (bump s).hst = s.hst := (rfl)
@[simp ↓] theorem bump_mem (s : State) : (bump s).mem = s.mem := (rfl)

/-! `setGal` -/
@[simp ↓] theorem setGal_pending (s : State) (g : Nat) (x : Gal) : (setGal s g x).pending = s.pending := (rfl)
@[simp ↓] theorem setGal_freeCtr (s : State) (g : Nat) (x : Gal) : (setGal s g x).freeCtr = s.freeCtr := (rfl)
@[simp ↓] theorem setGal_response (s : State) (g : Nat) (x : Gal) : (setGal s g x).response = s.response := (rfl)
@[simp ↓] theorem setGal_out (s : State) (g : Nat) (x : Gal) : (setGal s g x).out = s.out := (rfl)
@[simp ↓] theorem setGal_atr (s : State) (g : Nat) (x : Gal) : (setGal s g x).atr = s.atr := (rfl)
@[simp ↓] theorem setGal_gen (s : State) (g : Nat) (x : Gal) : (setGal s g x).gen = s.gen := (rfl)
@[simp ↓] theorem setGal_pwr (s : State) (g : Nat) (x : Gal) : (setGal s g x).pwr = s.pwr := (rfl)
@[simp ↓] theorem setGal_mld (s : State) (g : Nat) (x : Gal) : (setGal s g x).mld = s.mld := (rfl)
@[simp ↓] theorem setGal_gals (s : State) (g : Nat) (x : Gal) : (setGal s g x).gals = s.gals.put {} g x := (rfl)
@[simp ↓] theorem setGal_galv (s : State) (g : Nat) (x : Gal) : (setGal s g x).galv = s.galv := (rfl)
@[simp ↓] theorem setGal_mbxSel (s : State) (g : Nat) (x : Gal) : (setGal s g x).mbxSel = s.mbxSel := (rfl)
@[simp ↓] theorem setGal_mbxPending (s : State) (g : Nat) (x : Gal) : (setGal s g x).mbxPending = s.mbxPending := (rfl)
@[simp ↓] theorem setGal_mbxAcked (s : State) (g : Nat) (x : Gal) : (setGal s g x).mbxAcked = s.mbxAcked := (rfl)
@[simp ↓] theorem setGal_sqs (s : State) (g : Nat) (x : Gal) : (setGal s g x).sqs = s.sqs := (rfl)
@[simp ↓] theorem setGal_cqs (s : State) (g : Nat) (x : Gal) : (setGal s g x).cqs = s.cqs := (rfl)
@[simp ↓] theorem setGal_reads (s : State) (g : Nat) (x : Gal) : (setGal s g x).reads = s.reads := (rfl)
@[simp ↓] theorem setGal_nextRid (s : State) (g : Nat) (x : Gal) : (setGal s g x).nextRid = s.nextRid := (rfl)
@[simp ↓] theorem setGal_jobs (s : State) (g : Nat) (x : Gal) : (setGal s g x).jobs = s.jobs := (rfl)
@[simp ↓] theorem setGal_nextJob (s : State) (g : Nat) (x : Gal) : (setGal s g x).nextJob = s.nextJob := (rfl)
@[simp ↓] theorem setGal_adm (s : State) (g : Nat) (x : Gal) : (setGal s g x).adm = s.adm := (rfl)
@[simp ↓] theorem setGal_nextSeq (s : State) (g : Nat) (x : Gal) : (setGal s g x).nextSeq = s.nextSeq := (rfl)
@[simp ↓] theorem setGal_lanes (s : State) (g : Nat) (x : Gal) : (setGal s g x).lanes = s.lanes := (rfl)
@[simp ↓] theorem setGal_cup (s : State) (g : Nat) (x : Gal) : (setGal s g x).cup = s.cup := (rfl)
@[simp ↓] theorem setGal_srm (s : State) (g : Nat) (x : Gal) : (setGal s g x).srm = s.srm := (rfl)
@[simp ↓] theorem setGal_cus (s : State) (g : Nat) (x : Gal) : (setGal s g x).cus = s.cus := (rfl)
@[simp ↓] theorem setGal_arc (s : State) (g : Nat) (x : Gal) : (setGal s g x).arc = s.arc := (rfl)
@[simp ↓] theorem setGal_lcs (s : State) (g : Nat) (x : Gal) : (setGal s g x).lcs = s.lcs := (rfl)
@[simp ↓] theorem setGal_wld (s : State) (g : Nat) (x : Gal) : (setGal s g x).wld = s.wld := (rfl)
@[simp ↓] theorem setGal_lcu (s : State) (g : Nat) (x : Gal) : (setGal s g x).lcu = s.lcu := (rfl)
@[simp ↓] theorem setGal_cores (s : State) (g : Nat) (x : Gal) : (setGal s g x).cores = s.cores := (rfl)
@[simp ↓] theorem setGal_rng (s : State) (g : Nat) (x : Gal) : (setGal s g x).rng = s.rng := (rfl)
@[simp ↓] theorem setGal_flt (s : State) (g : Nat) (x : Gal) : (setGal s g x).flt = s.flt := (rfl)
@[simp ↓] theorem setGal_tmp (s : State) (g : Nat) (x : Gal) : (setGal s g x).tmp = s.tmp := (rfl)
@[simp ↓] theorem setGal_rcd (s : State) (g : Nat) (x : Gal) : (setGal s g x).rcd = s.rcd := (rfl)
@[simp ↓] theorem setGal_spn (s : State) (g : Nat) (x : Gal) : (setGal s g x).spn = s.spn := (rfl)
@[simp ↓] theorem setGal_chn (s : State) (g : Nat) (x : Gal) : (setGal s g x).chn = s.chn := (rfl)
@[simp ↓] theorem setGal_hst (s : State) (g : Nat) (x : Gal) : (setGal s g x).hst = s.hst := (rfl)
@[simp ↓] theorem setGal_mem (s : State) (g : Nat) (x : Gal) : (setGal s g x).mem = s.mem := (rfl)

/-! `updGal` -/
@[simp ↓] theorem updGal_pending (s : State) (g : Nat) (f : Gal → Gal) : (updGal s g f).pending = s.pending := (rfl)
@[simp ↓] theorem updGal_freeCtr (s : State) (g : Nat) (f : Gal → Gal) : (updGal s g f).freeCtr = s.freeCtr := (rfl)
@[simp ↓] theorem updGal_response (s : State) (g : Nat) (f : Gal → Gal) : (updGal s g f).response = s.response := (rfl)
@[simp ↓] theorem updGal_out (s : State) (g : Nat) (f : Gal → Gal) : (updGal s g f).out = s.out := (rfl)
@[simp ↓] theorem updGal_atr (s : State) (g : Nat) (f : Gal → Gal) : (updGal s g f).atr = s.atr := (rfl)
@[simp ↓] theorem updGal_gen (s : State) (g : Nat) (f : Gal → Gal) : (updGal s g f).gen = s.gen := (rfl)
@[simp ↓] theorem updGal_pwr (s : State) (g : Nat) (f : Gal → Gal) : (updGal s g f).pwr = s.pwr := (rfl)
@[simp ↓] theorem updGal_mld (s : State) (g : Nat) (f : Gal → Gal) : (updGal s g f).mld = s.mld := (rfl)
@[simp ↓] theorem updGal_galv (s : State) (g : Nat) (f : Gal → Gal) : (updGal s g f).galv = s.galv := (rfl)
@[simp ↓] theorem updGal_mbxSel (s : State) (g : Nat) (f : Gal → Gal) : (updGal s g f).mbxSel = s.mbxSel := (rfl)
@[simp ↓] theorem updGal_mbxPending (s : State) (g : Nat) (f : Gal → Gal) : (updGal s g f).mbxPending = s.mbxPending := (rfl)
@[simp ↓] theorem updGal_mbxAcked (s : State) (g : Nat) (f : Gal → Gal) : (updGal s g f).mbxAcked = s.mbxAcked := (rfl)
@[simp ↓] theorem updGal_sqs (s : State) (g : Nat) (f : Gal → Gal) : (updGal s g f).sqs = s.sqs := (rfl)
@[simp ↓] theorem updGal_cqs (s : State) (g : Nat) (f : Gal → Gal) : (updGal s g f).cqs = s.cqs := (rfl)
@[simp ↓] theorem updGal_reads (s : State) (g : Nat) (f : Gal → Gal) : (updGal s g f).reads = s.reads := (rfl)
@[simp ↓] theorem updGal_nextRid (s : State) (g : Nat) (f : Gal → Gal) : (updGal s g f).nextRid = s.nextRid := (rfl)
@[simp ↓] theorem updGal_jobs (s : State) (g : Nat) (f : Gal → Gal) : (updGal s g f).jobs = s.jobs := (rfl)
@[simp ↓] theorem updGal_nextJob (s : State) (g : Nat) (f : Gal → Gal) : (updGal s g f).nextJob = s.nextJob := (rfl)
@[simp ↓] theorem updGal_adm (s : State) (g : Nat) (f : Gal → Gal) : (updGal s g f).adm = s.adm := (rfl)
@[simp ↓] theorem updGal_nextSeq (s : State) (g : Nat) (f : Gal → Gal) : (updGal s g f).nextSeq = s.nextSeq := (rfl)
@[simp ↓] theorem updGal_lanes (s : State) (g : Nat) (f : Gal → Gal) : (updGal s g f).lanes = s.lanes := (rfl)
@[simp ↓] theorem updGal_cup (s : State) (g : Nat) (f : Gal → Gal) : (updGal s g f).cup = s.cup := (rfl)
@[simp ↓] theorem updGal_srm (s : State) (g : Nat) (f : Gal → Gal) : (updGal s g f).srm = s.srm := (rfl)
@[simp ↓] theorem updGal_cus (s : State) (g : Nat) (f : Gal → Gal) : (updGal s g f).cus = s.cus := (rfl)
@[simp ↓] theorem updGal_arc (s : State) (g : Nat) (f : Gal → Gal) : (updGal s g f).arc = s.arc := (rfl)
@[simp ↓] theorem updGal_lcs (s : State) (g : Nat) (f : Gal → Gal) : (updGal s g f).lcs = s.lcs := (rfl)
@[simp ↓] theorem updGal_wld (s : State) (g : Nat) (f : Gal → Gal) : (updGal s g f).wld = s.wld := (rfl)
@[simp ↓] theorem updGal_lcu (s : State) (g : Nat) (f : Gal → Gal) : (updGal s g f).lcu = s.lcu := (rfl)
@[simp ↓] theorem updGal_cores (s : State) (g : Nat) (f : Gal → Gal) : (updGal s g f).cores = s.cores := (rfl)
@[simp ↓] theorem updGal_rng (s : State) (g : Nat) (f : Gal → Gal) : (updGal s g f).rng = s.rng := (rfl)
@[simp ↓] theorem updGal_flt (s : State) (g : Nat) (f : Gal → Gal) : (updGal s g f).flt = s.flt := (rfl)
@[simp ↓] theorem updGal_tmp (s : State) (g : Nat) (f : Gal → Gal) : (updGal s g f).tmp = s.tmp := (rfl)
@[simp ↓] theorem updGal_rcd (s : State) (g : Nat) (f : Gal → Gal) : (updGal s g f).rcd = s.rcd := (rfl)
@[simp ↓] theorem updGal_spn (s : State) (g : Nat) (f : Gal → Gal) : (updGal s g f).spn = s.spn := (rfl)
@[simp ↓] theorem updGal_chn (s : State) (g : Nat) (f : Gal → Gal) : (updGal s g f).chn = s.chn := (rfl)
@[simp ↓] theorem updGal_hst (s : State) (g : Nat) (f : Gal → Gal) : (updGal s g f).hst = s.hst := (rfl)
@[simp ↓] theorem updGal_mem (s : State) (g : Nat) (f : Gal → Gal) : (updGal s g f).mem = s.mem := (rfl)

/-! `setGv` -/
@[simp ↓] theorem setGv_pending (s : State) (g : Nat) (x : GalVol) : (setGv s g x).pending = s.pending := (rfl)
@[simp ↓] theorem setGv_freeCtr (s : State) (g : Nat) (x : GalVol) : (setGv s g x).freeCtr = s.freeCtr := (rfl)
@[simp ↓] theorem setGv_response (s : State) (g : Nat) (x : GalVol) : (setGv s g x).response = s.response := (rfl)
@[simp ↓] theorem setGv_out (s : State) (g : Nat) (x : GalVol) : (setGv s g x).out = s.out := (rfl)
@[simp ↓] theorem setGv_atr (s : State) (g : Nat) (x : GalVol) : (setGv s g x).atr = s.atr := (rfl)
@[simp ↓] theorem setGv_gen (s : State) (g : Nat) (x : GalVol) : (setGv s g x).gen = s.gen := (rfl)
@[simp ↓] theorem setGv_pwr (s : State) (g : Nat) (x : GalVol) : (setGv s g x).pwr = s.pwr := (rfl)
@[simp ↓] theorem setGv_mld (s : State) (g : Nat) (x : GalVol) : (setGv s g x).mld = s.mld := (rfl)
@[simp ↓] theorem setGv_gals (s : State) (g : Nat) (x : GalVol) : (setGv s g x).gals = s.gals := (rfl)
@[simp ↓] theorem setGv_galv (s : State) (g : Nat) (x : GalVol) : (setGv s g x).galv = s.galv.put {} g x := (rfl)
@[simp ↓] theorem setGv_mbxSel (s : State) (g : Nat) (x : GalVol) : (setGv s g x).mbxSel = s.mbxSel := (rfl)
@[simp ↓] theorem setGv_mbxPending (s : State) (g : Nat) (x : GalVol) : (setGv s g x).mbxPending = s.mbxPending := (rfl)
@[simp ↓] theorem setGv_mbxAcked (s : State) (g : Nat) (x : GalVol) : (setGv s g x).mbxAcked = s.mbxAcked := (rfl)
@[simp ↓] theorem setGv_sqs (s : State) (g : Nat) (x : GalVol) : (setGv s g x).sqs = s.sqs := (rfl)
@[simp ↓] theorem setGv_cqs (s : State) (g : Nat) (x : GalVol) : (setGv s g x).cqs = s.cqs := (rfl)
@[simp ↓] theorem setGv_reads (s : State) (g : Nat) (x : GalVol) : (setGv s g x).reads = s.reads := (rfl)
@[simp ↓] theorem setGv_nextRid (s : State) (g : Nat) (x : GalVol) : (setGv s g x).nextRid = s.nextRid := (rfl)
@[simp ↓] theorem setGv_jobs (s : State) (g : Nat) (x : GalVol) : (setGv s g x).jobs = s.jobs := (rfl)
@[simp ↓] theorem setGv_nextJob (s : State) (g : Nat) (x : GalVol) : (setGv s g x).nextJob = s.nextJob := (rfl)
@[simp ↓] theorem setGv_adm (s : State) (g : Nat) (x : GalVol) : (setGv s g x).adm = s.adm := (rfl)
@[simp ↓] theorem setGv_nextSeq (s : State) (g : Nat) (x : GalVol) : (setGv s g x).nextSeq = s.nextSeq := (rfl)
@[simp ↓] theorem setGv_lanes (s : State) (g : Nat) (x : GalVol) : (setGv s g x).lanes = s.lanes := (rfl)
@[simp ↓] theorem setGv_cup (s : State) (g : Nat) (x : GalVol) : (setGv s g x).cup = s.cup := (rfl)
@[simp ↓] theorem setGv_srm (s : State) (g : Nat) (x : GalVol) : (setGv s g x).srm = s.srm := (rfl)
@[simp ↓] theorem setGv_cus (s : State) (g : Nat) (x : GalVol) : (setGv s g x).cus = s.cus := (rfl)
@[simp ↓] theorem setGv_arc (s : State) (g : Nat) (x : GalVol) : (setGv s g x).arc = s.arc := (rfl)
@[simp ↓] theorem setGv_lcs (s : State) (g : Nat) (x : GalVol) : (setGv s g x).lcs = s.lcs := (rfl)
@[simp ↓] theorem setGv_wld (s : State) (g : Nat) (x : GalVol) : (setGv s g x).wld = s.wld := (rfl)
@[simp ↓] theorem setGv_lcu (s : State) (g : Nat) (x : GalVol) : (setGv s g x).lcu = s.lcu := (rfl)
@[simp ↓] theorem setGv_cores (s : State) (g : Nat) (x : GalVol) : (setGv s g x).cores = s.cores := (rfl)
@[simp ↓] theorem setGv_rng (s : State) (g : Nat) (x : GalVol) : (setGv s g x).rng = s.rng := (rfl)
@[simp ↓] theorem setGv_flt (s : State) (g : Nat) (x : GalVol) : (setGv s g x).flt = s.flt := (rfl)
@[simp ↓] theorem setGv_tmp (s : State) (g : Nat) (x : GalVol) : (setGv s g x).tmp = s.tmp := (rfl)
@[simp ↓] theorem setGv_rcd (s : State) (g : Nat) (x : GalVol) : (setGv s g x).rcd = s.rcd := (rfl)
@[simp ↓] theorem setGv_spn (s : State) (g : Nat) (x : GalVol) : (setGv s g x).spn = s.spn := (rfl)
@[simp ↓] theorem setGv_chn (s : State) (g : Nat) (x : GalVol) : (setGv s g x).chn = s.chn := (rfl)
@[simp ↓] theorem setGv_hst (s : State) (g : Nat) (x : GalVol) : (setGv s g x).hst = s.hst := (rfl)
@[simp ↓] theorem setGv_mem (s : State) (g : Nat) (x : GalVol) : (setGv s g x).mem = s.mem := (rfl)

/-! `updGv` -/
@[simp ↓] theorem updGv_pending (s : State) (g : Nat) (f : GalVol → GalVol) : (updGv s g f).pending = s.pending := (rfl)
@[simp ↓] theorem updGv_freeCtr (s : State) (g : Nat) (f : GalVol → GalVol) : (updGv s g f).freeCtr = s.freeCtr := (rfl)
@[simp ↓] theorem updGv_response (s : State) (g : Nat) (f : GalVol → GalVol) : (updGv s g f).response = s.response := (rfl)
@[simp ↓] theorem updGv_out (s : State) (g : Nat) (f : GalVol → GalVol) : (updGv s g f).out = s.out := (rfl)
@[simp ↓] theorem updGv_atr (s : State) (g : Nat) (f : GalVol → GalVol) : (updGv s g f).atr = s.atr := (rfl)
@[simp ↓] theorem updGv_gen (s : State) (g : Nat) (f : GalVol → GalVol) : (updGv s g f).gen = s.gen := (rfl)
@[simp ↓] theorem updGv_pwr (s : State) (g : Nat) (f : GalVol → GalVol) : (updGv s g f).pwr = s.pwr := (rfl)
@[simp ↓] theorem updGv_mld (s : State) (g : Nat) (f : GalVol → GalVol) : (updGv s g f).mld = s.mld := (rfl)
@[simp ↓] theorem updGv_gals (s : State) (g : Nat) (f : GalVol → GalVol) : (updGv s g f).gals = s.gals := (rfl)
@[simp ↓] theorem updGv_mbxSel (s : State) (g : Nat) (f : GalVol → GalVol) : (updGv s g f).mbxSel = s.mbxSel := (rfl)
@[simp ↓] theorem updGv_mbxPending (s : State) (g : Nat) (f : GalVol → GalVol) : (updGv s g f).mbxPending = s.mbxPending := (rfl)
@[simp ↓] theorem updGv_mbxAcked (s : State) (g : Nat) (f : GalVol → GalVol) : (updGv s g f).mbxAcked = s.mbxAcked := (rfl)
@[simp ↓] theorem updGv_sqs (s : State) (g : Nat) (f : GalVol → GalVol) : (updGv s g f).sqs = s.sqs := (rfl)
@[simp ↓] theorem updGv_cqs (s : State) (g : Nat) (f : GalVol → GalVol) : (updGv s g f).cqs = s.cqs := (rfl)
@[simp ↓] theorem updGv_reads (s : State) (g : Nat) (f : GalVol → GalVol) : (updGv s g f).reads = s.reads := (rfl)
@[simp ↓] theorem updGv_nextRid (s : State) (g : Nat) (f : GalVol → GalVol) : (updGv s g f).nextRid = s.nextRid := (rfl)
@[simp ↓] theorem updGv_jobs (s : State) (g : Nat) (f : GalVol → GalVol) : (updGv s g f).jobs = s.jobs := (rfl)
@[simp ↓] theorem updGv_nextJob (s : State) (g : Nat) (f : GalVol → GalVol) : (updGv s g f).nextJob = s.nextJob := (rfl)
@[simp ↓] theorem updGv_adm (s : State) (g : Nat) (f : GalVol → GalVol) : (updGv s g f).adm = s.adm := (rfl)
@[simp ↓] theorem updGv_nextSeq (s : State) (g : Nat) (f : GalVol → GalVol) : (updGv s g f).nextSeq = s.nextSeq := (rfl)
@[simp ↓] theorem updGv_lanes (s : State) (g : Nat) (f : GalVol → GalVol) : (updGv s g f).lanes = s.lanes := (rfl)
@[simp ↓] theorem updGv_cup (s : State) (g : Nat) (f : GalVol → GalVol) : (updGv s g f).cup = s.cup := (rfl)
@[simp ↓] theorem updGv_srm (s : State) (g : Nat) (f : GalVol → GalVol) : (updGv s g f).srm = s.srm := (rfl)
@[simp ↓] theorem updGv_cus (s : State) (g : Nat) (f : GalVol → GalVol) : (updGv s g f).cus = s.cus := (rfl)
@[simp ↓] theorem updGv_arc (s : State) (g : Nat) (f : GalVol → GalVol) : (updGv s g f).arc = s.arc := (rfl)
@[simp ↓] theorem updGv_lcs (s : State) (g : Nat) (f : GalVol → GalVol) : (updGv s g f).lcs = s.lcs := (rfl)
@[simp ↓] theorem updGv_wld (s : State) (g : Nat) (f : GalVol → GalVol) : (updGv s g f).wld = s.wld := (rfl)
@[simp ↓] theorem updGv_lcu (s : State) (g : Nat) (f : GalVol → GalVol) : (updGv s g f).lcu = s.lcu := (rfl)
@[simp ↓] theorem updGv_cores (s : State) (g : Nat) (f : GalVol → GalVol) : (updGv s g f).cores = s.cores := (rfl)
@[simp ↓] theorem updGv_rng (s : State) (g : Nat) (f : GalVol → GalVol) : (updGv s g f).rng = s.rng := (rfl)
@[simp ↓] theorem updGv_flt (s : State) (g : Nat) (f : GalVol → GalVol) : (updGv s g f).flt = s.flt := (rfl)
@[simp ↓] theorem updGv_tmp (s : State) (g : Nat) (f : GalVol → GalVol) : (updGv s g f).tmp = s.tmp := (rfl)
@[simp ↓] theorem updGv_rcd (s : State) (g : Nat) (f : GalVol → GalVol) : (updGv s g f).rcd = s.rcd := (rfl)
@[simp ↓] theorem updGv_spn (s : State) (g : Nat) (f : GalVol → GalVol) : (updGv s g f).spn = s.spn := (rfl)
@[simp ↓] theorem updGv_chn (s : State) (g : Nat) (f : GalVol → GalVol) : (updGv s g f).chn = s.chn := (rfl)
@[simp ↓] theorem updGv_hst (s : State) (g : Nat) (f : GalVol → GalVol) : (updGv s g f).hst = s.hst := (rfl)
@[simp ↓] theorem updGv_mem (s : State) (g : Nat) (f : GalVol → GalVol) : (updGv s g f).mem = s.mem := (rfl)

/-! `setSq` -/
@[simp ↓] theorem setSq_pending (s : State) (k : Nat) (x : Sq) : (setSq s k x).pending = s.pending := (rfl)
@[simp ↓] theorem setSq_freeCtr (s : State) (k : Nat) (x : Sq) : (setSq s k x).freeCtr = s.freeCtr := (rfl)
@[simp ↓] theorem setSq_response (s : State) (k : Nat) (x : Sq) : (setSq s k x).response = s.response := (rfl)
@[simp ↓] theorem setSq_out (s : State) (k : Nat) (x : Sq) : (setSq s k x).out = s.out := (rfl)
@[simp ↓] theorem setSq_atr (s : State) (k : Nat) (x : Sq) : (setSq s k x).atr = s.atr := (rfl)
@[simp ↓] theorem setSq_gen (s : State) (k : Nat) (x : Sq) : (setSq s k x).gen = s.gen := (rfl)
@[simp ↓] theorem setSq_pwr (s : State) (k : Nat) (x : Sq) : (setSq s k x).pwr = s.pwr := (rfl)
@[simp ↓] theorem setSq_mld (s : State) (k : Nat) (x : Sq) : (setSq s k x).mld = s.mld := (rfl)
@[simp ↓] theorem setSq_gals (s : State) (k : Nat) (x : Sq) : (setSq s k x).gals = s.gals := (rfl)
@[simp ↓] theorem setSq_galv (s : State) (k : Nat) (x : Sq) : (setSq s k x).galv = s.galv := (rfl)
@[simp ↓] theorem setSq_mbxSel (s : State) (k : Nat) (x : Sq) : (setSq s k x).mbxSel = s.mbxSel := (rfl)
@[simp ↓] theorem setSq_mbxPending (s : State) (k : Nat) (x : Sq) : (setSq s k x).mbxPending = s.mbxPending := (rfl)
@[simp ↓] theorem setSq_mbxAcked (s : State) (k : Nat) (x : Sq) : (setSq s k x).mbxAcked = s.mbxAcked := (rfl)
@[simp ↓] theorem setSq_sqs (s : State) (k : Nat) (x : Sq) : (setSq s k x).sqs = s.sqs.put {} k x := (rfl)
@[simp ↓] theorem setSq_cqs (s : State) (k : Nat) (x : Sq) : (setSq s k x).cqs = s.cqs := (rfl)
@[simp ↓] theorem setSq_reads (s : State) (k : Nat) (x : Sq) : (setSq s k x).reads = s.reads := (rfl)
@[simp ↓] theorem setSq_nextRid (s : State) (k : Nat) (x : Sq) : (setSq s k x).nextRid = s.nextRid := (rfl)
@[simp ↓] theorem setSq_jobs (s : State) (k : Nat) (x : Sq) : (setSq s k x).jobs = s.jobs := (rfl)
@[simp ↓] theorem setSq_nextJob (s : State) (k : Nat) (x : Sq) : (setSq s k x).nextJob = s.nextJob := (rfl)
@[simp ↓] theorem setSq_adm (s : State) (k : Nat) (x : Sq) : (setSq s k x).adm = s.adm := (rfl)
@[simp ↓] theorem setSq_nextSeq (s : State) (k : Nat) (x : Sq) : (setSq s k x).nextSeq = s.nextSeq := (rfl)
@[simp ↓] theorem setSq_lanes (s : State) (k : Nat) (x : Sq) : (setSq s k x).lanes = s.lanes := (rfl)
@[simp ↓] theorem setSq_cup (s : State) (k : Nat) (x : Sq) : (setSq s k x).cup = s.cup := (rfl)
@[simp ↓] theorem setSq_srm (s : State) (k : Nat) (x : Sq) : (setSq s k x).srm = s.srm := (rfl)
@[simp ↓] theorem setSq_cus (s : State) (k : Nat) (x : Sq) : (setSq s k x).cus = s.cus := (rfl)
@[simp ↓] theorem setSq_arc (s : State) (k : Nat) (x : Sq) : (setSq s k x).arc = s.arc := (rfl)
@[simp ↓] theorem setSq_lcs (s : State) (k : Nat) (x : Sq) : (setSq s k x).lcs = s.lcs := (rfl)
@[simp ↓] theorem setSq_wld (s : State) (k : Nat) (x : Sq) : (setSq s k x).wld = s.wld := (rfl)
@[simp ↓] theorem setSq_lcu (s : State) (k : Nat) (x : Sq) : (setSq s k x).lcu = s.lcu := (rfl)
@[simp ↓] theorem setSq_cores (s : State) (k : Nat) (x : Sq) : (setSq s k x).cores = s.cores := (rfl)
@[simp ↓] theorem setSq_rng (s : State) (k : Nat) (x : Sq) : (setSq s k x).rng = s.rng := (rfl)
@[simp ↓] theorem setSq_flt (s : State) (k : Nat) (x : Sq) : (setSq s k x).flt = s.flt := (rfl)
@[simp ↓] theorem setSq_tmp (s : State) (k : Nat) (x : Sq) : (setSq s k x).tmp = s.tmp := (rfl)
@[simp ↓] theorem setSq_rcd (s : State) (k : Nat) (x : Sq) : (setSq s k x).rcd = s.rcd := (rfl)
@[simp ↓] theorem setSq_spn (s : State) (k : Nat) (x : Sq) : (setSq s k x).spn = s.spn := (rfl)
@[simp ↓] theorem setSq_chn (s : State) (k : Nat) (x : Sq) : (setSq s k x).chn = s.chn := (rfl)
@[simp ↓] theorem setSq_hst (s : State) (k : Nat) (x : Sq) : (setSq s k x).hst = s.hst := (rfl)
@[simp ↓] theorem setSq_mem (s : State) (k : Nat) (x : Sq) : (setSq s k x).mem = s.mem := (rfl)

/-! `updSq` -/
@[simp ↓] theorem updSq_pending (s : State) (k : Nat) (f : Sq → Sq) : (updSq s k f).pending = s.pending := (rfl)
@[simp ↓] theorem updSq_freeCtr (s : State) (k : Nat) (f : Sq → Sq) : (updSq s k f).freeCtr = s.freeCtr := (rfl)
@[simp ↓] theorem updSq_response (s : State) (k : Nat) (f : Sq → Sq) : (updSq s k f).response = s.response := (rfl)
@[simp ↓] theorem updSq_out (s : State) (k : Nat) (f : Sq → Sq) : (updSq s k f).out = s.out := (rfl)
@[simp ↓] theorem updSq_atr (s : State) (k : Nat) (f : Sq → Sq) : (updSq s k f).atr = s.atr := (rfl)
@[simp ↓] theorem updSq_gen (s : State) (k : Nat) (f : Sq → Sq) : (updSq s k f).gen = s.gen := (rfl)
@[simp ↓] theorem updSq_pwr (s : State) (k : Nat) (f : Sq → Sq) : (updSq s k f).pwr = s.pwr := (rfl)
@[simp ↓] theorem updSq_mld (s : State) (k : Nat) (f : Sq → Sq) : (updSq s k f).mld = s.mld := (rfl)
@[simp ↓] theorem updSq_gals (s : State) (k : Nat) (f : Sq → Sq) : (updSq s k f).gals = s.gals := (rfl)
@[simp ↓] theorem updSq_galv (s : State) (k : Nat) (f : Sq → Sq) : (updSq s k f).galv = s.galv := (rfl)
@[simp ↓] theorem updSq_mbxSel (s : State) (k : Nat) (f : Sq → Sq) : (updSq s k f).mbxSel = s.mbxSel := (rfl)
@[simp ↓] theorem updSq_mbxPending (s : State) (k : Nat) (f : Sq → Sq) : (updSq s k f).mbxPending = s.mbxPending := (rfl)
@[simp ↓] theorem updSq_mbxAcked (s : State) (k : Nat) (f : Sq → Sq) : (updSq s k f).mbxAcked = s.mbxAcked := (rfl)
@[simp ↓] theorem updSq_cqs (s : State) (k : Nat) (f : Sq → Sq) : (updSq s k f).cqs = s.cqs := (rfl)
@[simp ↓] theorem updSq_reads (s : State) (k : Nat) (f : Sq → Sq) : (updSq s k f).reads = s.reads := (rfl)
@[simp ↓] theorem updSq_nextRid (s : State) (k : Nat) (f : Sq → Sq) : (updSq s k f).nextRid = s.nextRid := (rfl)
@[simp ↓] theorem updSq_jobs (s : State) (k : Nat) (f : Sq → Sq) : (updSq s k f).jobs = s.jobs := (rfl)
@[simp ↓] theorem updSq_nextJob (s : State) (k : Nat) (f : Sq → Sq) : (updSq s k f).nextJob = s.nextJob := (rfl)
@[simp ↓] theorem updSq_adm (s : State) (k : Nat) (f : Sq → Sq) : (updSq s k f).adm = s.adm := (rfl)
@[simp ↓] theorem updSq_nextSeq (s : State) (k : Nat) (f : Sq → Sq) : (updSq s k f).nextSeq = s.nextSeq := (rfl)
@[simp ↓] theorem updSq_lanes (s : State) (k : Nat) (f : Sq → Sq) : (updSq s k f).lanes = s.lanes := (rfl)
@[simp ↓] theorem updSq_cup (s : State) (k : Nat) (f : Sq → Sq) : (updSq s k f).cup = s.cup := (rfl)
@[simp ↓] theorem updSq_srm (s : State) (k : Nat) (f : Sq → Sq) : (updSq s k f).srm = s.srm := (rfl)
@[simp ↓] theorem updSq_cus (s : State) (k : Nat) (f : Sq → Sq) : (updSq s k f).cus = s.cus := (rfl)
@[simp ↓] theorem updSq_arc (s : State) (k : Nat) (f : Sq → Sq) : (updSq s k f).arc = s.arc := (rfl)
@[simp ↓] theorem updSq_lcs (s : State) (k : Nat) (f : Sq → Sq) : (updSq s k f).lcs = s.lcs := (rfl)
@[simp ↓] theorem updSq_wld (s : State) (k : Nat) (f : Sq → Sq) : (updSq s k f).wld = s.wld := (rfl)
@[simp ↓] theorem updSq_lcu (s : State) (k : Nat) (f : Sq → Sq) : (updSq s k f).lcu = s.lcu := (rfl)
@[simp ↓] theorem updSq_cores (s : State) (k : Nat) (f : Sq → Sq) : (updSq s k f).cores = s.cores := (rfl)
@[simp ↓] theorem updSq_rng (s : State) (k : Nat) (f : Sq → Sq) : (updSq s k f).rng = s.rng := (rfl)
@[simp ↓] theorem updSq_flt (s : State) (k : Nat) (f : Sq → Sq) : (updSq s k f).flt = s.flt := (rfl)
@[simp ↓] theorem updSq_tmp (s : State) (k : Nat) (f : Sq → Sq) : (updSq s k f).tmp = s.tmp := (rfl)
@[simp ↓] theorem updSq_rcd (s : State) (k : Nat) (f : Sq → Sq) : (updSq s k f).rcd = s.rcd := (rfl)
@[simp ↓] theorem updSq_spn (s : State) (k : Nat) (f : Sq → Sq) : (updSq s k f).spn = s.spn := (rfl)
@[simp ↓] theorem updSq_chn (s : State) (k : Nat) (f : Sq → Sq) : (updSq s k f).chn = s.chn := (rfl)
@[simp ↓] theorem updSq_hst (s : State) (k : Nat) (f : Sq → Sq) : (updSq s k f).hst = s.hst := (rfl)
@[simp ↓] theorem updSq_mem (s : State) (k : Nat) (f : Sq → Sq) : (updSq s k f).mem = s.mem := (rfl)

/-! `setCq` -/
@[simp ↓] theorem setCq_pending (s : State) (k : Nat) (x : Cq) : (setCq s k x).pending = s.pending := (rfl)
@[simp ↓] theorem setCq_freeCtr (s : State) (k : Nat) (x : Cq) : (setCq s k x).freeCtr = s.freeCtr := (rfl)
@[simp ↓] theorem setCq_response (s : State) (k : Nat) (x : Cq) : (setCq s k x).response = s.response := (rfl)
@[simp ↓] theorem setCq_out (s : State) (k : Nat) (x : Cq) : (setCq s k x).out = s.out := (rfl)
@[simp ↓] theorem setCq_atr (s : State) (k : Nat) (x : Cq) : (setCq s k x).atr = s.atr := (rfl)
@[simp ↓] theorem setCq_gen (s : State) (k : Nat) (x : Cq) : (setCq s k x).gen = s.gen := (rfl)
@[simp ↓] theorem setCq_pwr (s : State) (k : Nat) (x : Cq) : (setCq s k x).pwr = s.pwr := (rfl)
@[simp ↓] theorem setCq_mld (s : State) (k : Nat) (x : Cq) : (setCq s k x).mld = s.mld := (rfl)
@[simp ↓] theorem setCq_gals (s : State) (k : Nat) (x : Cq) : (setCq s k x).gals = s.gals := (rfl)
@[simp ↓] theorem setCq_galv (s : State) (k : Nat) (x : Cq) : (setCq s k x).galv = s.galv := (rfl)
@[simp ↓] theorem setCq_mbxSel (s : State) (k : Nat) (x : Cq) : (setCq s k x).mbxSel = s.mbxSel := (rfl)
@[simp ↓] theorem setCq_mbxPending (s : State) (k : Nat) (x : Cq) : (setCq s k x).mbxPending = s.mbxPending := (rfl)
@[simp ↓] theorem setCq_mbxAcked (s : State) (k : Nat) (x : Cq) : (setCq s k x).mbxAcked = s.mbxAcked := (rfl)
@[simp ↓] theorem setCq_sqs (s : State) (k : Nat) (x : Cq) : (setCq s k x).sqs = s.sqs := (rfl)
@[simp ↓] theorem setCq_cqs (s : State) (k : Nat) (x : Cq) : (setCq s k x).cqs = s.cqs.put {} k x := (rfl)
@[simp ↓] theorem setCq_reads (s : State) (k : Nat) (x : Cq) : (setCq s k x).reads = s.reads := (rfl)
@[simp ↓] theorem setCq_nextRid (s : State) (k : Nat) (x : Cq) : (setCq s k x).nextRid = s.nextRid := (rfl)
@[simp ↓] theorem setCq_jobs (s : State) (k : Nat) (x : Cq) : (setCq s k x).jobs = s.jobs := (rfl)
@[simp ↓] theorem setCq_nextJob (s : State) (k : Nat) (x : Cq) : (setCq s k x).nextJob = s.nextJob := (rfl)
@[simp ↓] theorem setCq_adm (s : State) (k : Nat) (x : Cq) : (setCq s k x).adm = s.adm := (rfl)
@[simp ↓] theorem setCq_nextSeq (s : State) (k : Nat) (x : Cq) : (setCq s k x).nextSeq = s.nextSeq := (rfl)
@[simp ↓] theorem setCq_lanes (s : State) (k : Nat) (x : Cq) : (setCq s k x).lanes = s.lanes := (rfl)
@[simp ↓] theorem setCq_cup (s : State) (k : Nat) (x : Cq) : (setCq s k x).cup = s.cup := (rfl)
@[simp ↓] theorem setCq_srm (s : State) (k : Nat) (x : Cq) : (setCq s k x).srm = s.srm := (rfl)
@[simp ↓] theorem setCq_cus (s : State) (k : Nat) (x : Cq) : (setCq s k x).cus = s.cus := (rfl)
@[simp ↓] theorem setCq_arc (s : State) (k : Nat) (x : Cq) : (setCq s k x).arc = s.arc := (rfl)
@[simp ↓] theorem setCq_lcs (s : State) (k : Nat) (x : Cq) : (setCq s k x).lcs = s.lcs := (rfl)
@[simp ↓] theorem setCq_wld (s : State) (k : Nat) (x : Cq) : (setCq s k x).wld = s.wld := (rfl)
@[simp ↓] theorem setCq_lcu (s : State) (k : Nat) (x : Cq) : (setCq s k x).lcu = s.lcu := (rfl)
@[simp ↓] theorem setCq_cores (s : State) (k : Nat) (x : Cq) : (setCq s k x).cores = s.cores := (rfl)
@[simp ↓] theorem setCq_rng (s : State) (k : Nat) (x : Cq) : (setCq s k x).rng = s.rng := (rfl)
@[simp ↓] theorem setCq_flt (s : State) (k : Nat) (x : Cq) : (setCq s k x).flt = s.flt := (rfl)
@[simp ↓] theorem setCq_tmp (s : State) (k : Nat) (x : Cq) : (setCq s k x).tmp = s.tmp := (rfl)
@[simp ↓] theorem setCq_rcd (s : State) (k : Nat) (x : Cq) : (setCq s k x).rcd = s.rcd := (rfl)
@[simp ↓] theorem setCq_spn (s : State) (k : Nat) (x : Cq) : (setCq s k x).spn = s.spn := (rfl)
@[simp ↓] theorem setCq_chn (s : State) (k : Nat) (x : Cq) : (setCq s k x).chn = s.chn := (rfl)
@[simp ↓] theorem setCq_hst (s : State) (k : Nat) (x : Cq) : (setCq s k x).hst = s.hst := (rfl)
@[simp ↓] theorem setCq_mem (s : State) (k : Nat) (x : Cq) : (setCq s k x).mem = s.mem := (rfl)

/-! `updCq` -/
@[simp ↓] theorem updCq_pending (s : State) (k : Nat) (f : Cq → Cq) : (updCq s k f).pending = s.pending := (rfl)
@[simp ↓] theorem updCq_freeCtr (s : State) (k : Nat) (f : Cq → Cq) : (updCq s k f).freeCtr = s.freeCtr := (rfl)
@[simp ↓] theorem updCq_response (s : State) (k : Nat) (f : Cq → Cq) : (updCq s k f).response = s.response := (rfl)
@[simp ↓] theorem updCq_out (s : State) (k : Nat) (f : Cq → Cq) : (updCq s k f).out = s.out := (rfl)
@[simp ↓] theorem updCq_atr (s : State) (k : Nat) (f : Cq → Cq) : (updCq s k f).atr = s.atr := (rfl)
@[simp ↓] theorem updCq_gen (s : State) (k : Nat) (f : Cq → Cq) : (updCq s k f).gen = s.gen := (rfl)
@[simp ↓] theorem updCq_pwr (s : State) (k : Nat) (f : Cq → Cq) : (updCq s k f).pwr = s.pwr := (rfl)
@[simp ↓] theorem updCq_mld (s : State) (k : Nat) (f : Cq → Cq) : (updCq s k f).mld = s.mld := (rfl)
@[simp ↓] theorem updCq_gals (s : State) (k : Nat) (f : Cq → Cq) : (updCq s k f).gals = s.gals := (rfl)
@[simp ↓] theorem updCq_galv (s : State) (k : Nat) (f : Cq → Cq) : (updCq s k f).galv = s.galv := (rfl)
@[simp ↓] theorem updCq_mbxSel (s : State) (k : Nat) (f : Cq → Cq) : (updCq s k f).mbxSel = s.mbxSel := (rfl)
@[simp ↓] theorem updCq_mbxPending (s : State) (k : Nat) (f : Cq → Cq) : (updCq s k f).mbxPending = s.mbxPending := (rfl)
@[simp ↓] theorem updCq_mbxAcked (s : State) (k : Nat) (f : Cq → Cq) : (updCq s k f).mbxAcked = s.mbxAcked := (rfl)
@[simp ↓] theorem updCq_sqs (s : State) (k : Nat) (f : Cq → Cq) : (updCq s k f).sqs = s.sqs := (rfl)
@[simp ↓] theorem updCq_reads (s : State) (k : Nat) (f : Cq → Cq) : (updCq s k f).reads = s.reads := (rfl)
@[simp ↓] theorem updCq_nextRid (s : State) (k : Nat) (f : Cq → Cq) : (updCq s k f).nextRid = s.nextRid := (rfl)
@[simp ↓] theorem updCq_jobs (s : State) (k : Nat) (f : Cq → Cq) : (updCq s k f).jobs = s.jobs := (rfl)
@[simp ↓] theorem updCq_nextJob (s : State) (k : Nat) (f : Cq → Cq) : (updCq s k f).nextJob = s.nextJob := (rfl)
@[simp ↓] theorem updCq_adm (s : State) (k : Nat) (f : Cq → Cq) : (updCq s k f).adm = s.adm := (rfl)
@[simp ↓] theorem updCq_nextSeq (s : State) (k : Nat) (f : Cq → Cq) : (updCq s k f).nextSeq = s.nextSeq := (rfl)
@[simp ↓] theorem updCq_lanes (s : State) (k : Nat) (f : Cq → Cq) : (updCq s k f).lanes = s.lanes := (rfl)
@[simp ↓] theorem updCq_cup (s : State) (k : Nat) (f : Cq → Cq) : (updCq s k f).cup = s.cup := (rfl)
@[simp ↓] theorem updCq_srm (s : State) (k : Nat) (f : Cq → Cq) : (updCq s k f).srm = s.srm := (rfl)
@[simp ↓] theorem updCq_cus (s : State) (k : Nat) (f : Cq → Cq) : (updCq s k f).cus = s.cus := (rfl)
@[simp ↓] theorem updCq_arc (s : State) (k : Nat) (f : Cq → Cq) : (updCq s k f).arc = s.arc := (rfl)
@[simp ↓] theorem updCq_lcs (s : State) (k : Nat) (f : Cq → Cq) : (updCq s k f).lcs = s.lcs := (rfl)
@[simp ↓] theorem updCq_wld (s : State) (k : Nat) (f : Cq → Cq) : (updCq s k f).wld = s.wld := (rfl)
@[simp ↓] theorem updCq_lcu (s : State) (k : Nat) (f : Cq → Cq) : (updCq s k f).lcu = s.lcu := (rfl)
@[simp ↓] theorem updCq_cores (s : State) (k : Nat) (f : Cq → Cq) : (updCq s k f).cores = s.cores := (rfl)
@[simp ↓] theorem updCq_rng (s : State) (k : Nat) (f : Cq → Cq) : (updCq s k f).rng = s.rng := (rfl)
@[simp ↓] theorem updCq_flt (s : State) (k : Nat) (f : Cq → Cq) : (updCq s k f).flt = s.flt := (rfl)
@[simp ↓] theorem updCq_tmp (s : State) (k : Nat) (f : Cq → Cq) : (updCq s k f).tmp = s.tmp := (rfl)
@[simp ↓] theorem updCq_rcd (s : State) (k : Nat) (f : Cq → Cq) : (updCq s k f).rcd = s.rcd := (rfl)
@[simp ↓] theorem updCq_spn (s : State) (k : Nat) (f : Cq → Cq) : (updCq s k f).spn = s.spn := (rfl)
@[simp ↓] theorem updCq_chn (s : State) (k : Nat) (f : Cq → Cq) : (updCq s k f).chn = s.chn := (rfl)
@[simp ↓] theorem updCq_hst (s : State) (k : Nat) (f : Cq → Cq) : (updCq s k f).hst = s.hst := (rfl)
@[simp ↓] theorem updCq_mem (s : State) (k : Nat) (f : Cq → Cq) : (updCq s k f).mem = s.mem := (rfl)

/-! `updJob` -/
@[simp ↓] theorem updJob_pending (s : State) (id : Nat) (f : Job → Job) : (updJob s id f).pending = s.pending := (rfl)
@[simp ↓] theorem updJob_freeCtr (s : State) (id : Nat) (f : Job → Job) : (updJob s id f).freeCtr = s.freeCtr := (rfl)
@[simp ↓] theorem updJob_response (s : State) (id : Nat) (f : Job → Job) : (updJob s id f).response = s.response := (rfl)
@[simp ↓] theorem updJob_out (s : State) (id : Nat) (f : Job → Job) : (updJob s id f).out = s.out := (rfl)
@[simp ↓] theorem updJob_atr (s : State) (id : Nat) (f : Job → Job) : (updJob s id f).atr = s.atr := (rfl)
@[simp ↓] theorem updJob_gen (s : State) (id : Nat) (f : Job → Job) : (updJob s id f).gen = s.gen := (rfl)
@[simp ↓] theorem updJob_pwr (s : State) (id : Nat) (f : Job → Job) : (updJob s id f).pwr = s.pwr := (rfl)
@[simp ↓] theorem updJob_mld (s : State) (id : Nat) (f : Job → Job) : (updJob s id f).mld = s.mld := (rfl)
@[simp ↓] theorem updJob_gals (s : State) (id : Nat) (f : Job → Job) : (updJob s id f).gals = s.gals := (rfl)
@[simp ↓] theorem updJob_galv (s : State) (id : Nat) (f : Job → Job) : (updJob s id f).galv = s.galv := (rfl)
@[simp ↓] theorem updJob_mbxSel (s : State) (id : Nat) (f : Job → Job) : (updJob s id f).mbxSel = s.mbxSel := (rfl)
@[simp ↓] theorem updJob_mbxPending (s : State) (id : Nat) (f : Job → Job) : (updJob s id f).mbxPending = s.mbxPending := (rfl)
@[simp ↓] theorem updJob_mbxAcked (s : State) (id : Nat) (f : Job → Job) : (updJob s id f).mbxAcked = s.mbxAcked := (rfl)
@[simp ↓] theorem updJob_sqs (s : State) (id : Nat) (f : Job → Job) : (updJob s id f).sqs = s.sqs := (rfl)
@[simp ↓] theorem updJob_cqs (s : State) (id : Nat) (f : Job → Job) : (updJob s id f).cqs = s.cqs := (rfl)
@[simp ↓] theorem updJob_reads (s : State) (id : Nat) (f : Job → Job) : (updJob s id f).reads = s.reads := (rfl)
@[simp ↓] theorem updJob_nextRid (s : State) (id : Nat) (f : Job → Job) : (updJob s id f).nextRid = s.nextRid := (rfl)
@[simp ↓] theorem updJob_nextJob (s : State) (id : Nat) (f : Job → Job) : (updJob s id f).nextJob = s.nextJob := (rfl)
@[simp ↓] theorem updJob_adm (s : State) (id : Nat) (f : Job → Job) : (updJob s id f).adm = s.adm := (rfl)
@[simp ↓] theorem updJob_nextSeq (s : State) (id : Nat) (f : Job → Job) : (updJob s id f).nextSeq = s.nextSeq := (rfl)
@[simp ↓] theorem updJob_lanes (s : State) (id : Nat) (f : Job → Job) : (updJob s id f).lanes = s.lanes := (rfl)
@[simp ↓] theorem updJob_cup (s : State) (id : Nat) (f : Job → Job) : (updJob s id f).cup = s.cup := (rfl)
@[simp ↓] theorem updJob_srm (s : State) (id : Nat) (f : Job → Job) : (updJob s id f).srm = s.srm := (rfl)
@[simp ↓] theorem updJob_cus (s : State) (id : Nat) (f : Job → Job) : (updJob s id f).cus = s.cus := (rfl)
@[simp ↓] theorem updJob_arc (s : State) (id : Nat) (f : Job → Job) : (updJob s id f).arc = s.arc := (rfl)
@[simp ↓] theorem updJob_lcs (s : State) (id : Nat) (f : Job → Job) : (updJob s id f).lcs = s.lcs := (rfl)
@[simp ↓] theorem updJob_wld (s : State) (id : Nat) (f : Job → Job) : (updJob s id f).wld = s.wld := (rfl)
@[simp ↓] theorem updJob_lcu (s : State) (id : Nat) (f : Job → Job) : (updJob s id f).lcu = s.lcu := (rfl)
@[simp ↓] theorem updJob_cores (s : State) (id : Nat) (f : Job → Job) : (updJob s id f).cores = s.cores := (rfl)
@[simp ↓] theorem updJob_rng (s : State) (id : Nat) (f : Job → Job) : (updJob s id f).rng = s.rng := (rfl)
@[simp ↓] theorem updJob_flt (s : State) (id : Nat) (f : Job → Job) : (updJob s id f).flt = s.flt := (rfl)
@[simp ↓] theorem updJob_tmp (s : State) (id : Nat) (f : Job → Job) : (updJob s id f).tmp = s.tmp := (rfl)
@[simp ↓] theorem updJob_rcd (s : State) (id : Nat) (f : Job → Job) : (updJob s id f).rcd = s.rcd := (rfl)
@[simp ↓] theorem updJob_spn (s : State) (id : Nat) (f : Job → Job) : (updJob s id f).spn = s.spn := (rfl)
@[simp ↓] theorem updJob_chn (s : State) (id : Nat) (f : Job → Job) : (updJob s id f).chn = s.chn := (rfl)
@[simp ↓] theorem updJob_hst (s : State) (id : Nat) (f : Job → Job) : (updJob s id f).hst = s.hst := (rfl)
@[simp ↓] theorem updJob_mem (s : State) (id : Nat) (f : Job → Job) : (updJob s id f).mem = s.mem := (rfl)

/-! `dropJob` -/
@[simp ↓] theorem dropJob_pending (s : State) (id : Nat) : (dropJob s id).pending = s.pending := (rfl)
@[simp ↓] theorem dropJob_freeCtr (s : State) (id : Nat) : (dropJob s id).freeCtr = s.freeCtr := (rfl)
@[simp ↓] theorem dropJob_response (s : State) (id : Nat) : (dropJob s id).response = s.response := (rfl)
@[simp ↓] theorem dropJob_out (s : State) (id : Nat) : (dropJob s id).out = s.out := (rfl)
@[simp ↓] theorem dropJob_atr (s : State) (id : Nat) : (dropJob s id).atr = s.atr := (rfl)
@[simp ↓] theorem dropJob_gen (s : State) (id : Nat) : (dropJob s id).gen = s.gen := (rfl)
@[simp ↓] theorem dropJob_pwr (s : State) (id : Nat) : (dropJob s id).pwr = s.pwr := (rfl)
@[simp ↓] theorem dropJob_mld (s : State) (id : Nat) : (dropJob s id).mld = s.mld := (rfl)
@[simp ↓] theorem dropJob_gals (s : State) (id : Nat) : (dropJob s id).gals = s.gals := (rfl)
@[simp ↓] theorem dropJob_galv (s : State) (id : Nat) : (dropJob s id).galv = s.galv := (rfl)
@[simp ↓] theorem dropJob_mbxSel (s : State) (id : Nat) : (dropJob s id).mbxSel = s.mbxSel := (rfl)
@[simp ↓] theorem dropJob_mbxPending (s : State) (id : Nat) : (dropJob s id).mbxPending = s.mbxPending := (rfl)
@[simp ↓] theorem dropJob_mbxAcked (s : State) (id : Nat) : (dropJob s id).mbxAcked = s.mbxAcked := (rfl)
@[simp ↓] theorem dropJob_sqs (s : State) (id : Nat) : (dropJob s id).sqs = s.sqs := (rfl)
@[simp ↓] theorem dropJob_cqs (s : State) (id : Nat) : (dropJob s id).cqs = s.cqs := (rfl)
@[simp ↓] theorem dropJob_reads (s : State) (id : Nat) : (dropJob s id).reads = s.reads := (rfl)
@[simp ↓] theorem dropJob_nextRid (s : State) (id : Nat) : (dropJob s id).nextRid = s.nextRid := (rfl)
@[simp ↓] theorem dropJob_nextJob (s : State) (id : Nat) : (dropJob s id).nextJob = s.nextJob := (rfl)
@[simp ↓] theorem dropJob_adm (s : State) (id : Nat) : (dropJob s id).adm = s.adm := (rfl)
@[simp ↓] theorem dropJob_nextSeq (s : State) (id : Nat) : (dropJob s id).nextSeq = s.nextSeq := (rfl)
@[simp ↓] theorem dropJob_lanes (s : State) (id : Nat) : (dropJob s id).lanes = s.lanes := (rfl)
@[simp ↓] theorem dropJob_cup (s : State) (id : Nat) : (dropJob s id).cup = s.cup := (rfl)
@[simp ↓] theorem dropJob_srm (s : State) (id : Nat) : (dropJob s id).srm = s.srm := (rfl)
@[simp ↓] theorem dropJob_cus (s : State) (id : Nat) : (dropJob s id).cus = s.cus := (rfl)
@[simp ↓] theorem dropJob_arc (s : State) (id : Nat) : (dropJob s id).arc = s.arc := (rfl)
@[simp ↓] theorem dropJob_lcs (s : State) (id : Nat) : (dropJob s id).lcs = s.lcs := (rfl)
@[simp ↓] theorem dropJob_wld (s : State) (id : Nat) : (dropJob s id).wld = s.wld := (rfl)
@[simp ↓] theorem dropJob_lcu (s : State) (id : Nat) : (dropJob s id).lcu = s.lcu := (rfl)
@[simp ↓] theorem dropJob_cores (s : State) (id : Nat) : (dropJob s id).cores = s.cores := (rfl)
@[simp ↓] theorem dropJob_rng (s : State) (id : Nat) : (dropJob s id).rng = s.rng := (rfl)
@[simp ↓] theorem dropJob_flt (s : State) (id : Nat) : (dropJob s id).flt = s.flt := (rfl)
@[simp ↓] theorem dropJob_tmp (s : State) (id : Nat) : (dropJob s id).tmp = s.tmp := (rfl)
@[simp ↓] theorem dropJob_rcd (s : State) (id : Nat) : (dropJob s id).rcd = s.rcd := (rfl)
@[simp ↓] theorem dropJob_spn (s : State) (id : Nat) : (dropJob s id).spn = s.spn := (rfl)
@[simp ↓] theorem dropJob_chn (s : State) (id : Nat) : (dropJob s id).chn = s.chn := (rfl)
@[simp ↓] theorem dropJob_hst (s : State) (id : Nat) : (dropJob s id).hst = s.hst := (rfl)
@[simp ↓] theorem dropJob_mem (s : State) (id : Nat) : (dropJob s id).mem = s.mem := (rfl)

/-! `updPort` -/
@[simp ↓] theorem updPort_pending (s : State) (p : Half) (f : Port → Port) : (updPort s p f).pending = s.pending := (rfl)
@[simp ↓] theorem updPort_freeCtr (s : State) (p : Half) (f : Port → Port) : (updPort s p f).freeCtr = s.freeCtr := (rfl)
@[simp ↓] theorem updPort_response (s : State) (p : Half) (f : Port → Port) : (updPort s p f).response = s.response := (rfl)
@[simp ↓] theorem updPort_out (s : State) (p : Half) (f : Port → Port) : (updPort s p f).out = s.out := (rfl)
@[simp ↓] theorem updPort_atr (s : State) (p : Half) (f : Port → Port) : (updPort s p f).atr = s.atr := (rfl)
@[simp ↓] theorem updPort_gen (s : State) (p : Half) (f : Port → Port) : (updPort s p f).gen = s.gen := (rfl)
@[simp ↓] theorem updPort_pwr (s : State) (p : Half) (f : Port → Port) : (updPort s p f).pwr = s.pwr := (rfl)
@[simp ↓] theorem updPort_mld (s : State) (p : Half) (f : Port → Port) : (updPort s p f).mld = s.mld := (rfl)
@[simp ↓] theorem updPort_gals (s : State) (p : Half) (f : Port → Port) : (updPort s p f).gals = s.gals := (rfl)
@[simp ↓] theorem updPort_galv (s : State) (p : Half) (f : Port → Port) : (updPort s p f).galv = s.galv := (rfl)
@[simp ↓] theorem updPort_mbxSel (s : State) (p : Half) (f : Port → Port) : (updPort s p f).mbxSel = s.mbxSel := (rfl)
@[simp ↓] theorem updPort_mbxPending (s : State) (p : Half) (f : Port → Port) : (updPort s p f).mbxPending = s.mbxPending := (rfl)
@[simp ↓] theorem updPort_mbxAcked (s : State) (p : Half) (f : Port → Port) : (updPort s p f).mbxAcked = s.mbxAcked := (rfl)
@[simp ↓] theorem updPort_sqs (s : State) (p : Half) (f : Port → Port) : (updPort s p f).sqs = s.sqs := (rfl)
@[simp ↓] theorem updPort_cqs (s : State) (p : Half) (f : Port → Port) : (updPort s p f).cqs = s.cqs := (rfl)
@[simp ↓] theorem updPort_reads (s : State) (p : Half) (f : Port → Port) : (updPort s p f).reads = s.reads := (rfl)
@[simp ↓] theorem updPort_nextRid (s : State) (p : Half) (f : Port → Port) : (updPort s p f).nextRid = s.nextRid := (rfl)
@[simp ↓] theorem updPort_jobs (s : State) (p : Half) (f : Port → Port) : (updPort s p f).jobs = s.jobs := (rfl)
@[simp ↓] theorem updPort_nextJob (s : State) (p : Half) (f : Port → Port) : (updPort s p f).nextJob = s.nextJob := (rfl)
@[simp ↓] theorem updPort_adm (s : State) (p : Half) (f : Port → Port) : (updPort s p f).adm = s.adm := (rfl)
@[simp ↓] theorem updPort_nextSeq (s : State) (p : Half) (f : Port → Port) : (updPort s p f).nextSeq = s.nextSeq := (rfl)
@[simp ↓] theorem updPort_lanes (s : State) (p : Half) (f : Port → Port) : (updPort s p f).lanes = s.lanes := (rfl)
@[simp ↓] theorem updPort_cup (s : State) (p : Half) (f : Port → Port) : (updPort s p f).cup = s.cup := (rfl)
@[simp ↓] theorem updPort_srm (s : State) (p : Half) (f : Port → Port) : (updPort s p f).srm = s.srm := (rfl)
@[simp ↓] theorem updPort_cus (s : State) (p : Half) (f : Port → Port) : (updPort s p f).cus = s.cus := (rfl)
@[simp ↓] theorem updPort_arc (s : State) (p : Half) (f : Port → Port) : (updPort s p f).arc = s.arc := (rfl)
@[simp ↓] theorem updPort_lcs (s : State) (p : Half) (f : Port → Port) : (updPort s p f).lcs = s.lcs := (rfl)
@[simp ↓] theorem updPort_wld (s : State) (p : Half) (f : Port → Port) : (updPort s p f).wld = s.wld := (rfl)
@[simp ↓] theorem updPort_lcu (s : State) (p : Half) (f : Port → Port) : (updPort s p f).lcu = s.lcu := (rfl)
@[simp ↓] theorem updPort_cores (s : State) (p : Half) (f : Port → Port) : (updPort s p f).cores = s.cores := (rfl)
@[simp ↓] theorem updPort_rng (s : State) (p : Half) (f : Port → Port) : (updPort s p f).rng = s.rng := (rfl)
@[simp ↓] theorem updPort_flt (s : State) (p : Half) (f : Port → Port) : (updPort s p f).flt = s.flt := (rfl)
@[simp ↓] theorem updPort_tmp (s : State) (p : Half) (f : Port → Port) : (updPort s p f).tmp = s.tmp := (rfl)
@[simp ↓] theorem updPort_rcd (s : State) (p : Half) (f : Port → Port) : (updPort s p f).rcd = s.rcd := (rfl)
@[simp ↓] theorem updPort_spn (s : State) (p : Half) (f : Port → Port) : (updPort s p f).spn = s.spn := (rfl)
@[simp ↓] theorem updPort_chn (s : State) (p : Half) (f : Port → Port) : (updPort s p f).chn = s.chn := (rfl)
@[simp ↓] theorem updPort_mem (s : State) (p : Half) (f : Port → Port) : (updPort s p f).mem = s.mem := (rfl)

/-! `updCore` -/
@[simp ↓] theorem updCore_pending (s : State) (c : Nat) (f : CoreSt → CoreSt) : (updCore s c f).pending = s.pending := (rfl)
@[simp ↓] theorem updCore_freeCtr (s : State) (c : Nat) (f : CoreSt → CoreSt) : (updCore s c f).freeCtr = s.freeCtr := (rfl)
@[simp ↓] theorem updCore_response (s : State) (c : Nat) (f : CoreSt → CoreSt) : (updCore s c f).response = s.response := (rfl)
@[simp ↓] theorem updCore_out (s : State) (c : Nat) (f : CoreSt → CoreSt) : (updCore s c f).out = s.out := (rfl)
@[simp ↓] theorem updCore_atr (s : State) (c : Nat) (f : CoreSt → CoreSt) : (updCore s c f).atr = s.atr := (rfl)
@[simp ↓] theorem updCore_gen (s : State) (c : Nat) (f : CoreSt → CoreSt) : (updCore s c f).gen = s.gen := (rfl)
@[simp ↓] theorem updCore_pwr (s : State) (c : Nat) (f : CoreSt → CoreSt) : (updCore s c f).pwr = s.pwr := (rfl)
@[simp ↓] theorem updCore_mld (s : State) (c : Nat) (f : CoreSt → CoreSt) : (updCore s c f).mld = s.mld := (rfl)
@[simp ↓] theorem updCore_gals (s : State) (c : Nat) (f : CoreSt → CoreSt) : (updCore s c f).gals = s.gals := (rfl)
@[simp ↓] theorem updCore_galv (s : State) (c : Nat) (f : CoreSt → CoreSt) : (updCore s c f).galv = s.galv := (rfl)
@[simp ↓] theorem updCore_mbxSel (s : State) (c : Nat) (f : CoreSt → CoreSt) : (updCore s c f).mbxSel = s.mbxSel := (rfl)
@[simp ↓] theorem updCore_mbxPending (s : State) (c : Nat) (f : CoreSt → CoreSt) : (updCore s c f).mbxPending = s.mbxPending := (rfl)
@[simp ↓] theorem updCore_mbxAcked (s : State) (c : Nat) (f : CoreSt → CoreSt) : (updCore s c f).mbxAcked = s.mbxAcked := (rfl)
@[simp ↓] theorem updCore_sqs (s : State) (c : Nat) (f : CoreSt → CoreSt) : (updCore s c f).sqs = s.sqs := (rfl)
@[simp ↓] theorem updCore_cqs (s : State) (c : Nat) (f : CoreSt → CoreSt) : (updCore s c f).cqs = s.cqs := (rfl)
@[simp ↓] theorem updCore_reads (s : State) (c : Nat) (f : CoreSt → CoreSt) : (updCore s c f).reads = s.reads := (rfl)
@[simp ↓] theorem updCore_nextRid (s : State) (c : Nat) (f : CoreSt → CoreSt) : (updCore s c f).nextRid = s.nextRid := (rfl)
@[simp ↓] theorem updCore_jobs (s : State) (c : Nat) (f : CoreSt → CoreSt) : (updCore s c f).jobs = s.jobs := (rfl)
@[simp ↓] theorem updCore_nextJob (s : State) (c : Nat) (f : CoreSt → CoreSt) : (updCore s c f).nextJob = s.nextJob := (rfl)
@[simp ↓] theorem updCore_adm (s : State) (c : Nat) (f : CoreSt → CoreSt) : (updCore s c f).adm = s.adm := (rfl)
@[simp ↓] theorem updCore_nextSeq (s : State) (c : Nat) (f : CoreSt → CoreSt) : (updCore s c f).nextSeq = s.nextSeq := (rfl)
@[simp ↓] theorem updCore_lanes (s : State) (c : Nat) (f : CoreSt → CoreSt) : (updCore s c f).lanes = s.lanes := (rfl)
@[simp ↓] theorem updCore_cup (s : State) (c : Nat) (f : CoreSt → CoreSt) : (updCore s c f).cup = s.cup := (rfl)
@[simp ↓] theorem updCore_srm (s : State) (c : Nat) (f : CoreSt → CoreSt) : (updCore s c f).srm = s.srm := (rfl)
@[simp ↓] theorem updCore_cus (s : State) (c : Nat) (f : CoreSt → CoreSt) : (updCore s c f).cus = s.cus := (rfl)
@[simp ↓] theorem updCore_arc (s : State) (c : Nat) (f : CoreSt → CoreSt) : (updCore s c f).arc = s.arc := (rfl)
@[simp ↓] theorem updCore_lcs (s : State) (c : Nat) (f : CoreSt → CoreSt) : (updCore s c f).lcs = s.lcs := (rfl)
@[simp ↓] theorem updCore_wld (s : State) (c : Nat) (f : CoreSt → CoreSt) : (updCore s c f).wld = s.wld := (rfl)
@[simp ↓] theorem updCore_lcu (s : State) (c : Nat) (f : CoreSt → CoreSt) : (updCore s c f).lcu = s.lcu := (rfl)
@[simp ↓] theorem updCore_cores (s : State) (c : Nat) (f : CoreSt → CoreSt) : (updCore s c f).cores = updNth s.cores c f := (rfl)
@[simp ↓] theorem updCore_rng (s : State) (c : Nat) (f : CoreSt → CoreSt) : (updCore s c f).rng = s.rng := (rfl)
@[simp ↓] theorem updCore_flt (s : State) (c : Nat) (f : CoreSt → CoreSt) : (updCore s c f).flt = s.flt := (rfl)
@[simp ↓] theorem updCore_tmp (s : State) (c : Nat) (f : CoreSt → CoreSt) : (updCore s c f).tmp = s.tmp := (rfl)
@[simp ↓] theorem updCore_rcd (s : State) (c : Nat) (f : CoreSt → CoreSt) : (updCore s c f).rcd = s.rcd := (rfl)
@[simp ↓] theorem updCore_spn (s : State) (c : Nat) (f : CoreSt → CoreSt) : (updCore s c f).spn = s.spn := (rfl)
@[simp ↓] theorem updCore_chn (s : State) (c : Nat) (f : CoreSt → CoreSt) : (updCore s c f).chn = s.chn := (rfl)
@[simp ↓] theorem updCore_hst (s : State) (c : Nat) (f : CoreSt → CoreSt) : (updCore s c f).hst = s.hst := (rfl)
@[simp ↓] theorem updCore_mem (s : State) (c : Nat) (f : CoreSt → CoreSt) : (updCore s c f).mem = s.mem := (rfl)

/-! `emit` -/
@[simp ↓] theorem emit_pending (s : State) (o : HostOut) : (emit s o).pending = s.pending := (rfl)
@[simp ↓] theorem emit_freeCtr (s : State) (o : HostOut) : (emit s o).freeCtr = s.freeCtr := (rfl)
@[simp ↓] theorem emit_response (s : State) (o : HostOut) : (emit s o).response = s.response := (rfl)
@[simp ↓] theorem emit_atr (s : State) (o : HostOut) : (emit s o).atr = s.atr := (rfl)
@[simp ↓] theorem emit_gen (s : State) (o : HostOut) : (emit s o).gen = s.gen := (rfl)
@[simp ↓] theorem emit_pwr (s : State) (o : HostOut) : (emit s o).pwr = s.pwr := (rfl)
@[simp ↓] theorem emit_mld (s : State) (o : HostOut) : (emit s o).mld = s.mld := (rfl)
@[simp ↓] theorem emit_gals (s : State) (o : HostOut) : (emit s o).gals = s.gals := (rfl)
@[simp ↓] theorem emit_galv (s : State) (o : HostOut) : (emit s o).galv = s.galv := (rfl)
@[simp ↓] theorem emit_mbxSel (s : State) (o : HostOut) : (emit s o).mbxSel = s.mbxSel := (rfl)
@[simp ↓] theorem emit_mbxPending (s : State) (o : HostOut) : (emit s o).mbxPending = s.mbxPending := (rfl)
@[simp ↓] theorem emit_mbxAcked (s : State) (o : HostOut) : (emit s o).mbxAcked = s.mbxAcked := (rfl)
@[simp ↓] theorem emit_sqs (s : State) (o : HostOut) : (emit s o).sqs = s.sqs := (rfl)
@[simp ↓] theorem emit_cqs (s : State) (o : HostOut) : (emit s o).cqs = s.cqs := (rfl)
@[simp ↓] theorem emit_reads (s : State) (o : HostOut) : (emit s o).reads = s.reads := (rfl)
@[simp ↓] theorem emit_nextRid (s : State) (o : HostOut) : (emit s o).nextRid = s.nextRid := (rfl)
@[simp ↓] theorem emit_jobs (s : State) (o : HostOut) : (emit s o).jobs = s.jobs := (rfl)
@[simp ↓] theorem emit_nextJob (s : State) (o : HostOut) : (emit s o).nextJob = s.nextJob := (rfl)
@[simp ↓] theorem emit_adm (s : State) (o : HostOut) : (emit s o).adm = s.adm := (rfl)
@[simp ↓] theorem emit_nextSeq (s : State) (o : HostOut) : (emit s o).nextSeq = s.nextSeq := (rfl)
@[simp ↓] theorem emit_lanes (s : State) (o : HostOut) : (emit s o).lanes = s.lanes := (rfl)
@[simp ↓] theorem emit_cup (s : State) (o : HostOut) : (emit s o).cup = s.cup := (rfl)
@[simp ↓] theorem emit_srm (s : State) (o : HostOut) : (emit s o).srm = s.srm := (rfl)
@[simp ↓] theorem emit_cus (s : State) (o : HostOut) : (emit s o).cus = s.cus := (rfl)
@[simp ↓] theorem emit_arc (s : State) (o : HostOut) : (emit s o).arc = s.arc := (rfl)
@[simp ↓] theorem emit_lcs (s : State) (o : HostOut) : (emit s o).lcs = s.lcs := (rfl)
@[simp ↓] theorem emit_wld (s : State) (o : HostOut) : (emit s o).wld = s.wld := (rfl)
@[simp ↓] theorem emit_lcu (s : State) (o : HostOut) : (emit s o).lcu = s.lcu := (rfl)
@[simp ↓] theorem emit_cores (s : State) (o : HostOut) : (emit s o).cores = s.cores := (rfl)
@[simp ↓] theorem emit_rng (s : State) (o : HostOut) : (emit s o).rng = s.rng := (rfl)
@[simp ↓] theorem emit_flt (s : State) (o : HostOut) : (emit s o).flt = s.flt := (rfl)
@[simp ↓] theorem emit_tmp (s : State) (o : HostOut) : (emit s o).tmp = s.tmp := (rfl)
@[simp ↓] theorem emit_rcd (s : State) (o : HostOut) : (emit s o).rcd = s.rcd := (rfl)
@[simp ↓] theorem emit_spn (s : State) (o : HostOut) : (emit s o).spn = s.spn := (rfl)
@[simp ↓] theorem emit_chn (s : State) (o : HostOut) : (emit s o).chn = s.chn := (rfl)
@[simp ↓] theorem emit_hst (s : State) (o : HostOut) : (emit s o).hst = s.hst := (rfl)
@[simp ↓] theorem emit_mem (s : State) (o : HostOut) : (emit s o).mem = s.mem := (rfl)

/-! `updFuses` -/
@[simp ↓] theorem updFuses_pending (s : State) (f : Fuses → Fuses) : (updFuses s f).pending = s.pending := (rfl)
@[simp ↓] theorem updFuses_freeCtr (s : State) (f : Fuses → Fuses) : (updFuses s f).freeCtr = s.freeCtr := (rfl)
@[simp ↓] theorem updFuses_response (s : State) (f : Fuses → Fuses) : (updFuses s f).response = s.response := (rfl)
@[simp ↓] theorem updFuses_out (s : State) (f : Fuses → Fuses) : (updFuses s f).out = s.out := (rfl)
@[simp ↓] theorem updFuses_atr (s : State) (f : Fuses → Fuses) : (updFuses s f).atr = s.atr := (rfl)
@[simp ↓] theorem updFuses_gen (s : State) (f : Fuses → Fuses) : (updFuses s f).gen = s.gen := (rfl)
@[simp ↓] theorem updFuses_pwr (s : State) (f : Fuses → Fuses) : (updFuses s f).pwr = s.pwr := (rfl)
@[simp ↓] theorem updFuses_mld (s : State) (f : Fuses → Fuses) : (updFuses s f).mld = s.mld := (rfl)
@[simp ↓] theorem updFuses_gals (s : State) (f : Fuses → Fuses) : (updFuses s f).gals = s.gals := (rfl)
@[simp ↓] theorem updFuses_galv (s : State) (f : Fuses → Fuses) : (updFuses s f).galv = s.galv := (rfl)
@[simp ↓] theorem updFuses_mbxSel (s : State) (f : Fuses → Fuses) : (updFuses s f).mbxSel = s.mbxSel := (rfl)
@[simp ↓] theorem updFuses_mbxPending (s : State) (f : Fuses → Fuses) : (updFuses s f).mbxPending = s.mbxPending := (rfl)
@[simp ↓] theorem updFuses_mbxAcked (s : State) (f : Fuses → Fuses) : (updFuses s f).mbxAcked = s.mbxAcked := (rfl)
@[simp ↓] theorem updFuses_sqs (s : State) (f : Fuses → Fuses) : (updFuses s f).sqs = s.sqs := (rfl)
@[simp ↓] theorem updFuses_cqs (s : State) (f : Fuses → Fuses) : (updFuses s f).cqs = s.cqs := (rfl)
@[simp ↓] theorem updFuses_reads (s : State) (f : Fuses → Fuses) : (updFuses s f).reads = s.reads := (rfl)
@[simp ↓] theorem updFuses_nextRid (s : State) (f : Fuses → Fuses) : (updFuses s f).nextRid = s.nextRid := (rfl)
@[simp ↓] theorem updFuses_jobs (s : State) (f : Fuses → Fuses) : (updFuses s f).jobs = s.jobs := (rfl)
@[simp ↓] theorem updFuses_nextJob (s : State) (f : Fuses → Fuses) : (updFuses s f).nextJob = s.nextJob := (rfl)
@[simp ↓] theorem updFuses_adm (s : State) (f : Fuses → Fuses) : (updFuses s f).adm = s.adm := (rfl)
@[simp ↓] theorem updFuses_nextSeq (s : State) (f : Fuses → Fuses) : (updFuses s f).nextSeq = s.nextSeq := (rfl)
@[simp ↓] theorem updFuses_lanes (s : State) (f : Fuses → Fuses) : (updFuses s f).lanes = s.lanes := (rfl)
@[simp ↓] theorem updFuses_cup (s : State) (f : Fuses → Fuses) : (updFuses s f).cup = s.cup := (rfl)
@[simp ↓] theorem updFuses_srm (s : State) (f : Fuses → Fuses) : (updFuses s f).srm = s.srm := (rfl)
@[simp ↓] theorem updFuses_cus (s : State) (f : Fuses → Fuses) : (updFuses s f).cus = s.cus := (rfl)
@[simp ↓] theorem updFuses_arc (s : State) (f : Fuses → Fuses) : (updFuses s f).arc = s.arc := (rfl)
@[simp ↓] theorem updFuses_wld (s : State) (f : Fuses → Fuses) : (updFuses s f).wld = s.wld := (rfl)
@[simp ↓] theorem updFuses_lcu (s : State) (f : Fuses → Fuses) : (updFuses s f).lcu = s.lcu := (rfl)
@[simp ↓] theorem updFuses_cores (s : State) (f : Fuses → Fuses) : (updFuses s f).cores = s.cores := (rfl)
@[simp ↓] theorem updFuses_rng (s : State) (f : Fuses → Fuses) : (updFuses s f).rng = s.rng := (rfl)
@[simp ↓] theorem updFuses_flt (s : State) (f : Fuses → Fuses) : (updFuses s f).flt = s.flt := (rfl)
@[simp ↓] theorem updFuses_tmp (s : State) (f : Fuses → Fuses) : (updFuses s f).tmp = s.tmp := (rfl)
@[simp ↓] theorem updFuses_rcd (s : State) (f : Fuses → Fuses) : (updFuses s f).rcd = s.rcd := (rfl)
@[simp ↓] theorem updFuses_spn (s : State) (f : Fuses → Fuses) : (updFuses s f).spn = s.spn := (rfl)
@[simp ↓] theorem updFuses_chn (s : State) (f : Fuses → Fuses) : (updFuses s f).chn = s.chn := (rfl)
@[simp ↓] theorem updFuses_hst (s : State) (f : Fuses → Fuses) : (updFuses s f).hst = s.hst := (rfl)
@[simp ↓] theorem updFuses_mem (s : State) (f : Fuses → Fuses) : (updFuses s f).mem = s.mem := (rfl)

/-! `updLcs` -/
@[simp ↓] theorem updLcs_pending (s : State) (f : LifeCycle → LifeCycle) : (updLcs s f).pending = s.pending := (rfl)
@[simp ↓] theorem updLcs_freeCtr (s : State) (f : LifeCycle → LifeCycle) : (updLcs s f).freeCtr = s.freeCtr := (rfl)
@[simp ↓] theorem updLcs_response (s : State) (f : LifeCycle → LifeCycle) : (updLcs s f).response = s.response := (rfl)
@[simp ↓] theorem updLcs_out (s : State) (f : LifeCycle → LifeCycle) : (updLcs s f).out = s.out := (rfl)
@[simp ↓] theorem updLcs_atr (s : State) (f : LifeCycle → LifeCycle) : (updLcs s f).atr = s.atr := (rfl)
@[simp ↓] theorem updLcs_gen (s : State) (f : LifeCycle → LifeCycle) : (updLcs s f).gen = s.gen := (rfl)
@[simp ↓] theorem updLcs_pwr (s : State) (f : LifeCycle → LifeCycle) : (updLcs s f).pwr = s.pwr := (rfl)
@[simp ↓] theorem updLcs_mld (s : State) (f : LifeCycle → LifeCycle) : (updLcs s f).mld = s.mld := (rfl)
@[simp ↓] theorem updLcs_gals (s : State) (f : LifeCycle → LifeCycle) : (updLcs s f).gals = s.gals := (rfl)
@[simp ↓] theorem updLcs_galv (s : State) (f : LifeCycle → LifeCycle) : (updLcs s f).galv = s.galv := (rfl)
@[simp ↓] theorem updLcs_mbxSel (s : State) (f : LifeCycle → LifeCycle) : (updLcs s f).mbxSel = s.mbxSel := (rfl)
@[simp ↓] theorem updLcs_mbxPending (s : State) (f : LifeCycle → LifeCycle) : (updLcs s f).mbxPending = s.mbxPending := (rfl)
@[simp ↓] theorem updLcs_mbxAcked (s : State) (f : LifeCycle → LifeCycle) : (updLcs s f).mbxAcked = s.mbxAcked := (rfl)
@[simp ↓] theorem updLcs_sqs (s : State) (f : LifeCycle → LifeCycle) : (updLcs s f).sqs = s.sqs := (rfl)
@[simp ↓] theorem updLcs_cqs (s : State) (f : LifeCycle → LifeCycle) : (updLcs s f).cqs = s.cqs := (rfl)
@[simp ↓] theorem updLcs_reads (s : State) (f : LifeCycle → LifeCycle) : (updLcs s f).reads = s.reads := (rfl)
@[simp ↓] theorem updLcs_nextRid (s : State) (f : LifeCycle → LifeCycle) : (updLcs s f).nextRid = s.nextRid := (rfl)
@[simp ↓] theorem updLcs_jobs (s : State) (f : LifeCycle → LifeCycle) : (updLcs s f).jobs = s.jobs := (rfl)
@[simp ↓] theorem updLcs_nextJob (s : State) (f : LifeCycle → LifeCycle) : (updLcs s f).nextJob = s.nextJob := (rfl)
@[simp ↓] theorem updLcs_adm (s : State) (f : LifeCycle → LifeCycle) : (updLcs s f).adm = s.adm := (rfl)
@[simp ↓] theorem updLcs_nextSeq (s : State) (f : LifeCycle → LifeCycle) : (updLcs s f).nextSeq = s.nextSeq := (rfl)
@[simp ↓] theorem updLcs_lanes (s : State) (f : LifeCycle → LifeCycle) : (updLcs s f).lanes = s.lanes := (rfl)
@[simp ↓] theorem updLcs_cup (s : State) (f : LifeCycle → LifeCycle) : (updLcs s f).cup = s.cup := (rfl)
@[simp ↓] theorem updLcs_srm (s : State) (f : LifeCycle → LifeCycle) : (updLcs s f).srm = s.srm := (rfl)
@[simp ↓] theorem updLcs_cus (s : State) (f : LifeCycle → LifeCycle) : (updLcs s f).cus = s.cus := (rfl)
@[simp ↓] theorem updLcs_arc (s : State) (f : LifeCycle → LifeCycle) : (updLcs s f).arc = s.arc := (rfl)
@[simp ↓] theorem updLcs_lcs (s : State) (f : LifeCycle → LifeCycle) : (updLcs s f).lcs = f s.lcs := (rfl)
@[simp ↓] theorem updLcs_wld (s : State) (f : LifeCycle → LifeCycle) : (updLcs s f).wld = s.wld := (rfl)
@[simp ↓] theorem updLcs_lcu (s : State) (f : LifeCycle → LifeCycle) : (updLcs s f).lcu = s.lcu := (rfl)
@[simp ↓] theorem updLcs_cores (s : State) (f : LifeCycle → LifeCycle) : (updLcs s f).cores = s.cores := (rfl)
@[simp ↓] theorem updLcs_rng (s : State) (f : LifeCycle → LifeCycle) : (updLcs s f).rng = s.rng := (rfl)
@[simp ↓] theorem updLcs_flt (s : State) (f : LifeCycle → LifeCycle) : (updLcs s f).flt = s.flt := (rfl)
@[simp ↓] theorem updLcs_tmp (s : State) (f : LifeCycle → LifeCycle) : (updLcs s f).tmp = s.tmp := (rfl)
@[simp ↓] theorem updLcs_rcd (s : State) (f : LifeCycle → LifeCycle) : (updLcs s f).rcd = s.rcd := (rfl)
@[simp ↓] theorem updLcs_spn (s : State) (f : LifeCycle → LifeCycle) : (updLcs s f).spn = s.spn := (rfl)
@[simp ↓] theorem updLcs_chn (s : State) (f : LifeCycle → LifeCycle) : (updLcs s f).chn = s.chn := (rfl)
@[simp ↓] theorem updLcs_hst (s : State) (f : LifeCycle → LifeCycle) : (updLcs s f).hst = s.hst := (rfl)
@[simp ↓] theorem updLcs_mem (s : State) (f : LifeCycle → LifeCycle) : (updLcs s f).mem = s.mem := (rfl)

/-! `updSrm` -/
@[simp ↓] theorem updSrm_pending (s : State) (f : Strongroom → Strongroom) : (updSrm s f).pending = s.pending := (rfl)
@[simp ↓] theorem updSrm_freeCtr (s : State) (f : Strongroom → Strongroom) : (updSrm s f).freeCtr = s.freeCtr := (rfl)
@[simp ↓] theorem updSrm_response (s : State) (f : Strongroom → Strongroom) : (updSrm s f).response = s.response := (rfl)
@[simp ↓] theorem updSrm_out (s : State) (f : Strongroom → Strongroom) : (updSrm s f).out = s.out := (rfl)
@[simp ↓] theorem updSrm_atr (s : State) (f : Strongroom → Strongroom) : (updSrm s f).atr = s.atr := (rfl)
@[simp ↓] theorem updSrm_gen (s : State) (f : Strongroom → Strongroom) : (updSrm s f).gen = s.gen := (rfl)
@[simp ↓] theorem updSrm_pwr (s : State) (f : Strongroom → Strongroom) : (updSrm s f).pwr = s.pwr := (rfl)
@[simp ↓] theorem updSrm_mld (s : State) (f : Strongroom → Strongroom) : (updSrm s f).mld = s.mld := (rfl)
@[simp ↓] theorem updSrm_gals (s : State) (f : Strongroom → Strongroom) : (updSrm s f).gals = s.gals := (rfl)
@[simp ↓] theorem updSrm_galv (s : State) (f : Strongroom → Strongroom) : (updSrm s f).galv = s.galv := (rfl)
@[simp ↓] theorem updSrm_mbxSel (s : State) (f : Strongroom → Strongroom) : (updSrm s f).mbxSel = s.mbxSel := (rfl)
@[simp ↓] theorem updSrm_mbxPending (s : State) (f : Strongroom → Strongroom) : (updSrm s f).mbxPending = s.mbxPending := (rfl)
@[simp ↓] theorem updSrm_mbxAcked (s : State) (f : Strongroom → Strongroom) : (updSrm s f).mbxAcked = s.mbxAcked := (rfl)
@[simp ↓] theorem updSrm_sqs (s : State) (f : Strongroom → Strongroom) : (updSrm s f).sqs = s.sqs := (rfl)
@[simp ↓] theorem updSrm_cqs (s : State) (f : Strongroom → Strongroom) : (updSrm s f).cqs = s.cqs := (rfl)
@[simp ↓] theorem updSrm_reads (s : State) (f : Strongroom → Strongroom) : (updSrm s f).reads = s.reads := (rfl)
@[simp ↓] theorem updSrm_nextRid (s : State) (f : Strongroom → Strongroom) : (updSrm s f).nextRid = s.nextRid := (rfl)
@[simp ↓] theorem updSrm_jobs (s : State) (f : Strongroom → Strongroom) : (updSrm s f).jobs = s.jobs := (rfl)
@[simp ↓] theorem updSrm_nextJob (s : State) (f : Strongroom → Strongroom) : (updSrm s f).nextJob = s.nextJob := (rfl)
@[simp ↓] theorem updSrm_adm (s : State) (f : Strongroom → Strongroom) : (updSrm s f).adm = s.adm := (rfl)
@[simp ↓] theorem updSrm_nextSeq (s : State) (f : Strongroom → Strongroom) : (updSrm s f).nextSeq = s.nextSeq := (rfl)
@[simp ↓] theorem updSrm_lanes (s : State) (f : Strongroom → Strongroom) : (updSrm s f).lanes = s.lanes := (rfl)
@[simp ↓] theorem updSrm_cup (s : State) (f : Strongroom → Strongroom) : (updSrm s f).cup = s.cup := (rfl)
@[simp ↓] theorem updSrm_srm (s : State) (f : Strongroom → Strongroom) : (updSrm s f).srm = f s.srm := (rfl)
@[simp ↓] theorem updSrm_cus (s : State) (f : Strongroom → Strongroom) : (updSrm s f).cus = s.cus := (rfl)
@[simp ↓] theorem updSrm_arc (s : State) (f : Strongroom → Strongroom) : (updSrm s f).arc = s.arc := (rfl)
@[simp ↓] theorem updSrm_lcs (s : State) (f : Strongroom → Strongroom) : (updSrm s f).lcs = s.lcs := (rfl)
@[simp ↓] theorem updSrm_wld (s : State) (f : Strongroom → Strongroom) : (updSrm s f).wld = s.wld := (rfl)
@[simp ↓] theorem updSrm_lcu (s : State) (f : Strongroom → Strongroom) : (updSrm s f).lcu = s.lcu := (rfl)
@[simp ↓] theorem updSrm_cores (s : State) (f : Strongroom → Strongroom) : (updSrm s f).cores = s.cores := (rfl)
@[simp ↓] theorem updSrm_rng (s : State) (f : Strongroom → Strongroom) : (updSrm s f).rng = s.rng := (rfl)
@[simp ↓] theorem updSrm_flt (s : State) (f : Strongroom → Strongroom) : (updSrm s f).flt = s.flt := (rfl)
@[simp ↓] theorem updSrm_tmp (s : State) (f : Strongroom → Strongroom) : (updSrm s f).tmp = s.tmp := (rfl)
@[simp ↓] theorem updSrm_rcd (s : State) (f : Strongroom → Strongroom) : (updSrm s f).rcd = s.rcd := (rfl)
@[simp ↓] theorem updSrm_spn (s : State) (f : Strongroom → Strongroom) : (updSrm s f).spn = s.spn := (rfl)
@[simp ↓] theorem updSrm_chn (s : State) (f : Strongroom → Strongroom) : (updSrm s f).chn = s.chn := (rfl)
@[simp ↓] theorem updSrm_hst (s : State) (f : Strongroom → Strongroom) : (updSrm s f).hst = s.hst := (rfl)
@[simp ↓] theorem updSrm_mem (s : State) (f : Strongroom → Strongroom) : (updSrm s f).mem = s.mem := (rfl)

/-! `updCus` -/
@[simp ↓] theorem updCus_pending (s : State) (f : Custodians → Custodians) : (updCus s f).pending = s.pending := (rfl)
@[simp ↓] theorem updCus_freeCtr (s : State) (f : Custodians → Custodians) : (updCus s f).freeCtr = s.freeCtr := (rfl)
@[simp ↓] theorem updCus_response (s : State) (f : Custodians → Custodians) : (updCus s f).response = s.response := (rfl)
@[simp ↓] theorem updCus_out (s : State) (f : Custodians → Custodians) : (updCus s f).out = s.out := (rfl)
@[simp ↓] theorem updCus_atr (s : State) (f : Custodians → Custodians) : (updCus s f).atr = s.atr := (rfl)
@[simp ↓] theorem updCus_gen (s : State) (f : Custodians → Custodians) : (updCus s f).gen = s.gen := (rfl)
@[simp ↓] theorem updCus_pwr (s : State) (f : Custodians → Custodians) : (updCus s f).pwr = s.pwr := (rfl)
@[simp ↓] theorem updCus_mld (s : State) (f : Custodians → Custodians) : (updCus s f).mld = s.mld := (rfl)
@[simp ↓] theorem updCus_gals (s : State) (f : Custodians → Custodians) : (updCus s f).gals = s.gals := (rfl)
@[simp ↓] theorem updCus_galv (s : State) (f : Custodians → Custodians) : (updCus s f).galv = s.galv := (rfl)
@[simp ↓] theorem updCus_mbxSel (s : State) (f : Custodians → Custodians) : (updCus s f).mbxSel = s.mbxSel := (rfl)
@[simp ↓] theorem updCus_mbxPending (s : State) (f : Custodians → Custodians) : (updCus s f).mbxPending = s.mbxPending := (rfl)
@[simp ↓] theorem updCus_mbxAcked (s : State) (f : Custodians → Custodians) : (updCus s f).mbxAcked = s.mbxAcked := (rfl)
@[simp ↓] theorem updCus_sqs (s : State) (f : Custodians → Custodians) : (updCus s f).sqs = s.sqs := (rfl)
@[simp ↓] theorem updCus_cqs (s : State) (f : Custodians → Custodians) : (updCus s f).cqs = s.cqs := (rfl)
@[simp ↓] theorem updCus_reads (s : State) (f : Custodians → Custodians) : (updCus s f).reads = s.reads := (rfl)
@[simp ↓] theorem updCus_nextRid (s : State) (f : Custodians → Custodians) : (updCus s f).nextRid = s.nextRid := (rfl)
@[simp ↓] theorem updCus_jobs (s : State) (f : Custodians → Custodians) : (updCus s f).jobs = s.jobs := (rfl)
@[simp ↓] theorem updCus_nextJob (s : State) (f : Custodians → Custodians) : (updCus s f).nextJob = s.nextJob := (rfl)
@[simp ↓] theorem updCus_adm (s : State) (f : Custodians → Custodians) : (updCus s f).adm = s.adm := (rfl)
@[simp ↓] theorem updCus_nextSeq (s : State) (f : Custodians → Custodians) : (updCus s f).nextSeq = s.nextSeq := (rfl)
@[simp ↓] theorem updCus_lanes (s : State) (f : Custodians → Custodians) : (updCus s f).lanes = s.lanes := (rfl)
@[simp ↓] theorem updCus_cup (s : State) (f : Custodians → Custodians) : (updCus s f).cup = s.cup := (rfl)
@[simp ↓] theorem updCus_srm (s : State) (f : Custodians → Custodians) : (updCus s f).srm = s.srm := (rfl)
@[simp ↓] theorem updCus_cus (s : State) (f : Custodians → Custodians) : (updCus s f).cus = f s.cus := (rfl)
@[simp ↓] theorem updCus_arc (s : State) (f : Custodians → Custodians) : (updCus s f).arc = s.arc := (rfl)
@[simp ↓] theorem updCus_lcs (s : State) (f : Custodians → Custodians) : (updCus s f).lcs = s.lcs := (rfl)
@[simp ↓] theorem updCus_wld (s : State) (f : Custodians → Custodians) : (updCus s f).wld = s.wld := (rfl)
@[simp ↓] theorem updCus_lcu (s : State) (f : Custodians → Custodians) : (updCus s f).lcu = s.lcu := (rfl)
@[simp ↓] theorem updCus_cores (s : State) (f : Custodians → Custodians) : (updCus s f).cores = s.cores := (rfl)
@[simp ↓] theorem updCus_rng (s : State) (f : Custodians → Custodians) : (updCus s f).rng = s.rng := (rfl)
@[simp ↓] theorem updCus_flt (s : State) (f : Custodians → Custodians) : (updCus s f).flt = s.flt := (rfl)
@[simp ↓] theorem updCus_tmp (s : State) (f : Custodians → Custodians) : (updCus s f).tmp = s.tmp := (rfl)
@[simp ↓] theorem updCus_rcd (s : State) (f : Custodians → Custodians) : (updCus s f).rcd = s.rcd := (rfl)
@[simp ↓] theorem updCus_spn (s : State) (f : Custodians → Custodians) : (updCus s f).spn = s.spn := (rfl)
@[simp ↓] theorem updCus_chn (s : State) (f : Custodians → Custodians) : (updCus s f).chn = s.chn := (rfl)
@[simp ↓] theorem updCus_hst (s : State) (f : Custodians → Custodians) : (updCus s f).hst = s.hst := (rfl)
@[simp ↓] theorem updCus_mem (s : State) (f : Custodians → Custodians) : (updCus s f).mem = s.mem := (rfl)

/-! `updArc` -/
@[simp ↓] theorem updArc_pending (s : State) (f : Archive → Archive) : (updArc s f).pending = s.pending := (rfl)
@[simp ↓] theorem updArc_freeCtr (s : State) (f : Archive → Archive) : (updArc s f).freeCtr = s.freeCtr := (rfl)
@[simp ↓] theorem updArc_response (s : State) (f : Archive → Archive) : (updArc s f).response = s.response := (rfl)
@[simp ↓] theorem updArc_out (s : State) (f : Archive → Archive) : (updArc s f).out = s.out := (rfl)
@[simp ↓] theorem updArc_atr (s : State) (f : Archive → Archive) : (updArc s f).atr = s.atr := (rfl)
@[simp ↓] theorem updArc_gen (s : State) (f : Archive → Archive) : (updArc s f).gen = s.gen := (rfl)
@[simp ↓] theorem updArc_pwr (s : State) (f : Archive → Archive) : (updArc s f).pwr = s.pwr := (rfl)
@[simp ↓] theorem updArc_mld (s : State) (f : Archive → Archive) : (updArc s f).mld = s.mld := (rfl)
@[simp ↓] theorem updArc_gals (s : State) (f : Archive → Archive) : (updArc s f).gals = s.gals := (rfl)
@[simp ↓] theorem updArc_galv (s : State) (f : Archive → Archive) : (updArc s f).galv = s.galv := (rfl)
@[simp ↓] theorem updArc_mbxSel (s : State) (f : Archive → Archive) : (updArc s f).mbxSel = s.mbxSel := (rfl)
@[simp ↓] theorem updArc_mbxPending (s : State) (f : Archive → Archive) : (updArc s f).mbxPending = s.mbxPending := (rfl)
@[simp ↓] theorem updArc_mbxAcked (s : State) (f : Archive → Archive) : (updArc s f).mbxAcked = s.mbxAcked := (rfl)
@[simp ↓] theorem updArc_sqs (s : State) (f : Archive → Archive) : (updArc s f).sqs = s.sqs := (rfl)
@[simp ↓] theorem updArc_cqs (s : State) (f : Archive → Archive) : (updArc s f).cqs = s.cqs := (rfl)
@[simp ↓] theorem updArc_reads (s : State) (f : Archive → Archive) : (updArc s f).reads = s.reads := (rfl)
@[simp ↓] theorem updArc_nextRid (s : State) (f : Archive → Archive) : (updArc s f).nextRid = s.nextRid := (rfl)
@[simp ↓] theorem updArc_jobs (s : State) (f : Archive → Archive) : (updArc s f).jobs = s.jobs := (rfl)
@[simp ↓] theorem updArc_nextJob (s : State) (f : Archive → Archive) : (updArc s f).nextJob = s.nextJob := (rfl)
@[simp ↓] theorem updArc_adm (s : State) (f : Archive → Archive) : (updArc s f).adm = s.adm := (rfl)
@[simp ↓] theorem updArc_nextSeq (s : State) (f : Archive → Archive) : (updArc s f).nextSeq = s.nextSeq := (rfl)
@[simp ↓] theorem updArc_lanes (s : State) (f : Archive → Archive) : (updArc s f).lanes = s.lanes := (rfl)
@[simp ↓] theorem updArc_cup (s : State) (f : Archive → Archive) : (updArc s f).cup = s.cup := (rfl)
@[simp ↓] theorem updArc_srm (s : State) (f : Archive → Archive) : (updArc s f).srm = s.srm := (rfl)
@[simp ↓] theorem updArc_cus (s : State) (f : Archive → Archive) : (updArc s f).cus = s.cus := (rfl)
@[simp ↓] theorem updArc_arc (s : State) (f : Archive → Archive) : (updArc s f).arc = f s.arc := (rfl)
@[simp ↓] theorem updArc_lcs (s : State) (f : Archive → Archive) : (updArc s f).lcs = s.lcs := (rfl)
@[simp ↓] theorem updArc_wld (s : State) (f : Archive → Archive) : (updArc s f).wld = s.wld := (rfl)
@[simp ↓] theorem updArc_lcu (s : State) (f : Archive → Archive) : (updArc s f).lcu = s.lcu := (rfl)
@[simp ↓] theorem updArc_cores (s : State) (f : Archive → Archive) : (updArc s f).cores = s.cores := (rfl)
@[simp ↓] theorem updArc_rng (s : State) (f : Archive → Archive) : (updArc s f).rng = s.rng := (rfl)
@[simp ↓] theorem updArc_flt (s : State) (f : Archive → Archive) : (updArc s f).flt = s.flt := (rfl)
@[simp ↓] theorem updArc_tmp (s : State) (f : Archive → Archive) : (updArc s f).tmp = s.tmp := (rfl)
@[simp ↓] theorem updArc_rcd (s : State) (f : Archive → Archive) : (updArc s f).rcd = s.rcd := (rfl)
@[simp ↓] theorem updArc_spn (s : State) (f : Archive → Archive) : (updArc s f).spn = s.spn := (rfl)
@[simp ↓] theorem updArc_chn (s : State) (f : Archive → Archive) : (updArc s f).chn = s.chn := (rfl)
@[simp ↓] theorem updArc_hst (s : State) (f : Archive → Archive) : (updArc s f).hst = s.hst := (rfl)
@[simp ↓] theorem updArc_mem (s : State) (f : Archive → Archive) : (updArc s f).mem = s.mem := (rfl)

/-! `updWld` -/
@[simp ↓] theorem updWld_pending (s : State) (f : Worlds → Worlds) : (updWld s f).pending = s.pending := (rfl)
@[simp ↓] theorem updWld_freeCtr (s : State) (f : Worlds → Worlds) : (updWld s f).freeCtr = s.freeCtr := (rfl)
@[simp ↓] theorem updWld_response (s : State) (f : Worlds → Worlds) : (updWld s f).response = s.response := (rfl)
@[simp ↓] theorem updWld_out (s : State) (f : Worlds → Worlds) : (updWld s f).out = s.out := (rfl)
@[simp ↓] theorem updWld_atr (s : State) (f : Worlds → Worlds) : (updWld s f).atr = s.atr := (rfl)
@[simp ↓] theorem updWld_gen (s : State) (f : Worlds → Worlds) : (updWld s f).gen = s.gen := (rfl)
@[simp ↓] theorem updWld_pwr (s : State) (f : Worlds → Worlds) : (updWld s f).pwr = s.pwr := (rfl)
@[simp ↓] theorem updWld_mld (s : State) (f : Worlds → Worlds) : (updWld s f).mld = s.mld := (rfl)
@[simp ↓] theorem updWld_gals (s : State) (f : Worlds → Worlds) : (updWld s f).gals = s.gals := (rfl)
@[simp ↓] theorem updWld_galv (s : State) (f : Worlds → Worlds) : (updWld s f).galv = s.galv := (rfl)
@[simp ↓] theorem updWld_mbxSel (s : State) (f : Worlds → Worlds) : (updWld s f).mbxSel = s.mbxSel := (rfl)
@[simp ↓] theorem updWld_mbxPending (s : State) (f : Worlds → Worlds) : (updWld s f).mbxPending = s.mbxPending := (rfl)
@[simp ↓] theorem updWld_mbxAcked (s : State) (f : Worlds → Worlds) : (updWld s f).mbxAcked = s.mbxAcked := (rfl)
@[simp ↓] theorem updWld_sqs (s : State) (f : Worlds → Worlds) : (updWld s f).sqs = s.sqs := (rfl)
@[simp ↓] theorem updWld_cqs (s : State) (f : Worlds → Worlds) : (updWld s f).cqs = s.cqs := (rfl)
@[simp ↓] theorem updWld_reads (s : State) (f : Worlds → Worlds) : (updWld s f).reads = s.reads := (rfl)
@[simp ↓] theorem updWld_nextRid (s : State) (f : Worlds → Worlds) : (updWld s f).nextRid = s.nextRid := (rfl)
@[simp ↓] theorem updWld_jobs (s : State) (f : Worlds → Worlds) : (updWld s f).jobs = s.jobs := (rfl)
@[simp ↓] theorem updWld_nextJob (s : State) (f : Worlds → Worlds) : (updWld s f).nextJob = s.nextJob := (rfl)
@[simp ↓] theorem updWld_adm (s : State) (f : Worlds → Worlds) : (updWld s f).adm = s.adm := (rfl)
@[simp ↓] theorem updWld_nextSeq (s : State) (f : Worlds → Worlds) : (updWld s f).nextSeq = s.nextSeq := (rfl)
@[simp ↓] theorem updWld_lanes (s : State) (f : Worlds → Worlds) : (updWld s f).lanes = s.lanes := (rfl)
@[simp ↓] theorem updWld_cup (s : State) (f : Worlds → Worlds) : (updWld s f).cup = s.cup := (rfl)
@[simp ↓] theorem updWld_srm (s : State) (f : Worlds → Worlds) : (updWld s f).srm = s.srm := (rfl)
@[simp ↓] theorem updWld_cus (s : State) (f : Worlds → Worlds) : (updWld s f).cus = s.cus := (rfl)
@[simp ↓] theorem updWld_arc (s : State) (f : Worlds → Worlds) : (updWld s f).arc = s.arc := (rfl)
@[simp ↓] theorem updWld_lcs (s : State) (f : Worlds → Worlds) : (updWld s f).lcs = s.lcs := (rfl)
@[simp ↓] theorem updWld_wld (s : State) (f : Worlds → Worlds) : (updWld s f).wld = f s.wld := (rfl)
@[simp ↓] theorem updWld_lcu (s : State) (f : Worlds → Worlds) : (updWld s f).lcu = s.lcu := (rfl)
@[simp ↓] theorem updWld_cores (s : State) (f : Worlds → Worlds) : (updWld s f).cores = s.cores := (rfl)
@[simp ↓] theorem updWld_rng (s : State) (f : Worlds → Worlds) : (updWld s f).rng = s.rng := (rfl)
@[simp ↓] theorem updWld_flt (s : State) (f : Worlds → Worlds) : (updWld s f).flt = s.flt := (rfl)
@[simp ↓] theorem updWld_tmp (s : State) (f : Worlds → Worlds) : (updWld s f).tmp = s.tmp := (rfl)
@[simp ↓] theorem updWld_rcd (s : State) (f : Worlds → Worlds) : (updWld s f).rcd = s.rcd := (rfl)
@[simp ↓] theorem updWld_spn (s : State) (f : Worlds → Worlds) : (updWld s f).spn = s.spn := (rfl)
@[simp ↓] theorem updWld_chn (s : State) (f : Worlds → Worlds) : (updWld s f).chn = s.chn := (rfl)
@[simp ↓] theorem updWld_hst (s : State) (f : Worlds → Worlds) : (updWld s f).hst = s.hst := (rfl)
@[simp ↓] theorem updWld_mem (s : State) (f : Worlds → Worlds) : (updWld s f).mem = s.mem := (rfl)

/-! `updLcu` -/
@[simp ↓] theorem updLcu_pending (s : State) (f : Lcu → Lcu) : (updLcu s f).pending = s.pending := (rfl)
@[simp ↓] theorem updLcu_freeCtr (s : State) (f : Lcu → Lcu) : (updLcu s f).freeCtr = s.freeCtr := (rfl)
@[simp ↓] theorem updLcu_response (s : State) (f : Lcu → Lcu) : (updLcu s f).response = s.response := (rfl)
@[simp ↓] theorem updLcu_out (s : State) (f : Lcu → Lcu) : (updLcu s f).out = s.out := (rfl)
@[simp ↓] theorem updLcu_atr (s : State) (f : Lcu → Lcu) : (updLcu s f).atr = s.atr := (rfl)
@[simp ↓] theorem updLcu_gen (s : State) (f : Lcu → Lcu) : (updLcu s f).gen = s.gen := (rfl)
@[simp ↓] theorem updLcu_pwr (s : State) (f : Lcu → Lcu) : (updLcu s f).pwr = s.pwr := (rfl)
@[simp ↓] theorem updLcu_mld (s : State) (f : Lcu → Lcu) : (updLcu s f).mld = s.mld := (rfl)
@[simp ↓] theorem updLcu_gals (s : State) (f : Lcu → Lcu) : (updLcu s f).gals = s.gals := (rfl)
@[simp ↓] theorem updLcu_galv (s : State) (f : Lcu → Lcu) : (updLcu s f).galv = s.galv := (rfl)
@[simp ↓] theorem updLcu_mbxSel (s : State) (f : Lcu → Lcu) : (updLcu s f).mbxSel = s.mbxSel := (rfl)
@[simp ↓] theorem updLcu_mbxPending (s : State) (f : Lcu → Lcu) : (updLcu s f).mbxPending = s.mbxPending := (rfl)
@[simp ↓] theorem updLcu_mbxAcked (s : State) (f : Lcu → Lcu) : (updLcu s f).mbxAcked = s.mbxAcked := (rfl)
@[simp ↓] theorem updLcu_sqs (s : State) (f : Lcu → Lcu) : (updLcu s f).sqs = s.sqs := (rfl)
@[simp ↓] theorem updLcu_cqs (s : State) (f : Lcu → Lcu) : (updLcu s f).cqs = s.cqs := (rfl)
@[simp ↓] theorem updLcu_reads (s : State) (f : Lcu → Lcu) : (updLcu s f).reads = s.reads := (rfl)
@[simp ↓] theorem updLcu_nextRid (s : State) (f : Lcu → Lcu) : (updLcu s f).nextRid = s.nextRid := (rfl)
@[simp ↓] theorem updLcu_jobs (s : State) (f : Lcu → Lcu) : (updLcu s f).jobs = s.jobs := (rfl)
@[simp ↓] theorem updLcu_nextJob (s : State) (f : Lcu → Lcu) : (updLcu s f).nextJob = s.nextJob := (rfl)
@[simp ↓] theorem updLcu_adm (s : State) (f : Lcu → Lcu) : (updLcu s f).adm = s.adm := (rfl)
@[simp ↓] theorem updLcu_nextSeq (s : State) (f : Lcu → Lcu) : (updLcu s f).nextSeq = s.nextSeq := (rfl)
@[simp ↓] theorem updLcu_lanes (s : State) (f : Lcu → Lcu) : (updLcu s f).lanes = s.lanes := (rfl)
@[simp ↓] theorem updLcu_cup (s : State) (f : Lcu → Lcu) : (updLcu s f).cup = s.cup := (rfl)
@[simp ↓] theorem updLcu_srm (s : State) (f : Lcu → Lcu) : (updLcu s f).srm = s.srm := (rfl)
@[simp ↓] theorem updLcu_cus (s : State) (f : Lcu → Lcu) : (updLcu s f).cus = s.cus := (rfl)
@[simp ↓] theorem updLcu_arc (s : State) (f : Lcu → Lcu) : (updLcu s f).arc = s.arc := (rfl)
@[simp ↓] theorem updLcu_lcs (s : State) (f : Lcu → Lcu) : (updLcu s f).lcs = s.lcs := (rfl)
@[simp ↓] theorem updLcu_wld (s : State) (f : Lcu → Lcu) : (updLcu s f).wld = s.wld := (rfl)
@[simp ↓] theorem updLcu_lcu (s : State) (f : Lcu → Lcu) : (updLcu s f).lcu = f s.lcu := (rfl)
@[simp ↓] theorem updLcu_cores (s : State) (f : Lcu → Lcu) : (updLcu s f).cores = s.cores := (rfl)
@[simp ↓] theorem updLcu_rng (s : State) (f : Lcu → Lcu) : (updLcu s f).rng = s.rng := (rfl)
@[simp ↓] theorem updLcu_flt (s : State) (f : Lcu → Lcu) : (updLcu s f).flt = s.flt := (rfl)
@[simp ↓] theorem updLcu_tmp (s : State) (f : Lcu → Lcu) : (updLcu s f).tmp = s.tmp := (rfl)
@[simp ↓] theorem updLcu_rcd (s : State) (f : Lcu → Lcu) : (updLcu s f).rcd = s.rcd := (rfl)
@[simp ↓] theorem updLcu_spn (s : State) (f : Lcu → Lcu) : (updLcu s f).spn = s.spn := (rfl)
@[simp ↓] theorem updLcu_chn (s : State) (f : Lcu → Lcu) : (updLcu s f).chn = s.chn := (rfl)
@[simp ↓] theorem updLcu_hst (s : State) (f : Lcu → Lcu) : (updLcu s f).hst = s.hst := (rfl)
@[simp ↓] theorem updLcu_mem (s : State) (f : Lcu → Lcu) : (updLcu s f).mem = s.mem := (rfl)

/-! `updRng` -/
@[simp ↓] theorem updRng_pending (s : State) (f : Entropy → Entropy) : (updRng s f).pending = s.pending := (rfl)
@[simp ↓] theorem updRng_freeCtr (s : State) (f : Entropy → Entropy) : (updRng s f).freeCtr = s.freeCtr := (rfl)
@[simp ↓] theorem updRng_response (s : State) (f : Entropy → Entropy) : (updRng s f).response = s.response := (rfl)
@[simp ↓] theorem updRng_out (s : State) (f : Entropy → Entropy) : (updRng s f).out = s.out := (rfl)
@[simp ↓] theorem updRng_atr (s : State) (f : Entropy → Entropy) : (updRng s f).atr = s.atr := (rfl)
@[simp ↓] theorem updRng_gen (s : State) (f : Entropy → Entropy) : (updRng s f).gen = s.gen := (rfl)
@[simp ↓] theorem updRng_pwr (s : State) (f : Entropy → Entropy) : (updRng s f).pwr = s.pwr := (rfl)
@[simp ↓] theorem updRng_mld (s : State) (f : Entropy → Entropy) : (updRng s f).mld = s.mld := (rfl)
@[simp ↓] theorem updRng_gals (s : State) (f : Entropy → Entropy) : (updRng s f).gals = s.gals := (rfl)
@[simp ↓] theorem updRng_galv (s : State) (f : Entropy → Entropy) : (updRng s f).galv = s.galv := (rfl)
@[simp ↓] theorem updRng_mbxSel (s : State) (f : Entropy → Entropy) : (updRng s f).mbxSel = s.mbxSel := (rfl)
@[simp ↓] theorem updRng_mbxPending (s : State) (f : Entropy → Entropy) : (updRng s f).mbxPending = s.mbxPending := (rfl)
@[simp ↓] theorem updRng_mbxAcked (s : State) (f : Entropy → Entropy) : (updRng s f).mbxAcked = s.mbxAcked := (rfl)
@[simp ↓] theorem updRng_sqs (s : State) (f : Entropy → Entropy) : (updRng s f).sqs = s.sqs := (rfl)
@[simp ↓] theorem updRng_cqs (s : State) (f : Entropy → Entropy) : (updRng s f).cqs = s.cqs := (rfl)
@[simp ↓] theorem updRng_reads (s : State) (f : Entropy → Entropy) : (updRng s f).reads = s.reads := (rfl)
@[simp ↓] theorem updRng_nextRid (s : State) (f : Entropy → Entropy) : (updRng s f).nextRid = s.nextRid := (rfl)
@[simp ↓] theorem updRng_jobs (s : State) (f : Entropy → Entropy) : (updRng s f).jobs = s.jobs := (rfl)
@[simp ↓] theorem updRng_nextJob (s : State) (f : Entropy → Entropy) : (updRng s f).nextJob = s.nextJob := (rfl)
@[simp ↓] theorem updRng_adm (s : State) (f : Entropy → Entropy) : (updRng s f).adm = s.adm := (rfl)
@[simp ↓] theorem updRng_nextSeq (s : State) (f : Entropy → Entropy) : (updRng s f).nextSeq = s.nextSeq := (rfl)
@[simp ↓] theorem updRng_lanes (s : State) (f : Entropy → Entropy) : (updRng s f).lanes = s.lanes := (rfl)
@[simp ↓] theorem updRng_cup (s : State) (f : Entropy → Entropy) : (updRng s f).cup = s.cup := (rfl)
@[simp ↓] theorem updRng_srm (s : State) (f : Entropy → Entropy) : (updRng s f).srm = s.srm := (rfl)
@[simp ↓] theorem updRng_cus (s : State) (f : Entropy → Entropy) : (updRng s f).cus = s.cus := (rfl)
@[simp ↓] theorem updRng_arc (s : State) (f : Entropy → Entropy) : (updRng s f).arc = s.arc := (rfl)
@[simp ↓] theorem updRng_lcs (s : State) (f : Entropy → Entropy) : (updRng s f).lcs = s.lcs := (rfl)
@[simp ↓] theorem updRng_wld (s : State) (f : Entropy → Entropy) : (updRng s f).wld = s.wld := (rfl)
@[simp ↓] theorem updRng_lcu (s : State) (f : Entropy → Entropy) : (updRng s f).lcu = s.lcu := (rfl)
@[simp ↓] theorem updRng_cores (s : State) (f : Entropy → Entropy) : (updRng s f).cores = s.cores := (rfl)
@[simp ↓] theorem updRng_rng (s : State) (f : Entropy → Entropy) : (updRng s f).rng = f s.rng := (rfl)
@[simp ↓] theorem updRng_flt (s : State) (f : Entropy → Entropy) : (updRng s f).flt = s.flt := (rfl)
@[simp ↓] theorem updRng_tmp (s : State) (f : Entropy → Entropy) : (updRng s f).tmp = s.tmp := (rfl)
@[simp ↓] theorem updRng_rcd (s : State) (f : Entropy → Entropy) : (updRng s f).rcd = s.rcd := (rfl)
@[simp ↓] theorem updRng_spn (s : State) (f : Entropy → Entropy) : (updRng s f).spn = s.spn := (rfl)
@[simp ↓] theorem updRng_chn (s : State) (f : Entropy → Entropy) : (updRng s f).chn = s.chn := (rfl)
@[simp ↓] theorem updRng_hst (s : State) (f : Entropy → Entropy) : (updRng s f).hst = s.hst := (rfl)
@[simp ↓] theorem updRng_mem (s : State) (f : Entropy → Entropy) : (updRng s f).mem = s.mem := (rfl)

/-! `updMld` -/
@[simp ↓] theorem updMld_pending (s : State) (f : MouldState → MouldState) : (updMld s f).pending = s.pending := (rfl)
@[simp ↓] theorem updMld_freeCtr (s : State) (f : MouldState → MouldState) : (updMld s f).freeCtr = s.freeCtr := (rfl)
@[simp ↓] theorem updMld_response (s : State) (f : MouldState → MouldState) : (updMld s f).response = s.response := (rfl)
@[simp ↓] theorem updMld_out (s : State) (f : MouldState → MouldState) : (updMld s f).out = s.out := (rfl)
@[simp ↓] theorem updMld_atr (s : State) (f : MouldState → MouldState) : (updMld s f).atr = s.atr := (rfl)
@[simp ↓] theorem updMld_gen (s : State) (f : MouldState → MouldState) : (updMld s f).gen = s.gen := (rfl)
@[simp ↓] theorem updMld_pwr (s : State) (f : MouldState → MouldState) : (updMld s f).pwr = s.pwr := (rfl)
@[simp ↓] theorem updMld_mld (s : State) (f : MouldState → MouldState) : (updMld s f).mld = f s.mld := (rfl)
@[simp ↓] theorem updMld_gals (s : State) (f : MouldState → MouldState) : (updMld s f).gals = s.gals := (rfl)
@[simp ↓] theorem updMld_galv (s : State) (f : MouldState → MouldState) : (updMld s f).galv = s.galv := (rfl)
@[simp ↓] theorem updMld_mbxSel (s : State) (f : MouldState → MouldState) : (updMld s f).mbxSel = s.mbxSel := (rfl)
@[simp ↓] theorem updMld_mbxPending (s : State) (f : MouldState → MouldState) : (updMld s f).mbxPending = s.mbxPending := (rfl)
@[simp ↓] theorem updMld_mbxAcked (s : State) (f : MouldState → MouldState) : (updMld s f).mbxAcked = s.mbxAcked := (rfl)
@[simp ↓] theorem updMld_sqs (s : State) (f : MouldState → MouldState) : (updMld s f).sqs = s.sqs := (rfl)
@[simp ↓] theorem updMld_cqs (s : State) (f : MouldState → MouldState) : (updMld s f).cqs = s.cqs := (rfl)
@[simp ↓] theorem updMld_reads (s : State) (f : MouldState → MouldState) : (updMld s f).reads = s.reads := (rfl)
@[simp ↓] theorem updMld_nextRid (s : State) (f : MouldState → MouldState) : (updMld s f).nextRid = s.nextRid := (rfl)
@[simp ↓] theorem updMld_jobs (s : State) (f : MouldState → MouldState) : (updMld s f).jobs = s.jobs := (rfl)
@[simp ↓] theorem updMld_nextJob (s : State) (f : MouldState → MouldState) : (updMld s f).nextJob = s.nextJob := (rfl)
@[simp ↓] theorem updMld_adm (s : State) (f : MouldState → MouldState) : (updMld s f).adm = s.adm := (rfl)
@[simp ↓] theorem updMld_nextSeq (s : State) (f : MouldState → MouldState) : (updMld s f).nextSeq = s.nextSeq := (rfl)
@[simp ↓] theorem updMld_lanes (s : State) (f : MouldState → MouldState) : (updMld s f).lanes = s.lanes := (rfl)
@[simp ↓] theorem updMld_cup (s : State) (f : MouldState → MouldState) : (updMld s f).cup = s.cup := (rfl)
@[simp ↓] theorem updMld_srm (s : State) (f : MouldState → MouldState) : (updMld s f).srm = s.srm := (rfl)
@[simp ↓] theorem updMld_cus (s : State) (f : MouldState → MouldState) : (updMld s f).cus = s.cus := (rfl)
@[simp ↓] theorem updMld_arc (s : State) (f : MouldState → MouldState) : (updMld s f).arc = s.arc := (rfl)
@[simp ↓] theorem updMld_lcs (s : State) (f : MouldState → MouldState) : (updMld s f).lcs = s.lcs := (rfl)
@[simp ↓] theorem updMld_wld (s : State) (f : MouldState → MouldState) : (updMld s f).wld = s.wld := (rfl)
@[simp ↓] theorem updMld_lcu (s : State) (f : MouldState → MouldState) : (updMld s f).lcu = s.lcu := (rfl)
@[simp ↓] theorem updMld_cores (s : State) (f : MouldState → MouldState) : (updMld s f).cores = s.cores := (rfl)
@[simp ↓] theorem updMld_rng (s : State) (f : MouldState → MouldState) : (updMld s f).rng = s.rng := (rfl)
@[simp ↓] theorem updMld_flt (s : State) (f : MouldState → MouldState) : (updMld s f).flt = s.flt := (rfl)
@[simp ↓] theorem updMld_tmp (s : State) (f : MouldState → MouldState) : (updMld s f).tmp = s.tmp := (rfl)
@[simp ↓] theorem updMld_rcd (s : State) (f : MouldState → MouldState) : (updMld s f).rcd = s.rcd := (rfl)
@[simp ↓] theorem updMld_spn (s : State) (f : MouldState → MouldState) : (updMld s f).spn = s.spn := (rfl)
@[simp ↓] theorem updMld_chn (s : State) (f : MouldState → MouldState) : (updMld s f).chn = s.chn := (rfl)
@[simp ↓] theorem updMld_hst (s : State) (f : MouldState → MouldState) : (updMld s f).hst = s.hst := (rfl)
@[simp ↓] theorem updMld_mem (s : State) (f : MouldState → MouldState) : (updMld s f).mem = s.mem := (rfl)

/-! `updPwr` -/
@[simp ↓] theorem updPwr_pending (s : State) (f : Power → Power) : (updPwr s f).pending = s.pending := (rfl)
@[simp ↓] theorem updPwr_freeCtr (s : State) (f : Power → Power) : (updPwr s f).freeCtr = s.freeCtr := (rfl)
@[simp ↓] theorem updPwr_response (s : State) (f : Power → Power) : (updPwr s f).response = s.response := (rfl)
@[simp ↓] theorem updPwr_out (s : State) (f : Power → Power) : (updPwr s f).out = s.out := (rfl)
@[simp ↓] theorem updPwr_atr (s : State) (f : Power → Power) : (updPwr s f).atr = s.atr := (rfl)
@[simp ↓] theorem updPwr_gen (s : State) (f : Power → Power) : (updPwr s f).gen = s.gen := (rfl)
@[simp ↓] theorem updPwr_pwr (s : State) (f : Power → Power) : (updPwr s f).pwr = f s.pwr := (rfl)
@[simp ↓] theorem updPwr_mld (s : State) (f : Power → Power) : (updPwr s f).mld = s.mld := (rfl)
@[simp ↓] theorem updPwr_gals (s : State) (f : Power → Power) : (updPwr s f).gals = s.gals := (rfl)
@[simp ↓] theorem updPwr_galv (s : State) (f : Power → Power) : (updPwr s f).galv = s.galv := (rfl)
@[simp ↓] theorem updPwr_mbxSel (s : State) (f : Power → Power) : (updPwr s f).mbxSel = s.mbxSel := (rfl)
@[simp ↓] theorem updPwr_mbxPending (s : State) (f : Power → Power) : (updPwr s f).mbxPending = s.mbxPending := (rfl)
@[simp ↓] theorem updPwr_mbxAcked (s : State) (f : Power → Power) : (updPwr s f).mbxAcked = s.mbxAcked := (rfl)
@[simp ↓] theorem updPwr_sqs (s : State) (f : Power → Power) : (updPwr s f).sqs = s.sqs := (rfl)
@[simp ↓] theorem updPwr_cqs (s : State) (f : Power → Power) : (updPwr s f).cqs = s.cqs := (rfl)
@[simp ↓] theorem updPwr_reads (s : State) (f : Power → Power) : (updPwr s f).reads = s.reads := (rfl)
@[simp ↓] theorem updPwr_nextRid (s : State) (f : Power → Power) : (updPwr s f).nextRid = s.nextRid := (rfl)
@[simp ↓] theorem updPwr_jobs (s : State) (f : Power → Power) : (updPwr s f).jobs = s.jobs := (rfl)
@[simp ↓] theorem updPwr_nextJob (s : State) (f : Power → Power) : (updPwr s f).nextJob = s.nextJob := (rfl)
@[simp ↓] theorem updPwr_adm (s : State) (f : Power → Power) : (updPwr s f).adm = s.adm := (rfl)
@[simp ↓] theorem updPwr_nextSeq (s : State) (f : Power → Power) : (updPwr s f).nextSeq = s.nextSeq := (rfl)
@[simp ↓] theorem updPwr_lanes (s : State) (f : Power → Power) : (updPwr s f).lanes = s.lanes := (rfl)
@[simp ↓] theorem updPwr_cup (s : State) (f : Power → Power) : (updPwr s f).cup = s.cup := (rfl)
@[simp ↓] theorem updPwr_srm (s : State) (f : Power → Power) : (updPwr s f).srm = s.srm := (rfl)
@[simp ↓] theorem updPwr_cus (s : State) (f : Power → Power) : (updPwr s f).cus = s.cus := (rfl)
@[simp ↓] theorem updPwr_arc (s : State) (f : Power → Power) : (updPwr s f).arc = s.arc := (rfl)
@[simp ↓] theorem updPwr_lcs (s : State) (f : Power → Power) : (updPwr s f).lcs = s.lcs := (rfl)
@[simp ↓] theorem updPwr_wld (s : State) (f : Power → Power) : (updPwr s f).wld = s.wld := (rfl)
@[simp ↓] theorem updPwr_lcu (s : State) (f : Power → Power) : (updPwr s f).lcu = s.lcu := (rfl)
@[simp ↓] theorem updPwr_cores (s : State) (f : Power → Power) : (updPwr s f).cores = s.cores := (rfl)
@[simp ↓] theorem updPwr_rng (s : State) (f : Power → Power) : (updPwr s f).rng = s.rng := (rfl)
@[simp ↓] theorem updPwr_flt (s : State) (f : Power → Power) : (updPwr s f).flt = s.flt := (rfl)
@[simp ↓] theorem updPwr_tmp (s : State) (f : Power → Power) : (updPwr s f).tmp = s.tmp := (rfl)
@[simp ↓] theorem updPwr_rcd (s : State) (f : Power → Power) : (updPwr s f).rcd = s.rcd := (rfl)
@[simp ↓] theorem updPwr_spn (s : State) (f : Power → Power) : (updPwr s f).spn = s.spn := (rfl)
@[simp ↓] theorem updPwr_chn (s : State) (f : Power → Power) : (updPwr s f).chn = s.chn := (rfl)
@[simp ↓] theorem updPwr_hst (s : State) (f : Power → Power) : (updPwr s f).hst = s.hst := (rfl)
@[simp ↓] theorem updPwr_mem (s : State) (f : Power → Power) : (updPwr s f).mem = s.mem := (rfl)

/-! `updSpn` -/
@[simp ↓] theorem updSpn_pending (s : State) (f : Span → Span) : (updSpn s f).pending = s.pending := (rfl)
@[simp ↓] theorem updSpn_freeCtr (s : State) (f : Span → Span) : (updSpn s f).freeCtr = s.freeCtr := (rfl)
@[simp ↓] theorem updSpn_response (s : State) (f : Span → Span) : (updSpn s f).response = s.response := (rfl)
@[simp ↓] theorem updSpn_out (s : State) (f : Span → Span) : (updSpn s f).out = s.out := (rfl)
@[simp ↓] theorem updSpn_atr (s : State) (f : Span → Span) : (updSpn s f).atr = s.atr := (rfl)
@[simp ↓] theorem updSpn_gen (s : State) (f : Span → Span) : (updSpn s f).gen = s.gen := (rfl)
@[simp ↓] theorem updSpn_pwr (s : State) (f : Span → Span) : (updSpn s f).pwr = s.pwr := (rfl)
@[simp ↓] theorem updSpn_mld (s : State) (f : Span → Span) : (updSpn s f).mld = s.mld := (rfl)
@[simp ↓] theorem updSpn_gals (s : State) (f : Span → Span) : (updSpn s f).gals = s.gals := (rfl)
@[simp ↓] theorem updSpn_galv (s : State) (f : Span → Span) : (updSpn s f).galv = s.galv := (rfl)
@[simp ↓] theorem updSpn_mbxSel (s : State) (f : Span → Span) : (updSpn s f).mbxSel = s.mbxSel := (rfl)
@[simp ↓] theorem updSpn_mbxPending (s : State) (f : Span → Span) : (updSpn s f).mbxPending = s.mbxPending := (rfl)
@[simp ↓] theorem updSpn_mbxAcked (s : State) (f : Span → Span) : (updSpn s f).mbxAcked = s.mbxAcked := (rfl)
@[simp ↓] theorem updSpn_sqs (s : State) (f : Span → Span) : (updSpn s f).sqs = s.sqs := (rfl)
@[simp ↓] theorem updSpn_cqs (s : State) (f : Span → Span) : (updSpn s f).cqs = s.cqs := (rfl)
@[simp ↓] theorem updSpn_reads (s : State) (f : Span → Span) : (updSpn s f).reads = s.reads := (rfl)
@[simp ↓] theorem updSpn_nextRid (s : State) (f : Span → Span) : (updSpn s f).nextRid = s.nextRid := (rfl)
@[simp ↓] theorem updSpn_jobs (s : State) (f : Span → Span) : (updSpn s f).jobs = s.jobs := (rfl)
@[simp ↓] theorem updSpn_nextJob (s : State) (f : Span → Span) : (updSpn s f).nextJob = s.nextJob := (rfl)
@[simp ↓] theorem updSpn_adm (s : State) (f : Span → Span) : (updSpn s f).adm = s.adm := (rfl)
@[simp ↓] theorem updSpn_nextSeq (s : State) (f : Span → Span) : (updSpn s f).nextSeq = s.nextSeq := (rfl)
@[simp ↓] theorem updSpn_lanes (s : State) (f : Span → Span) : (updSpn s f).lanes = s.lanes := (rfl)
@[simp ↓] theorem updSpn_cup (s : State) (f : Span → Span) : (updSpn s f).cup = s.cup := (rfl)
@[simp ↓] theorem updSpn_srm (s : State) (f : Span → Span) : (updSpn s f).srm = s.srm := (rfl)
@[simp ↓] theorem updSpn_cus (s : State) (f : Span → Span) : (updSpn s f).cus = s.cus := (rfl)
@[simp ↓] theorem updSpn_arc (s : State) (f : Span → Span) : (updSpn s f).arc = s.arc := (rfl)
@[simp ↓] theorem updSpn_lcs (s : State) (f : Span → Span) : (updSpn s f).lcs = s.lcs := (rfl)
@[simp ↓] theorem updSpn_wld (s : State) (f : Span → Span) : (updSpn s f).wld = s.wld := (rfl)
@[simp ↓] theorem updSpn_lcu (s : State) (f : Span → Span) : (updSpn s f).lcu = s.lcu := (rfl)
@[simp ↓] theorem updSpn_cores (s : State) (f : Span → Span) : (updSpn s f).cores = s.cores := (rfl)
@[simp ↓] theorem updSpn_rng (s : State) (f : Span → Span) : (updSpn s f).rng = s.rng := (rfl)
@[simp ↓] theorem updSpn_flt (s : State) (f : Span → Span) : (updSpn s f).flt = s.flt := (rfl)
@[simp ↓] theorem updSpn_tmp (s : State) (f : Span → Span) : (updSpn s f).tmp = s.tmp := (rfl)
@[simp ↓] theorem updSpn_rcd (s : State) (f : Span → Span) : (updSpn s f).rcd = s.rcd := (rfl)
@[simp ↓] theorem updSpn_spn (s : State) (f : Span → Span) : (updSpn s f).spn = f s.spn := (rfl)
@[simp ↓] theorem updSpn_chn (s : State) (f : Span → Span) : (updSpn s f).chn = s.chn := (rfl)
@[simp ↓] theorem updSpn_hst (s : State) (f : Span → Span) : (updSpn s f).hst = s.hst := (rfl)
@[simp ↓] theorem updSpn_mem (s : State) (f : Span → Span) : (updSpn s f).mem = s.mem := (rfl)

/-! `updCup` -/
@[simp ↓] theorem updCup_pending (s : State) (f : Cupola → Cupola) : (updCup s f).pending = s.pending := (rfl)
@[simp ↓] theorem updCup_freeCtr (s : State) (f : Cupola → Cupola) : (updCup s f).freeCtr = s.freeCtr := (rfl)
@[simp ↓] theorem updCup_response (s : State) (f : Cupola → Cupola) : (updCup s f).response = s.response := (rfl)
@[simp ↓] theorem updCup_out (s : State) (f : Cupola → Cupola) : (updCup s f).out = s.out := (rfl)
@[simp ↓] theorem updCup_atr (s : State) (f : Cupola → Cupola) : (updCup s f).atr = s.atr := (rfl)
@[simp ↓] theorem updCup_gen (s : State) (f : Cupola → Cupola) : (updCup s f).gen = s.gen := (rfl)
@[simp ↓] theorem updCup_pwr (s : State) (f : Cupola → Cupola) : (updCup s f).pwr = s.pwr := (rfl)
@[simp ↓] theorem updCup_mld (s : State) (f : Cupola → Cupola) : (updCup s f).mld = s.mld := (rfl)
@[simp ↓] theorem updCup_gals (s : State) (f : Cupola → Cupola) : (updCup s f).gals = s.gals := (rfl)
@[simp ↓] theorem updCup_galv (s : State) (f : Cupola → Cupola) : (updCup s f).galv = s.galv := (rfl)
@[simp ↓] theorem updCup_mbxSel (s : State) (f : Cupola → Cupola) : (updCup s f).mbxSel = s.mbxSel := (rfl)
@[simp ↓] theorem updCup_mbxPending (s : State) (f : Cupola → Cupola) : (updCup s f).mbxPending = s.mbxPending := (rfl)
@[simp ↓] theorem updCup_mbxAcked (s : State) (f : Cupola → Cupola) : (updCup s f).mbxAcked = s.mbxAcked := (rfl)
@[simp ↓] theorem updCup_sqs (s : State) (f : Cupola → Cupola) : (updCup s f).sqs = s.sqs := (rfl)
@[simp ↓] theorem updCup_cqs (s : State) (f : Cupola → Cupola) : (updCup s f).cqs = s.cqs := (rfl)
@[simp ↓] theorem updCup_reads (s : State) (f : Cupola → Cupola) : (updCup s f).reads = s.reads := (rfl)
@[simp ↓] theorem updCup_nextRid (s : State) (f : Cupola → Cupola) : (updCup s f).nextRid = s.nextRid := (rfl)
@[simp ↓] theorem updCup_jobs (s : State) (f : Cupola → Cupola) : (updCup s f).jobs = s.jobs := (rfl)
@[simp ↓] theorem updCup_nextJob (s : State) (f : Cupola → Cupola) : (updCup s f).nextJob = s.nextJob := (rfl)
@[simp ↓] theorem updCup_adm (s : State) (f : Cupola → Cupola) : (updCup s f).adm = s.adm := (rfl)
@[simp ↓] theorem updCup_nextSeq (s : State) (f : Cupola → Cupola) : (updCup s f).nextSeq = s.nextSeq := (rfl)
@[simp ↓] theorem updCup_lanes (s : State) (f : Cupola → Cupola) : (updCup s f).lanes = s.lanes := (rfl)
@[simp ↓] theorem updCup_cup (s : State) (f : Cupola → Cupola) : (updCup s f).cup = f s.cup := (rfl)
@[simp ↓] theorem updCup_srm (s : State) (f : Cupola → Cupola) : (updCup s f).srm = s.srm := (rfl)
@[simp ↓] theorem updCup_cus (s : State) (f : Cupola → Cupola) : (updCup s f).cus = s.cus := (rfl)
@[simp ↓] theorem updCup_arc (s : State) (f : Cupola → Cupola) : (updCup s f).arc = s.arc := (rfl)
@[simp ↓] theorem updCup_lcs (s : State) (f : Cupola → Cupola) : (updCup s f).lcs = s.lcs := (rfl)
@[simp ↓] theorem updCup_wld (s : State) (f : Cupola → Cupola) : (updCup s f).wld = s.wld := (rfl)
@[simp ↓] theorem updCup_lcu (s : State) (f : Cupola → Cupola) : (updCup s f).lcu = s.lcu := (rfl)
@[simp ↓] theorem updCup_cores (s : State) (f : Cupola → Cupola) : (updCup s f).cores = s.cores := (rfl)
@[simp ↓] theorem updCup_rng (s : State) (f : Cupola → Cupola) : (updCup s f).rng = s.rng := (rfl)
@[simp ↓] theorem updCup_flt (s : State) (f : Cupola → Cupola) : (updCup s f).flt = s.flt := (rfl)
@[simp ↓] theorem updCup_tmp (s : State) (f : Cupola → Cupola) : (updCup s f).tmp = s.tmp := (rfl)
@[simp ↓] theorem updCup_rcd (s : State) (f : Cupola → Cupola) : (updCup s f).rcd = s.rcd := (rfl)
@[simp ↓] theorem updCup_spn (s : State) (f : Cupola → Cupola) : (updCup s f).spn = s.spn := (rfl)
@[simp ↓] theorem updCup_chn (s : State) (f : Cupola → Cupola) : (updCup s f).chn = s.chn := (rfl)
@[simp ↓] theorem updCup_hst (s : State) (f : Cupola → Cupola) : (updCup s f).hst = s.hst := (rfl)
@[simp ↓] theorem updCup_mem (s : State) (f : Cupola → Cupola) : (updCup s f).mem = s.mem := (rfl)

/-! `updTmp` -/
@[simp ↓] theorem updTmp_pending (s : State) (f : Tamper → Tamper) : (updTmp s f).pending = s.pending := (rfl)
@[simp ↓] theorem updTmp_freeCtr (s : State) (f : Tamper → Tamper) : (updTmp s f).freeCtr = s.freeCtr := (rfl)
@[simp ↓] theorem updTmp_response (s : State) (f : Tamper → Tamper) : (updTmp s f).response = s.response := (rfl)
@[simp ↓] theorem updTmp_out (s : State) (f : Tamper → Tamper) : (updTmp s f).out = s.out := (rfl)
@[simp ↓] theorem updTmp_atr (s : State) (f : Tamper → Tamper) : (updTmp s f).atr = s.atr := (rfl)
@[simp ↓] theorem updTmp_gen (s : State) (f : Tamper → Tamper) : (updTmp s f).gen = s.gen := (rfl)
@[simp ↓] theorem updTmp_pwr (s : State) (f : Tamper → Tamper) : (updTmp s f).pwr = s.pwr := (rfl)
@[simp ↓] theorem updTmp_mld (s : State) (f : Tamper → Tamper) : (updTmp s f).mld = s.mld := (rfl)
@[simp ↓] theorem updTmp_gals (s : State) (f : Tamper → Tamper) : (updTmp s f).gals = s.gals := (rfl)
@[simp ↓] theorem updTmp_galv (s : State) (f : Tamper → Tamper) : (updTmp s f).galv = s.galv := (rfl)
@[simp ↓] theorem updTmp_mbxSel (s : State) (f : Tamper → Tamper) : (updTmp s f).mbxSel = s.mbxSel := (rfl)
@[simp ↓] theorem updTmp_mbxPending (s : State) (f : Tamper → Tamper) : (updTmp s f).mbxPending = s.mbxPending := (rfl)
@[simp ↓] theorem updTmp_mbxAcked (s : State) (f : Tamper → Tamper) : (updTmp s f).mbxAcked = s.mbxAcked := (rfl)
@[simp ↓] theorem updTmp_sqs (s : State) (f : Tamper → Tamper) : (updTmp s f).sqs = s.sqs := (rfl)
@[simp ↓] theorem updTmp_cqs (s : State) (f : Tamper → Tamper) : (updTmp s f).cqs = s.cqs := (rfl)
@[simp ↓] theorem updTmp_reads (s : State) (f : Tamper → Tamper) : (updTmp s f).reads = s.reads := (rfl)
@[simp ↓] theorem updTmp_nextRid (s : State) (f : Tamper → Tamper) : (updTmp s f).nextRid = s.nextRid := (rfl)
@[simp ↓] theorem updTmp_jobs (s : State) (f : Tamper → Tamper) : (updTmp s f).jobs = s.jobs := (rfl)
@[simp ↓] theorem updTmp_nextJob (s : State) (f : Tamper → Tamper) : (updTmp s f).nextJob = s.nextJob := (rfl)
@[simp ↓] theorem updTmp_adm (s : State) (f : Tamper → Tamper) : (updTmp s f).adm = s.adm := (rfl)
@[simp ↓] theorem updTmp_nextSeq (s : State) (f : Tamper → Tamper) : (updTmp s f).nextSeq = s.nextSeq := (rfl)
@[simp ↓] theorem updTmp_lanes (s : State) (f : Tamper → Tamper) : (updTmp s f).lanes = s.lanes := (rfl)
@[simp ↓] theorem updTmp_cup (s : State) (f : Tamper → Tamper) : (updTmp s f).cup = s.cup := (rfl)
@[simp ↓] theorem updTmp_srm (s : State) (f : Tamper → Tamper) : (updTmp s f).srm = s.srm := (rfl)
@[simp ↓] theorem updTmp_cus (s : State) (f : Tamper → Tamper) : (updTmp s f).cus = s.cus := (rfl)
@[simp ↓] theorem updTmp_arc (s : State) (f : Tamper → Tamper) : (updTmp s f).arc = s.arc := (rfl)
@[simp ↓] theorem updTmp_lcs (s : State) (f : Tamper → Tamper) : (updTmp s f).lcs = s.lcs := (rfl)
@[simp ↓] theorem updTmp_wld (s : State) (f : Tamper → Tamper) : (updTmp s f).wld = s.wld := (rfl)
@[simp ↓] theorem updTmp_lcu (s : State) (f : Tamper → Tamper) : (updTmp s f).lcu = s.lcu := (rfl)
@[simp ↓] theorem updTmp_cores (s : State) (f : Tamper → Tamper) : (updTmp s f).cores = s.cores := (rfl)
@[simp ↓] theorem updTmp_rng (s : State) (f : Tamper → Tamper) : (updTmp s f).rng = s.rng := (rfl)
@[simp ↓] theorem updTmp_flt (s : State) (f : Tamper → Tamper) : (updTmp s f).flt = s.flt := (rfl)
@[simp ↓] theorem updTmp_tmp (s : State) (f : Tamper → Tamper) : (updTmp s f).tmp = f s.tmp := (rfl)
@[simp ↓] theorem updTmp_rcd (s : State) (f : Tamper → Tamper) : (updTmp s f).rcd = s.rcd := (rfl)
@[simp ↓] theorem updTmp_spn (s : State) (f : Tamper → Tamper) : (updTmp s f).spn = s.spn := (rfl)
@[simp ↓] theorem updTmp_chn (s : State) (f : Tamper → Tamper) : (updTmp s f).chn = s.chn := (rfl)
@[simp ↓] theorem updTmp_hst (s : State) (f : Tamper → Tamper) : (updTmp s f).hst = s.hst := (rfl)
@[simp ↓] theorem updTmp_mem (s : State) (f : Tamper → Tamper) : (updTmp s f).mem = s.mem := (rfl)

/-! `updFlt` -/
@[simp ↓] theorem updFlt_pending (s : State) (f : Faults → Faults) : (updFlt s f).pending = s.pending := (rfl)
@[simp ↓] theorem updFlt_freeCtr (s : State) (f : Faults → Faults) : (updFlt s f).freeCtr = s.freeCtr := (rfl)
@[simp ↓] theorem updFlt_response (s : State) (f : Faults → Faults) : (updFlt s f).response = s.response := (rfl)
@[simp ↓] theorem updFlt_out (s : State) (f : Faults → Faults) : (updFlt s f).out = s.out := (rfl)
@[simp ↓] theorem updFlt_atr (s : State) (f : Faults → Faults) : (updFlt s f).atr = s.atr := (rfl)
@[simp ↓] theorem updFlt_gen (s : State) (f : Faults → Faults) : (updFlt s f).gen = s.gen := (rfl)
@[simp ↓] theorem updFlt_pwr (s : State) (f : Faults → Faults) : (updFlt s f).pwr = s.pwr := (rfl)
@[simp ↓] theorem updFlt_mld (s : State) (f : Faults → Faults) : (updFlt s f).mld = s.mld := (rfl)
@[simp ↓] theorem updFlt_gals (s : State) (f : Faults → Faults) : (updFlt s f).gals = s.gals := (rfl)
@[simp ↓] theorem updFlt_galv (s : State) (f : Faults → Faults) : (updFlt s f).galv = s.galv := (rfl)
@[simp ↓] theorem updFlt_mbxSel (s : State) (f : Faults → Faults) : (updFlt s f).mbxSel = s.mbxSel := (rfl)
@[simp ↓] theorem updFlt_mbxPending (s : State) (f : Faults → Faults) : (updFlt s f).mbxPending = s.mbxPending := (rfl)
@[simp ↓] theorem updFlt_mbxAcked (s : State) (f : Faults → Faults) : (updFlt s f).mbxAcked = s.mbxAcked := (rfl)
@[simp ↓] theorem updFlt_sqs (s : State) (f : Faults → Faults) : (updFlt s f).sqs = s.sqs := (rfl)
@[simp ↓] theorem updFlt_cqs (s : State) (f : Faults → Faults) : (updFlt s f).cqs = s.cqs := (rfl)
@[simp ↓] theorem updFlt_reads (s : State) (f : Faults → Faults) : (updFlt s f).reads = s.reads := (rfl)
@[simp ↓] theorem updFlt_nextRid (s : State) (f : Faults → Faults) : (updFlt s f).nextRid = s.nextRid := (rfl)
@[simp ↓] theorem updFlt_jobs (s : State) (f : Faults → Faults) : (updFlt s f).jobs = s.jobs := (rfl)
@[simp ↓] theorem updFlt_nextJob (s : State) (f : Faults → Faults) : (updFlt s f).nextJob = s.nextJob := (rfl)
@[simp ↓] theorem updFlt_adm (s : State) (f : Faults → Faults) : (updFlt s f).adm = s.adm := (rfl)
@[simp ↓] theorem updFlt_nextSeq (s : State) (f : Faults → Faults) : (updFlt s f).nextSeq = s.nextSeq := (rfl)
@[simp ↓] theorem updFlt_lanes (s : State) (f : Faults → Faults) : (updFlt s f).lanes = s.lanes := (rfl)
@[simp ↓] theorem updFlt_cup (s : State) (f : Faults → Faults) : (updFlt s f).cup = s.cup := (rfl)
@[simp ↓] theorem updFlt_srm (s : State) (f : Faults → Faults) : (updFlt s f).srm = s.srm := (rfl)
@[simp ↓] theorem updFlt_cus (s : State) (f : Faults → Faults) : (updFlt s f).cus = s.cus := (rfl)
@[simp ↓] theorem updFlt_arc (s : State) (f : Faults → Faults) : (updFlt s f).arc = s.arc := (rfl)
@[simp ↓] theorem updFlt_lcs (s : State) (f : Faults → Faults) : (updFlt s f).lcs = s.lcs := (rfl)
@[simp ↓] theorem updFlt_wld (s : State) (f : Faults → Faults) : (updFlt s f).wld = s.wld := (rfl)
@[simp ↓] theorem updFlt_lcu (s : State) (f : Faults → Faults) : (updFlt s f).lcu = s.lcu := (rfl)
@[simp ↓] theorem updFlt_cores (s : State) (f : Faults → Faults) : (updFlt s f).cores = s.cores := (rfl)
@[simp ↓] theorem updFlt_rng (s : State) (f : Faults → Faults) : (updFlt s f).rng = s.rng := (rfl)
@[simp ↓] theorem updFlt_flt (s : State) (f : Faults → Faults) : (updFlt s f).flt = f s.flt := (rfl)
@[simp ↓] theorem updFlt_tmp (s : State) (f : Faults → Faults) : (updFlt s f).tmp = s.tmp := (rfl)
@[simp ↓] theorem updFlt_rcd (s : State) (f : Faults → Faults) : (updFlt s f).rcd = s.rcd := (rfl)
@[simp ↓] theorem updFlt_spn (s : State) (f : Faults → Faults) : (updFlt s f).spn = s.spn := (rfl)
@[simp ↓] theorem updFlt_chn (s : State) (f : Faults → Faults) : (updFlt s f).chn = s.chn := (rfl)
@[simp ↓] theorem updFlt_hst (s : State) (f : Faults → Faults) : (updFlt s f).hst = s.hst := (rfl)
@[simp ↓] theorem updFlt_mem (s : State) (f : Faults → Faults) : (updFlt s f).mem = s.mem := (rfl)

/-! `updSrc` -/
@[simp ↓] theorem updSrc_pending (s : State) (n : Nat) (f : FaultSrc → FaultSrc) : (updSrc s n f).pending = s.pending := (rfl)
@[simp ↓] theorem updSrc_freeCtr (s : State) (n : Nat) (f : FaultSrc → FaultSrc) : (updSrc s n f).freeCtr = s.freeCtr := (rfl)
@[simp ↓] theorem updSrc_response (s : State) (n : Nat) (f : FaultSrc → FaultSrc) : (updSrc s n f).response = s.response := (rfl)
@[simp ↓] theorem updSrc_out (s : State) (n : Nat) (f : FaultSrc → FaultSrc) : (updSrc s n f).out = s.out := (rfl)
@[simp ↓] theorem updSrc_atr (s : State) (n : Nat) (f : FaultSrc → FaultSrc) : (updSrc s n f).atr = s.atr := (rfl)
@[simp ↓] theorem updSrc_gen (s : State) (n : Nat) (f : FaultSrc → FaultSrc) : (updSrc s n f).gen = s.gen := (rfl)
@[simp ↓] theorem updSrc_pwr (s : State) (n : Nat) (f : FaultSrc → FaultSrc) : (updSrc s n f).pwr = s.pwr := (rfl)
@[simp ↓] theorem updSrc_mld (s : State) (n : Nat) (f : FaultSrc → FaultSrc) : (updSrc s n f).mld = s.mld := (rfl)
@[simp ↓] theorem updSrc_gals (s : State) (n : Nat) (f : FaultSrc → FaultSrc) : (updSrc s n f).gals = s.gals := (rfl)
@[simp ↓] theorem updSrc_galv (s : State) (n : Nat) (f : FaultSrc → FaultSrc) : (updSrc s n f).galv = s.galv := (rfl)
@[simp ↓] theorem updSrc_mbxSel (s : State) (n : Nat) (f : FaultSrc → FaultSrc) : (updSrc s n f).mbxSel = s.mbxSel := (rfl)
@[simp ↓] theorem updSrc_mbxPending (s : State) (n : Nat) (f : FaultSrc → FaultSrc) : (updSrc s n f).mbxPending = s.mbxPending := (rfl)
@[simp ↓] theorem updSrc_mbxAcked (s : State) (n : Nat) (f : FaultSrc → FaultSrc) : (updSrc s n f).mbxAcked = s.mbxAcked := (rfl)
@[simp ↓] theorem updSrc_sqs (s : State) (n : Nat) (f : FaultSrc → FaultSrc) : (updSrc s n f).sqs = s.sqs := (rfl)
@[simp ↓] theorem updSrc_cqs (s : State) (n : Nat) (f : FaultSrc → FaultSrc) : (updSrc s n f).cqs = s.cqs := (rfl)
@[simp ↓] theorem updSrc_reads (s : State) (n : Nat) (f : FaultSrc → FaultSrc) : (updSrc s n f).reads = s.reads := (rfl)
@[simp ↓] theorem updSrc_nextRid (s : State) (n : Nat) (f : FaultSrc → FaultSrc) : (updSrc s n f).nextRid = s.nextRid := (rfl)
@[simp ↓] theorem updSrc_jobs (s : State) (n : Nat) (f : FaultSrc → FaultSrc) : (updSrc s n f).jobs = s.jobs := (rfl)
@[simp ↓] theorem updSrc_nextJob (s : State) (n : Nat) (f : FaultSrc → FaultSrc) : (updSrc s n f).nextJob = s.nextJob := (rfl)
@[simp ↓] theorem updSrc_adm (s : State) (n : Nat) (f : FaultSrc → FaultSrc) : (updSrc s n f).adm = s.adm := (rfl)
@[simp ↓] theorem updSrc_nextSeq (s : State) (n : Nat) (f : FaultSrc → FaultSrc) : (updSrc s n f).nextSeq = s.nextSeq := (rfl)
@[simp ↓] theorem updSrc_lanes (s : State) (n : Nat) (f : FaultSrc → FaultSrc) : (updSrc s n f).lanes = s.lanes := (rfl)
@[simp ↓] theorem updSrc_cup (s : State) (n : Nat) (f : FaultSrc → FaultSrc) : (updSrc s n f).cup = s.cup := (rfl)
@[simp ↓] theorem updSrc_srm (s : State) (n : Nat) (f : FaultSrc → FaultSrc) : (updSrc s n f).srm = s.srm := (rfl)
@[simp ↓] theorem updSrc_cus (s : State) (n : Nat) (f : FaultSrc → FaultSrc) : (updSrc s n f).cus = s.cus := (rfl)
@[simp ↓] theorem updSrc_arc (s : State) (n : Nat) (f : FaultSrc → FaultSrc) : (updSrc s n f).arc = s.arc := (rfl)
@[simp ↓] theorem updSrc_lcs (s : State) (n : Nat) (f : FaultSrc → FaultSrc) : (updSrc s n f).lcs = s.lcs := (rfl)
@[simp ↓] theorem updSrc_wld (s : State) (n : Nat) (f : FaultSrc → FaultSrc) : (updSrc s n f).wld = s.wld := (rfl)
@[simp ↓] theorem updSrc_lcu (s : State) (n : Nat) (f : FaultSrc → FaultSrc) : (updSrc s n f).lcu = s.lcu := (rfl)
@[simp ↓] theorem updSrc_cores (s : State) (n : Nat) (f : FaultSrc → FaultSrc) : (updSrc s n f).cores = s.cores := (rfl)
@[simp ↓] theorem updSrc_rng (s : State) (n : Nat) (f : FaultSrc → FaultSrc) : (updSrc s n f).rng = s.rng := (rfl)
@[simp ↓] theorem updSrc_tmp (s : State) (n : Nat) (f : FaultSrc → FaultSrc) : (updSrc s n f).tmp = s.tmp := (rfl)
@[simp ↓] theorem updSrc_rcd (s : State) (n : Nat) (f : FaultSrc → FaultSrc) : (updSrc s n f).rcd = s.rcd := (rfl)
@[simp ↓] theorem updSrc_spn (s : State) (n : Nat) (f : FaultSrc → FaultSrc) : (updSrc s n f).spn = s.spn := (rfl)
@[simp ↓] theorem updSrc_chn (s : State) (n : Nat) (f : FaultSrc → FaultSrc) : (updSrc s n f).chn = s.chn := (rfl)
@[simp ↓] theorem updSrc_hst (s : State) (n : Nat) (f : FaultSrc → FaultSrc) : (updSrc s n f).hst = s.hst := (rfl)
@[simp ↓] theorem updSrc_mem (s : State) (n : Nat) (f : FaultSrc → FaultSrc) : (updSrc s n f).mem = s.mem := (rfl)

/-! `updLaneHalf` -/
@[simp ↓] theorem updLaneHalf_pending (s : State) (h : Half) (f : LaneHalf → LaneHalf) : (updLaneHalf s h f).pending = s.pending := (rfl)
@[simp ↓] theorem updLaneHalf_freeCtr (s : State) (h : Half) (f : LaneHalf → LaneHalf) : (updLaneHalf s h f).freeCtr = s.freeCtr := (rfl)
@[simp ↓] theorem updLaneHalf_response (s : State) (h : Half) (f : LaneHalf → LaneHalf) : (updLaneHalf s h f).response = s.response := (rfl)
@[simp ↓] theorem updLaneHalf_out (s : State) (h : Half) (f : LaneHalf → LaneHalf) : (updLaneHalf s h f).out = s.out := (rfl)
@[simp ↓] theorem updLaneHalf_atr (s : State) (h : Half) (f : LaneHalf → LaneHalf) : (updLaneHalf s h f).atr = s.atr := (rfl)
@[simp ↓] theorem updLaneHalf_gen (s : State) (h : Half) (f : LaneHalf → LaneHalf) : (updLaneHalf s h f).gen = s.gen := (rfl)
@[simp ↓] theorem updLaneHalf_pwr (s : State) (h : Half) (f : LaneHalf → LaneHalf) : (updLaneHalf s h f).pwr = s.pwr := (rfl)
@[simp ↓] theorem updLaneHalf_mld (s : State) (h : Half) (f : LaneHalf → LaneHalf) : (updLaneHalf s h f).mld = s.mld := (rfl)
@[simp ↓] theorem updLaneHalf_gals (s : State) (h : Half) (f : LaneHalf → LaneHalf) : (updLaneHalf s h f).gals = s.gals := (rfl)
@[simp ↓] theorem updLaneHalf_galv (s : State) (h : Half) (f : LaneHalf → LaneHalf) : (updLaneHalf s h f).galv = s.galv := (rfl)
@[simp ↓] theorem updLaneHalf_mbxSel (s : State) (h : Half) (f : LaneHalf → LaneHalf) : (updLaneHalf s h f).mbxSel = s.mbxSel := (rfl)
@[simp ↓] theorem updLaneHalf_mbxPending (s : State) (h : Half) (f : LaneHalf → LaneHalf) : (updLaneHalf s h f).mbxPending = s.mbxPending := (rfl)
@[simp ↓] theorem updLaneHalf_mbxAcked (s : State) (h : Half) (f : LaneHalf → LaneHalf) : (updLaneHalf s h f).mbxAcked = s.mbxAcked := (rfl)
@[simp ↓] theorem updLaneHalf_sqs (s : State) (h : Half) (f : LaneHalf → LaneHalf) : (updLaneHalf s h f).sqs = s.sqs := (rfl)
@[simp ↓] theorem updLaneHalf_cqs (s : State) (h : Half) (f : LaneHalf → LaneHalf) : (updLaneHalf s h f).cqs = s.cqs := (rfl)
@[simp ↓] theorem updLaneHalf_reads (s : State) (h : Half) (f : LaneHalf → LaneHalf) : (updLaneHalf s h f).reads = s.reads := (rfl)
@[simp ↓] theorem updLaneHalf_nextRid (s : State) (h : Half) (f : LaneHalf → LaneHalf) : (updLaneHalf s h f).nextRid = s.nextRid := (rfl)
@[simp ↓] theorem updLaneHalf_jobs (s : State) (h : Half) (f : LaneHalf → LaneHalf) : (updLaneHalf s h f).jobs = s.jobs := (rfl)
@[simp ↓] theorem updLaneHalf_nextJob (s : State) (h : Half) (f : LaneHalf → LaneHalf) : (updLaneHalf s h f).nextJob = s.nextJob := (rfl)
@[simp ↓] theorem updLaneHalf_adm (s : State) (h : Half) (f : LaneHalf → LaneHalf) : (updLaneHalf s h f).adm = s.adm := (rfl)
@[simp ↓] theorem updLaneHalf_nextSeq (s : State) (h : Half) (f : LaneHalf → LaneHalf) : (updLaneHalf s h f).nextSeq = s.nextSeq := (rfl)
@[simp ↓] theorem updLaneHalf_cup (s : State) (h : Half) (f : LaneHalf → LaneHalf) : (updLaneHalf s h f).cup = s.cup := (rfl)
@[simp ↓] theorem updLaneHalf_srm (s : State) (h : Half) (f : LaneHalf → LaneHalf) : (updLaneHalf s h f).srm = s.srm := (rfl)
@[simp ↓] theorem updLaneHalf_cus (s : State) (h : Half) (f : LaneHalf → LaneHalf) : (updLaneHalf s h f).cus = s.cus := (rfl)
@[simp ↓] theorem updLaneHalf_arc (s : State) (h : Half) (f : LaneHalf → LaneHalf) : (updLaneHalf s h f).arc = s.arc := (rfl)
@[simp ↓] theorem updLaneHalf_lcs (s : State) (h : Half) (f : LaneHalf → LaneHalf) : (updLaneHalf s h f).lcs = s.lcs := (rfl)
@[simp ↓] theorem updLaneHalf_wld (s : State) (h : Half) (f : LaneHalf → LaneHalf) : (updLaneHalf s h f).wld = s.wld := (rfl)
@[simp ↓] theorem updLaneHalf_lcu (s : State) (h : Half) (f : LaneHalf → LaneHalf) : (updLaneHalf s h f).lcu = s.lcu := (rfl)
@[simp ↓] theorem updLaneHalf_cores (s : State) (h : Half) (f : LaneHalf → LaneHalf) : (updLaneHalf s h f).cores = s.cores := (rfl)
@[simp ↓] theorem updLaneHalf_rng (s : State) (h : Half) (f : LaneHalf → LaneHalf) : (updLaneHalf s h f).rng = s.rng := (rfl)
@[simp ↓] theorem updLaneHalf_flt (s : State) (h : Half) (f : LaneHalf → LaneHalf) : (updLaneHalf s h f).flt = s.flt := (rfl)
@[simp ↓] theorem updLaneHalf_tmp (s : State) (h : Half) (f : LaneHalf → LaneHalf) : (updLaneHalf s h f).tmp = s.tmp := (rfl)
@[simp ↓] theorem updLaneHalf_rcd (s : State) (h : Half) (f : LaneHalf → LaneHalf) : (updLaneHalf s h f).rcd = s.rcd := (rfl)
@[simp ↓] theorem updLaneHalf_spn (s : State) (h : Half) (f : LaneHalf → LaneHalf) : (updLaneHalf s h f).spn = s.spn := (rfl)
@[simp ↓] theorem updLaneHalf_chn (s : State) (h : Half) (f : LaneHalf → LaneHalf) : (updLaneHalf s h f).chn = s.chn := (rfl)
@[simp ↓] theorem updLaneHalf_hst (s : State) (h : Half) (f : LaneHalf → LaneHalf) : (updLaneHalf s h f).hst = s.hst := (rfl)
@[simp ↓] theorem updLaneHalf_mem (s : State) (h : Half) (f : LaneHalf → LaneHalf) : (updLaneHalf s h f).mem = s.mem := (rfl)

/-! `setIp` -/
@[simp ↓] theorem setIp_pending (s : State) (cs : List Nat) (n : Nat) : (setIp s cs n).pending = s.pending := (rfl)
@[simp ↓] theorem setIp_freeCtr (s : State) (cs : List Nat) (n : Nat) : (setIp s cs n).freeCtr = s.freeCtr := (rfl)
@[simp ↓] theorem setIp_response (s : State) (cs : List Nat) (n : Nat) : (setIp s cs n).response = s.response := (rfl)
@[simp ↓] theorem setIp_out (s : State) (cs : List Nat) (n : Nat) : (setIp s cs n).out = s.out := (rfl)
@[simp ↓] theorem setIp_atr (s : State) (cs : List Nat) (n : Nat) : (setIp s cs n).atr = s.atr := (rfl)
@[simp ↓] theorem setIp_gen (s : State) (cs : List Nat) (n : Nat) : (setIp s cs n).gen = s.gen := (rfl)
@[simp ↓] theorem setIp_pwr (s : State) (cs : List Nat) (n : Nat) : (setIp s cs n).pwr = s.pwr := (rfl)
@[simp ↓] theorem setIp_mld (s : State) (cs : List Nat) (n : Nat) : (setIp s cs n).mld = s.mld := (rfl)
@[simp ↓] theorem setIp_gals (s : State) (cs : List Nat) (n : Nat) : (setIp s cs n).gals = s.gals := (rfl)
@[simp ↓] theorem setIp_galv (s : State) (cs : List Nat) (n : Nat) : (setIp s cs n).galv = s.galv := (rfl)
@[simp ↓] theorem setIp_mbxSel (s : State) (cs : List Nat) (n : Nat) : (setIp s cs n).mbxSel = s.mbxSel := (rfl)
@[simp ↓] theorem setIp_mbxPending (s : State) (cs : List Nat) (n : Nat) : (setIp s cs n).mbxPending = s.mbxPending := (rfl)
@[simp ↓] theorem setIp_mbxAcked (s : State) (cs : List Nat) (n : Nat) : (setIp s cs n).mbxAcked = s.mbxAcked := (rfl)
@[simp ↓] theorem setIp_sqs (s : State) (cs : List Nat) (n : Nat) : (setIp s cs n).sqs = s.sqs := (rfl)
@[simp ↓] theorem setIp_cqs (s : State) (cs : List Nat) (n : Nat) : (setIp s cs n).cqs = s.cqs := (rfl)
@[simp ↓] theorem setIp_reads (s : State) (cs : List Nat) (n : Nat) : (setIp s cs n).reads = s.reads := (rfl)
@[simp ↓] theorem setIp_nextRid (s : State) (cs : List Nat) (n : Nat) : (setIp s cs n).nextRid = s.nextRid := (rfl)
@[simp ↓] theorem setIp_jobs (s : State) (cs : List Nat) (n : Nat) : (setIp s cs n).jobs = s.jobs := (rfl)
@[simp ↓] theorem setIp_nextJob (s : State) (cs : List Nat) (n : Nat) : (setIp s cs n).nextJob = s.nextJob := (rfl)
@[simp ↓] theorem setIp_adm (s : State) (cs : List Nat) (n : Nat) : (setIp s cs n).adm = s.adm := (rfl)
@[simp ↓] theorem setIp_nextSeq (s : State) (cs : List Nat) (n : Nat) : (setIp s cs n).nextSeq = s.nextSeq := (rfl)
@[simp ↓] theorem setIp_lanes (s : State) (cs : List Nat) (n : Nat) : (setIp s cs n).lanes = s.lanes := (rfl)
@[simp ↓] theorem setIp_cup (s : State) (cs : List Nat) (n : Nat) : (setIp s cs n).cup = s.cup := (rfl)
@[simp ↓] theorem setIp_srm (s : State) (cs : List Nat) (n : Nat) : (setIp s cs n).srm = s.srm := (rfl)
@[simp ↓] theorem setIp_cus (s : State) (cs : List Nat) (n : Nat) : (setIp s cs n).cus = s.cus := (rfl)
@[simp ↓] theorem setIp_arc (s : State) (cs : List Nat) (n : Nat) : (setIp s cs n).arc = s.arc := (rfl)
@[simp ↓] theorem setIp_lcs (s : State) (cs : List Nat) (n : Nat) : (setIp s cs n).lcs = s.lcs := (rfl)
@[simp ↓] theorem setIp_wld (s : State) (cs : List Nat) (n : Nat) : (setIp s cs n).wld = s.wld := (rfl)
@[simp ↓] theorem setIp_lcu (s : State) (cs : List Nat) (n : Nat) : (setIp s cs n).lcu = s.lcu := (rfl)
@[simp ↓] theorem setIp_rng (s : State) (cs : List Nat) (n : Nat) : (setIp s cs n).rng = s.rng := (rfl)
@[simp ↓] theorem setIp_flt (s : State) (cs : List Nat) (n : Nat) : (setIp s cs n).flt = s.flt := (rfl)
@[simp ↓] theorem setIp_tmp (s : State) (cs : List Nat) (n : Nat) : (setIp s cs n).tmp = s.tmp := (rfl)
@[simp ↓] theorem setIp_rcd (s : State) (cs : List Nat) (n : Nat) : (setIp s cs n).rcd = s.rcd := (rfl)
@[simp ↓] theorem setIp_spn (s : State) (cs : List Nat) (n : Nat) : (setIp s cs n).spn = s.spn := (rfl)
@[simp ↓] theorem setIp_chn (s : State) (cs : List Nat) (n : Nat) : (setIp s cs n).chn = s.chn := (rfl)
@[simp ↓] theorem setIp_hst (s : State) (cs : List Nat) (n : Nat) : (setIp s cs n).hst = s.hst := (rfl)
@[simp ↓] theorem setIp_mem (s : State) (cs : List Nat) (n : Nat) : (setIp s cs n).mem = s.mem := (rfl)

/-! `updAdm` -/
@[simp ↓] theorem updAdm_pending (s : State) (c : AdminCmd) (f : AdminCmd → AdminCmd) : (updAdm s c f).pending = s.pending := (rfl)
@[simp ↓] theorem updAdm_freeCtr (s : State) (c : AdminCmd) (f : AdminCmd → AdminCmd) : (updAdm s c f).freeCtr = s.freeCtr := (rfl)
@[simp ↓] theorem updAdm_response (s : State) (c : AdminCmd) (f : AdminCmd → AdminCmd) : (updAdm s c f).response = s.response := (rfl)
@[simp ↓] theorem updAdm_out (s : State) (c : AdminCmd) (f : AdminCmd → AdminCmd) : (updAdm s c f).out = s.out := (rfl)
@[simp ↓] theorem updAdm_atr (s : State) (c : AdminCmd) (f : AdminCmd → AdminCmd) : (updAdm s c f).atr = s.atr := (rfl)
@[simp ↓] theorem updAdm_gen (s : State) (c : AdminCmd) (f : AdminCmd → AdminCmd) : (updAdm s c f).gen = s.gen := (rfl)
@[simp ↓] theorem updAdm_pwr (s : State) (c : AdminCmd) (f : AdminCmd → AdminCmd) : (updAdm s c f).pwr = s.pwr := (rfl)
@[simp ↓] theorem updAdm_mld (s : State) (c : AdminCmd) (f : AdminCmd → AdminCmd) : (updAdm s c f).mld = s.mld := (rfl)
@[simp ↓] theorem updAdm_gals (s : State) (c : AdminCmd) (f : AdminCmd → AdminCmd) : (updAdm s c f).gals = s.gals := (rfl)
@[simp ↓] theorem updAdm_galv (s : State) (c : AdminCmd) (f : AdminCmd → AdminCmd) : (updAdm s c f).galv = s.galv := (rfl)
@[simp ↓] theorem updAdm_mbxSel (s : State) (c : AdminCmd) (f : AdminCmd → AdminCmd) : (updAdm s c f).mbxSel = s.mbxSel := (rfl)
@[simp ↓] theorem updAdm_mbxPending (s : State) (c : AdminCmd) (f : AdminCmd → AdminCmd) : (updAdm s c f).mbxPending = s.mbxPending := (rfl)
@[simp ↓] theorem updAdm_mbxAcked (s : State) (c : AdminCmd) (f : AdminCmd → AdminCmd) : (updAdm s c f).mbxAcked = s.mbxAcked := (rfl)
@[simp ↓] theorem updAdm_sqs (s : State) (c : AdminCmd) (f : AdminCmd → AdminCmd) : (updAdm s c f).sqs = s.sqs := (rfl)
@[simp ↓] theorem updAdm_cqs (s : State) (c : AdminCmd) (f : AdminCmd → AdminCmd) : (updAdm s c f).cqs = s.cqs := (rfl)
@[simp ↓] theorem updAdm_reads (s : State) (c : AdminCmd) (f : AdminCmd → AdminCmd) : (updAdm s c f).reads = s.reads := (rfl)
@[simp ↓] theorem updAdm_nextRid (s : State) (c : AdminCmd) (f : AdminCmd → AdminCmd) : (updAdm s c f).nextRid = s.nextRid := (rfl)
@[simp ↓] theorem updAdm_jobs (s : State) (c : AdminCmd) (f : AdminCmd → AdminCmd) : (updAdm s c f).jobs = s.jobs := (rfl)
@[simp ↓] theorem updAdm_nextJob (s : State) (c : AdminCmd) (f : AdminCmd → AdminCmd) : (updAdm s c f).nextJob = s.nextJob := (rfl)
@[simp ↓] theorem updAdm_nextSeq (s : State) (c : AdminCmd) (f : AdminCmd → AdminCmd) : (updAdm s c f).nextSeq = s.nextSeq := (rfl)
@[simp ↓] theorem updAdm_lanes (s : State) (c : AdminCmd) (f : AdminCmd → AdminCmd) : (updAdm s c f).lanes = s.lanes := (rfl)
@[simp ↓] theorem updAdm_cup (s : State) (c : AdminCmd) (f : AdminCmd → AdminCmd) : (updAdm s c f).cup = s.cup := (rfl)
@[simp ↓] theorem updAdm_srm (s : State) (c : AdminCmd) (f : AdminCmd → AdminCmd) : (updAdm s c f).srm = s.srm := (rfl)
@[simp ↓] theorem updAdm_cus (s : State) (c : AdminCmd) (f : AdminCmd → AdminCmd) : (updAdm s c f).cus = s.cus := (rfl)
@[simp ↓] theorem updAdm_arc (s : State) (c : AdminCmd) (f : AdminCmd → AdminCmd) : (updAdm s c f).arc = s.arc := (rfl)
@[simp ↓] theorem updAdm_lcs (s : State) (c : AdminCmd) (f : AdminCmd → AdminCmd) : (updAdm s c f).lcs = s.lcs := (rfl)
@[simp ↓] theorem updAdm_wld (s : State) (c : AdminCmd) (f : AdminCmd → AdminCmd) : (updAdm s c f).wld = s.wld := (rfl)
@[simp ↓] theorem updAdm_lcu (s : State) (c : AdminCmd) (f : AdminCmd → AdminCmd) : (updAdm s c f).lcu = s.lcu := (rfl)
@[simp ↓] theorem updAdm_cores (s : State) (c : AdminCmd) (f : AdminCmd → AdminCmd) : (updAdm s c f).cores = s.cores := (rfl)
@[simp ↓] theorem updAdm_rng (s : State) (c : AdminCmd) (f : AdminCmd → AdminCmd) : (updAdm s c f).rng = s.rng := (rfl)
@[simp ↓] theorem updAdm_flt (s : State) (c : AdminCmd) (f : AdminCmd → AdminCmd) : (updAdm s c f).flt = s.flt := (rfl)
@[simp ↓] theorem updAdm_tmp (s : State) (c : AdminCmd) (f : AdminCmd → AdminCmd) : (updAdm s c f).tmp = s.tmp := (rfl)
@[simp ↓] theorem updAdm_rcd (s : State) (c : AdminCmd) (f : AdminCmd → AdminCmd) : (updAdm s c f).rcd = s.rcd := (rfl)
@[simp ↓] theorem updAdm_spn (s : State) (c : AdminCmd) (f : AdminCmd → AdminCmd) : (updAdm s c f).spn = s.spn := (rfl)
@[simp ↓] theorem updAdm_chn (s : State) (c : AdminCmd) (f : AdminCmd → AdminCmd) : (updAdm s c f).chn = s.chn := (rfl)
@[simp ↓] theorem updAdm_hst (s : State) (c : AdminCmd) (f : AdminCmd → AdminCmd) : (updAdm s c f).hst = s.hst := (rfl)
@[simp ↓] theorem updAdm_mem (s : State) (c : AdminCmd) (f : AdminCmd → AdminCmd) : (updAdm s c f).mem = s.mem := (rfl)

/-! `updAtr` -/
@[simp ↓] theorem updAtr_pending (s : State) (f : AtrRegs → AtrRegs) : (updAtr s f).pending = s.pending := (rfl)
@[simp ↓] theorem updAtr_freeCtr (s : State) (f : AtrRegs → AtrRegs) : (updAtr s f).freeCtr = s.freeCtr := (rfl)
@[simp ↓] theorem updAtr_response (s : State) (f : AtrRegs → AtrRegs) : (updAtr s f).response = s.response := (rfl)
@[simp ↓] theorem updAtr_out (s : State) (f : AtrRegs → AtrRegs) : (updAtr s f).out = s.out := (rfl)
@[simp ↓] theorem updAtr_atr (s : State) (f : AtrRegs → AtrRegs) : (updAtr s f).atr = f s.atr := (rfl)
@[simp ↓] theorem updAtr_gen (s : State) (f : AtrRegs → AtrRegs) : (updAtr s f).gen = s.gen := (rfl)
@[simp ↓] theorem updAtr_pwr (s : State) (f : AtrRegs → AtrRegs) : (updAtr s f).pwr = s.pwr := (rfl)
@[simp ↓] theorem updAtr_mld (s : State) (f : AtrRegs → AtrRegs) : (updAtr s f).mld = s.mld := (rfl)
@[simp ↓] theorem updAtr_gals (s : State) (f : AtrRegs → AtrRegs) : (updAtr s f).gals = s.gals := (rfl)
@[simp ↓] theorem updAtr_galv (s : State) (f : AtrRegs → AtrRegs) : (updAtr s f).galv = s.galv := (rfl)
@[simp ↓] theorem updAtr_mbxSel (s : State) (f : AtrRegs → AtrRegs) : (updAtr s f).mbxSel = s.mbxSel := (rfl)
@[simp ↓] theorem updAtr_mbxPending (s : State) (f : AtrRegs → AtrRegs) : (updAtr s f).mbxPending = s.mbxPending := (rfl)
@[simp ↓] theorem updAtr_mbxAcked (s : State) (f : AtrRegs → AtrRegs) : (updAtr s f).mbxAcked = s.mbxAcked := (rfl)
@[simp ↓] theorem updAtr_sqs (s : State) (f : AtrRegs → AtrRegs) : (updAtr s f).sqs = s.sqs := (rfl)
@[simp ↓] theorem updAtr_cqs (s : State) (f : AtrRegs → AtrRegs) : (updAtr s f).cqs = s.cqs := (rfl)
@[simp ↓] theorem updAtr_reads (s : State) (f : AtrRegs → AtrRegs) : (updAtr s f).reads = s.reads := (rfl)
@[simp ↓] theorem updAtr_nextRid (s : State) (f : AtrRegs → AtrRegs) : (updAtr s f).nextRid = s.nextRid := (rfl)
@[simp ↓] theorem updAtr_jobs (s : State) (f : AtrRegs → AtrRegs) : (updAtr s f).jobs = s.jobs := (rfl)
@[simp ↓] theorem updAtr_nextJob (s : State) (f : AtrRegs → AtrRegs) : (updAtr s f).nextJob = s.nextJob := (rfl)
@[simp ↓] theorem updAtr_adm (s : State) (f : AtrRegs → AtrRegs) : (updAtr s f).adm = s.adm := (rfl)
@[simp ↓] theorem updAtr_nextSeq (s : State) (f : AtrRegs → AtrRegs) : (updAtr s f).nextSeq = s.nextSeq := (rfl)
@[simp ↓] theorem updAtr_lanes (s : State) (f : AtrRegs → AtrRegs) : (updAtr s f).lanes = s.lanes := (rfl)
@[simp ↓] theorem updAtr_cup (s : State) (f : AtrRegs → AtrRegs) : (updAtr s f).cup = s.cup := (rfl)
@[simp ↓] theorem updAtr_srm (s : State) (f : AtrRegs → AtrRegs) : (updAtr s f).srm = s.srm := (rfl)
@[simp ↓] theorem updAtr_cus (s : State) (f : AtrRegs → AtrRegs) : (updAtr s f).cus = s.cus := (rfl)
@[simp ↓] theorem updAtr_arc (s : State) (f : AtrRegs → AtrRegs) : (updAtr s f).arc = s.arc := (rfl)
@[simp ↓] theorem updAtr_lcs (s : State) (f : AtrRegs → AtrRegs) : (updAtr s f).lcs = s.lcs := (rfl)
@[simp ↓] theorem updAtr_wld (s : State) (f : AtrRegs → AtrRegs) : (updAtr s f).wld = s.wld := (rfl)
@[simp ↓] theorem updAtr_lcu (s : State) (f : AtrRegs → AtrRegs) : (updAtr s f).lcu = s.lcu := (rfl)
@[simp ↓] theorem updAtr_cores (s : State) (f : AtrRegs → AtrRegs) : (updAtr s f).cores = s.cores := (rfl)
@[simp ↓] theorem updAtr_rng (s : State) (f : AtrRegs → AtrRegs) : (updAtr s f).rng = s.rng := (rfl)
@[simp ↓] theorem updAtr_flt (s : State) (f : AtrRegs → AtrRegs) : (updAtr s f).flt = s.flt := (rfl)
@[simp ↓] theorem updAtr_tmp (s : State) (f : AtrRegs → AtrRegs) : (updAtr s f).tmp = s.tmp := (rfl)
@[simp ↓] theorem updAtr_rcd (s : State) (f : AtrRegs → AtrRegs) : (updAtr s f).rcd = s.rcd := (rfl)
@[simp ↓] theorem updAtr_spn (s : State) (f : AtrRegs → AtrRegs) : (updAtr s f).spn = s.spn := (rfl)
@[simp ↓] theorem updAtr_chn (s : State) (f : AtrRegs → AtrRegs) : (updAtr s f).chn = s.chn := (rfl)
@[simp ↓] theorem updAtr_hst (s : State) (f : AtrRegs → AtrRegs) : (updAtr s f).hst = s.hst := (rfl)
@[simp ↓] theorem updAtr_mem (s : State) (f : AtrRegs → AtrRegs) : (updAtr s f).mem = s.mem := (rfl)

/-! `updHst` -/
@[simp ↓] theorem updHst_pending (s : State) (f : HostPorts → HostPorts) : (updHst s f).pending = s.pending := (rfl)
@[simp ↓] theorem updHst_freeCtr (s : State) (f : HostPorts → HostPorts) : (updHst s f).freeCtr = s.freeCtr := (rfl)
@[simp ↓] theorem updHst_response (s : State) (f : HostPorts → HostPorts) : (updHst s f).response = s.response := (rfl)
@[simp ↓] theorem updHst_out (s : State) (f : HostPorts → HostPorts) : (updHst s f).out = s.out := (rfl)
@[simp ↓] theorem updHst_atr (s : State) (f : HostPorts → HostPorts) : (updHst s f).atr = s.atr := (rfl)
@[simp ↓] theorem updHst_gen (s : State) (f : HostPorts → HostPorts) : (updHst s f).gen = s.gen := (rfl)
@[simp ↓] theorem updHst_pwr (s : State) (f : HostPorts → HostPorts) : (updHst s f).pwr = s.pwr := (rfl)
@[simp ↓] theorem updHst_mld (s : State) (f : HostPorts → HostPorts) : (updHst s f).mld = s.mld := (rfl)
@[simp ↓] theorem updHst_gals (s : State) (f : HostPorts → HostPorts) : (updHst s f).gals = s.gals := (rfl)
@[simp ↓] theorem updHst_galv (s : State) (f : HostPorts → HostPorts) : (updHst s f).galv = s.galv := (rfl)
@[simp ↓] theorem updHst_mbxSel (s : State) (f : HostPorts → HostPorts) : (updHst s f).mbxSel = s.mbxSel := (rfl)
@[simp ↓] theorem updHst_mbxPending (s : State) (f : HostPorts → HostPorts) : (updHst s f).mbxPending = s.mbxPending := (rfl)
@[simp ↓] theorem updHst_mbxAcked (s : State) (f : HostPorts → HostPorts) : (updHst s f).mbxAcked = s.mbxAcked := (rfl)
@[simp ↓] theorem updHst_sqs (s : State) (f : HostPorts → HostPorts) : (updHst s f).sqs = s.sqs := (rfl)
@[simp ↓] theorem updHst_cqs (s : State) (f : HostPorts → HostPorts) : (updHst s f).cqs = s.cqs := (rfl)
@[simp ↓] theorem updHst_reads (s : State) (f : HostPorts → HostPorts) : (updHst s f).reads = s.reads := (rfl)
@[simp ↓] theorem updHst_nextRid (s : State) (f : HostPorts → HostPorts) : (updHst s f).nextRid = s.nextRid := (rfl)
@[simp ↓] theorem updHst_jobs (s : State) (f : HostPorts → HostPorts) : (updHst s f).jobs = s.jobs := (rfl)
@[simp ↓] theorem updHst_nextJob (s : State) (f : HostPorts → HostPorts) : (updHst s f).nextJob = s.nextJob := (rfl)
@[simp ↓] theorem updHst_adm (s : State) (f : HostPorts → HostPorts) : (updHst s f).adm = s.adm := (rfl)
@[simp ↓] theorem updHst_nextSeq (s : State) (f : HostPorts → HostPorts) : (updHst s f).nextSeq = s.nextSeq := (rfl)
@[simp ↓] theorem updHst_lanes (s : State) (f : HostPorts → HostPorts) : (updHst s f).lanes = s.lanes := (rfl)
@[simp ↓] theorem updHst_cup (s : State) (f : HostPorts → HostPorts) : (updHst s f).cup = s.cup := (rfl)
@[simp ↓] theorem updHst_srm (s : State) (f : HostPorts → HostPorts) : (updHst s f).srm = s.srm := (rfl)
@[simp ↓] theorem updHst_cus (s : State) (f : HostPorts → HostPorts) : (updHst s f).cus = s.cus := (rfl)
@[simp ↓] theorem updHst_arc (s : State) (f : HostPorts → HostPorts) : (updHst s f).arc = s.arc := (rfl)
@[simp ↓] theorem updHst_lcs (s : State) (f : HostPorts → HostPorts) : (updHst s f).lcs = s.lcs := (rfl)
@[simp ↓] theorem updHst_wld (s : State) (f : HostPorts → HostPorts) : (updHst s f).wld = s.wld := (rfl)
@[simp ↓] theorem updHst_lcu (s : State) (f : HostPorts → HostPorts) : (updHst s f).lcu = s.lcu := (rfl)
@[simp ↓] theorem updHst_cores (s : State) (f : HostPorts → HostPorts) : (updHst s f).cores = s.cores := (rfl)
@[simp ↓] theorem updHst_rng (s : State) (f : HostPorts → HostPorts) : (updHst s f).rng = s.rng := (rfl)
@[simp ↓] theorem updHst_flt (s : State) (f : HostPorts → HostPorts) : (updHst s f).flt = s.flt := (rfl)
@[simp ↓] theorem updHst_tmp (s : State) (f : HostPorts → HostPorts) : (updHst s f).tmp = s.tmp := (rfl)
@[simp ↓] theorem updHst_rcd (s : State) (f : HostPorts → HostPorts) : (updHst s f).rcd = s.rcd := (rfl)
@[simp ↓] theorem updHst_spn (s : State) (f : HostPorts → HostPorts) : (updHst s f).spn = s.spn := (rfl)
@[simp ↓] theorem updHst_chn (s : State) (f : HostPorts → HostPorts) : (updHst s f).chn = s.chn := (rfl)
@[simp ↓] theorem updHst_hst (s : State) (f : HostPorts → HostPorts) : (updHst s f).hst = f s.hst := (rfl)
@[simp ↓] theorem updHst_mem (s : State) (f : HostPorts → HostPorts) : (updHst s f).mem = s.mem := (rfl)

/-! `updRcd` -/
@[simp ↓] theorem updRcd_pending (s : State) (f : Recorder → Recorder) : (updRcd s f).pending = s.pending := (rfl)
@[simp ↓] theorem updRcd_freeCtr (s : State) (f : Recorder → Recorder) : (updRcd s f).freeCtr = s.freeCtr := (rfl)
@[simp ↓] theorem updRcd_response (s : State) (f : Recorder → Recorder) : (updRcd s f).response = s.response := (rfl)
@[simp ↓] theorem updRcd_out (s : State) (f : Recorder → Recorder) : (updRcd s f).out = s.out := (rfl)
@[simp ↓] theorem updRcd_atr (s : State) (f : Recorder → Recorder) : (updRcd s f).atr = s.atr := (rfl)
@[simp ↓] theorem updRcd_gen (s : State) (f : Recorder → Recorder) : (updRcd s f).gen = s.gen := (rfl)
@[simp ↓] theorem updRcd_pwr (s : State) (f : Recorder → Recorder) : (updRcd s f).pwr = s.pwr := (rfl)
@[simp ↓] theorem updRcd_mld (s : State) (f : Recorder → Recorder) : (updRcd s f).mld = s.mld := (rfl)
@[simp ↓] theorem updRcd_gals (s : State) (f : Recorder → Recorder) : (updRcd s f).gals = s.gals := (rfl)
@[simp ↓] theorem updRcd_galv (s : State) (f : Recorder → Recorder) : (updRcd s f).galv = s.galv := (rfl)
@[simp ↓] theorem updRcd_mbxSel (s : State) (f : Recorder → Recorder) : (updRcd s f).mbxSel = s.mbxSel := (rfl)
@[simp ↓] theorem updRcd_mbxPending (s : State) (f : Recorder → Recorder) : (updRcd s f).mbxPending = s.mbxPending := (rfl)
@[simp ↓] theorem updRcd_mbxAcked (s : State) (f : Recorder → Recorder) : (updRcd s f).mbxAcked = s.mbxAcked := (rfl)
@[simp ↓] theorem updRcd_sqs (s : State) (f : Recorder → Recorder) : (updRcd s f).sqs = s.sqs := (rfl)
@[simp ↓] theorem updRcd_cqs (s : State) (f : Recorder → Recorder) : (updRcd s f).cqs = s.cqs := (rfl)
@[simp ↓] theorem updRcd_reads (s : State) (f : Recorder → Recorder) : (updRcd s f).reads = s.reads := (rfl)
@[simp ↓] theorem updRcd_nextRid (s : State) (f : Recorder → Recorder) : (updRcd s f).nextRid = s.nextRid := (rfl)
@[simp ↓] theorem updRcd_jobs (s : State) (f : Recorder → Recorder) : (updRcd s f).jobs = s.jobs := (rfl)
@[simp ↓] theorem updRcd_nextJob (s : State) (f : Recorder → Recorder) : (updRcd s f).nextJob = s.nextJob := (rfl)
@[simp ↓] theorem updRcd_adm (s : State) (f : Recorder → Recorder) : (updRcd s f).adm = s.adm := (rfl)
@[simp ↓] theorem updRcd_nextSeq (s : State) (f : Recorder → Recorder) : (updRcd s f).nextSeq = s.nextSeq := (rfl)
@[simp ↓] theorem updRcd_lanes (s : State) (f : Recorder → Recorder) : (updRcd s f).lanes = s.lanes := (rfl)
@[simp ↓] theorem updRcd_cup (s : State) (f : Recorder → Recorder) : (updRcd s f).cup = s.cup := (rfl)
@[simp ↓] theorem updRcd_srm (s : State) (f : Recorder → Recorder) : (updRcd s f).srm = s.srm := (rfl)
@[simp ↓] theorem updRcd_cus (s : State) (f : Recorder → Recorder) : (updRcd s f).cus = s.cus := (rfl)
@[simp ↓] theorem updRcd_arc (s : State) (f : Recorder → Recorder) : (updRcd s f).arc = s.arc := (rfl)
@[simp ↓] theorem updRcd_lcs (s : State) (f : Recorder → Recorder) : (updRcd s f).lcs = s.lcs := (rfl)
@[simp ↓] theorem updRcd_wld (s : State) (f : Recorder → Recorder) : (updRcd s f).wld = s.wld := (rfl)
@[simp ↓] theorem updRcd_lcu (s : State) (f : Recorder → Recorder) : (updRcd s f).lcu = s.lcu := (rfl)
@[simp ↓] theorem updRcd_cores (s : State) (f : Recorder → Recorder) : (updRcd s f).cores = s.cores := (rfl)
@[simp ↓] theorem updRcd_rng (s : State) (f : Recorder → Recorder) : (updRcd s f).rng = s.rng := (rfl)
@[simp ↓] theorem updRcd_flt (s : State) (f : Recorder → Recorder) : (updRcd s f).flt = s.flt := (rfl)
@[simp ↓] theorem updRcd_tmp (s : State) (f : Recorder → Recorder) : (updRcd s f).tmp = s.tmp := (rfl)
@[simp ↓] theorem updRcd_rcd (s : State) (f : Recorder → Recorder) : (updRcd s f).rcd = f s.rcd := (rfl)
@[simp ↓] theorem updRcd_spn (s : State) (f : Recorder → Recorder) : (updRcd s f).spn = s.spn := (rfl)
@[simp ↓] theorem updRcd_chn (s : State) (f : Recorder → Recorder) : (updRcd s f).chn = s.chn := (rfl)
@[simp ↓] theorem updRcd_hst (s : State) (f : Recorder → Recorder) : (updRcd s f).hst = s.hst := (rfl)
@[simp ↓] theorem updRcd_mem (s : State) (f : Recorder → Recorder) : (updRcd s f).mem = s.mem := (rfl)

/-! `updChn` -/
@[simp ↓] theorem updChn_pending (s : State) (f : Chain → Chain) : (updChn s f).pending = s.pending := (rfl)
@[simp ↓] theorem updChn_freeCtr (s : State) (f : Chain → Chain) : (updChn s f).freeCtr = s.freeCtr := (rfl)
@[simp ↓] theorem updChn_response (s : State) (f : Chain → Chain) : (updChn s f).response = s.response := (rfl)
@[simp ↓] theorem updChn_out (s : State) (f : Chain → Chain) : (updChn s f).out = s.out := (rfl)
@[simp ↓] theorem updChn_atr (s : State) (f : Chain → Chain) : (updChn s f).atr = s.atr := (rfl)
@[simp ↓] theorem updChn_gen (s : State) (f : Chain → Chain) : (updChn s f).gen = s.gen := (rfl)
@[simp ↓] theorem updChn_pwr (s : State) (f : Chain → Chain) : (updChn s f).pwr = s.pwr := (rfl)
@[simp ↓] theorem updChn_mld (s : State) (f : Chain → Chain) : (updChn s f).mld = s.mld := (rfl)
@[simp ↓] theorem updChn_gals (s : State) (f : Chain → Chain) : (updChn s f).gals = s.gals := (rfl)
@[simp ↓] theorem updChn_galv (s : State) (f : Chain → Chain) : (updChn s f).galv = s.galv := (rfl)
@[simp ↓] theorem updChn_mbxSel (s : State) (f : Chain → Chain) : (updChn s f).mbxSel = s.mbxSel := (rfl)
@[simp ↓] theorem updChn_mbxPending (s : State) (f : Chain → Chain) : (updChn s f).mbxPending = s.mbxPending := (rfl)
@[simp ↓] theorem updChn_mbxAcked (s : State) (f : Chain → Chain) : (updChn s f).mbxAcked = s.mbxAcked := (rfl)
@[simp ↓] theorem updChn_sqs (s : State) (f : Chain → Chain) : (updChn s f).sqs = s.sqs := (rfl)
@[simp ↓] theorem updChn_cqs (s : State) (f : Chain → Chain) : (updChn s f).cqs = s.cqs := (rfl)
@[simp ↓] theorem updChn_reads (s : State) (f : Chain → Chain) : (updChn s f).reads = s.reads := (rfl)
@[simp ↓] theorem updChn_nextRid (s : State) (f : Chain → Chain) : (updChn s f).nextRid = s.nextRid := (rfl)
@[simp ↓] theorem updChn_jobs (s : State) (f : Chain → Chain) : (updChn s f).jobs = s.jobs := (rfl)
@[simp ↓] theorem updChn_nextJob (s : State) (f : Chain → Chain) : (updChn s f).nextJob = s.nextJob := (rfl)
@[simp ↓] theorem updChn_adm (s : State) (f : Chain → Chain) : (updChn s f).adm = s.adm := (rfl)
@[simp ↓] theorem updChn_nextSeq (s : State) (f : Chain → Chain) : (updChn s f).nextSeq = s.nextSeq := (rfl)
@[simp ↓] theorem updChn_lanes (s : State) (f : Chain → Chain) : (updChn s f).lanes = s.lanes := (rfl)
@[simp ↓] theorem updChn_cup (s : State) (f : Chain → Chain) : (updChn s f).cup = s.cup := (rfl)
@[simp ↓] theorem updChn_srm (s : State) (f : Chain → Chain) : (updChn s f).srm = s.srm := (rfl)
@[simp ↓] theorem updChn_cus (s : State) (f : Chain → Chain) : (updChn s f).cus = s.cus := (rfl)
@[simp ↓] theorem updChn_arc (s : State) (f : Chain → Chain) : (updChn s f).arc = s.arc := (rfl)
@[simp ↓] theorem updChn_lcs (s : State) (f : Chain → Chain) : (updChn s f).lcs = s.lcs := (rfl)
@[simp ↓] theorem updChn_wld (s : State) (f : Chain → Chain) : (updChn s f).wld = s.wld := (rfl)
@[simp ↓] theorem updChn_lcu (s : State) (f : Chain → Chain) : (updChn s f).lcu = s.lcu := (rfl)
@[simp ↓] theorem updChn_cores (s : State) (f : Chain → Chain) : (updChn s f).cores = s.cores := (rfl)
@[simp ↓] theorem updChn_rng (s : State) (f : Chain → Chain) : (updChn s f).rng = s.rng := (rfl)
@[simp ↓] theorem updChn_flt (s : State) (f : Chain → Chain) : (updChn s f).flt = s.flt := (rfl)
@[simp ↓] theorem updChn_tmp (s : State) (f : Chain → Chain) : (updChn s f).tmp = s.tmp := (rfl)
@[simp ↓] theorem updChn_rcd (s : State) (f : Chain → Chain) : (updChn s f).rcd = s.rcd := (rfl)
@[simp ↓] theorem updChn_spn (s : State) (f : Chain → Chain) : (updChn s f).spn = s.spn := (rfl)
@[simp ↓] theorem updChn_chn (s : State) (f : Chain → Chain) : (updChn s f).chn = f s.chn := (rfl)
@[simp ↓] theorem updChn_hst (s : State) (f : Chain → Chain) : (updChn s f).hst = s.hst := (rfl)
@[simp ↓] theorem updChn_mem (s : State) (f : Chain → Chain) : (updChn s f).mem = s.mem := (rfl)

end Sys2Proof.Machine
end

