-- ==== Sys2Proof/Machine/Pins.lean ====
section
/-!
DEFINITION. Output pins of the AUX18 bank as functions of the state (R320, R342, R592, R595, R596).
-/
namespace Sys2Proof.Machine

/-- Levels of the output pins: high, low, or none while the pin is not driven. -/
structure Pins where
  statCope : Option Bool
  statDrag : Option Bool
  statReserve : Option Bool
  statFeedA : Option Bool
  statFeedB : Option Bool
  statAlertN : Option Bool
  statQuenched : Option Bool
  sysResetOutN : Option Bool
  dbgActive : Option Bool
  arcVsel : Option Bool
  cusPwrEn : List (Option Bool)
  arcPwrEn : List (Option Bool)
  deriving DecidableEq, Repr

/-- A push-pull output: driven while a feed is valid (R592, R596). -/
def driven (s : State) (b : Bool) : Option Bool :=
  if (s.pwr.feed.cope.valid || s.pwr.feed.drag.valid) && s.pwr.phase != .off then some b else none

/-- An open-drain output, low when `b`, else released. -/
def openDrain (s : State) (b : Bool) : Option Bool := if b then driven s false else none

/-- The 3.3 V supply of an archive card is on while a card is in an enabled port (DEDUCED, entry 84). -/
def arcPowered (s : State) (n : Nat) : Bool :=
  let st := (s.arc.ports.get {} n).state
  st != .empty && st != .disabled

/-- The pins of the table of R592. In END OF LIFE every other block than the recovery port is unpowered (R372). -/
def pins (s : State) : Pins :=
  { statCope := driven s (serving s .cope)
    statDrag := driven s (serving s .drag)
    statReserve := driven s ((core s 0).running && !s.atr.restarting)
    statFeedA := driven s s.pwr.feed.cope.valid
    statFeedB := driven s s.pwr.feed.drag.valid
    statAlertN := openDrain s (s.flt.cont ≠ 0)
    statQuenched := driven s s.srm.quenched
    sysResetOutN := openDrain s (s.pwr.phase == .held)
    dbgActive := driven s s.lcs.debug
    arcVsel := driven s s.arc.v18
    cusPwrEn := tabulate 16 fun n => driven s (card s n).power
    arcPwrEn := tabulate 4 fun n => driven s (arcPowered s n) }

end Sys2Proof.Machine
end

