-- ==== Sys2Proof/WellFormed.lean ====
section
/-!
DEFINITION. Well-formed commands: what the interface of the part can carry. `exec` has a meaning for every command;
an ill-formed one names nothing that can arrive.
-/
namespace Sys2Proof

/-- Cycles within a tick are 0 to 1,249 (R26). -/
def cycleOk (c : Nat) : Bool := c < 1250

/-- Entry offsets of BAR0: 2 MiB for the physical function, 64 KiB for a virtual one (R19, R22). -/
def offOk (fn : Gallery) (off : BitVec 21) : Bool := fn = 0 || off.toNat < 65536

/-- A Span message: a 16-byte header, at most 8,192 bytes (R537). -/
def msgOk (m : Bytes) : Bool := 16 ≤ m.length && m.length ≤ 8192

def Instr.wf : Instr → Bool
  | .registerWrite _ fn (.bar0 off) _ => offOk fn off && off.toNat % 4 = 0
  | .unassignedAccess _ fn off _ => offOk fn off
  | .misalignedAccess _ fn off size _ => offOk fn off && !((size = 4 || size = 8) && off.toNat % size = 0)
  | .hostReadReturn _ cycle _ => cycleOk cycle
  | .faultEvent _ _ _ _ cycle _ => cycleOk cycle
  | .monitorEvent m _ _ => m.toNat ≤ 0xC0
  | .flitReceived _ flit _ => flit.length = 232
  | .hello1 _ msg => msg.length = 247
  | .hello2 _ sig => sig.length = 96
  | .replica m | .replicaAck m | .pairExec m | .pairResult m | .spanHeartbeat m | .provRequest m | .provReply m
  | .pairHello m | .echoMessage m => msgOk m
  | .challenge _ _ nonce | .getMeasurements _ _ _ nonce => nonce.length = 32
  | .shareGiven _ => true
  | .recoveryReadDone (some m) => m.length ≤ 2621440
  | .slotUpdate _ _ (some m) _ => m.length ≤ 65535
  | _ => true

end Sys2Proof
end

