-- ==== Sys2Proof/Tests/Slice0.lean ====
section
/-!
SUPPORT. Tests of single steps, a smoke test of WellFormed, and witnesses: states and operands that meet the hypotheses of the
statements of Certificates/Slice0/Obligations.lean, at boundary values. A theorem `test_at_…` is the witness of the statement
named after it.
-/
open Sys2Proof Sys2Proof.Machine

namespace Sys2Proof.Tests

set_option Elab.async false

/-! ### States -/

/-- Both halves serve, no counting mode, classes at their floors; the parting window of the tick has run or not. -/
def live (w : Bool) : State :=
  { State.reset with
    pwr := { phase := .step5 }, atr := { half := ⟨.serving, .serving⟩ }, gen := { windowDone := w }
    flt := { State.reset.flt with countHalf := ⟨false, false⟩, countAtrium := false } }

/-- Core `n` of the live part is `x`. -/
def withCore (n : Nat) (x : CoreSt) : State := { live false with cores := updNth (live false).cores n fun _ => x }

/-- A running core at System level whose handler is at 0x0010_0100. -/
def kernel : CoreSt := { running := true, evec := 0x00100100, bk := [0, 0x20, 0, 0, 0, 0, 0, 0x10], pc := 0x40 }

/-- Core 0 at System level with a region of the Reserve SRAM that grants it all. -/
def ram : State :=
  { withCore 0 kernel with
    wld := { gates := resetGates, regions := [(0, { base := 0x100, limit := 0x300, perm := 0x1FF, en := true })] } }

/-! ### Queue and step -/

/-- No access of a core or of the debug port carries a failed beat. -/
theorem test_beats_pass (i : Init) : beatsPass ram i ∧ beatsPass State.reset i := ⟨rfl, rfl⟩

theorem test_idle_on_empty_queue : step State.reset = .next State.reset := rfl

theorem test_at_StepRunsFrontCommand : State.reset.pending = [] := by decide

theorem get_of_all {α : Type} (d : α) (p : Nat → α → Prop) (t : Tab α) (k : Nat) (h0 : p k d) (h : ∀ e ∈ t, p e.1 e.2) :
    p k (t.get d k) := by
  induction t with
  | nil => exact h0
  | cons e t ih =>
    obtain ⟨j, a⟩ := e
    by_cases hj : j = k
    · subst hj; simpa [Tab.get] using h (j, a) (by simp)
    · simpa [Tab.get, hj] using ih fun e he => h e (by simp [he])

/-- A state with the fault classes at their floors and no counting mode is quiet. -/
theorem quiet_of (s : State) (hp : s.pwr.phase ≠ .off) (hs : s.flt.src = resetSources) (hc : s.flt.countHalf = ⟨false, false⟩)
    (ha : s.flt.countAtrium = false) (hl : ∀ h, (s.lanes.half.get h).assay = none) : quietFaults s := by
  refine ⟨hp, fun n => ?_, fun n h0 h15 => ?_, hl⟩
  · unfold counting
    split
    · exact ha
    · rename_i h _; cases h <;> simp [hc, Two.get]
  · have h := get_of_all ({} : FaultSrc) (fun n x => n ≠ 0 → n ≠ 15 → x.cls.toNat ≤ 1) resetSources n (fun _ _ => by decide) (by decide)
    exact (by simpa [fltSrc, hs] using h h0 h15)

theorem live_quiet (w : Bool) : quietFaults (live w) := quiet_of _ (by cases w <;> decide) rfl rfl rfl (by intro h; cases h <;> rfl)

/-! ### Well-formed commands -/

theorem test_wf_register_offset : Instr.wf (.registerWrite .cope 0 (.bar0 0x3C) 1) = true ∧
    Instr.wf (.registerWrite .cope 0 (.bar0 0x3D) 1) = false ∧ Instr.wf (.registerWrite .cope 1 (.bar0 0x10000) 1) = false := by decide

theorem test_wf_stray_access : Instr.wf (.unassignedAccess .cope 1 0xFFFC true) = true ∧
    Instr.wf (.unassignedAccess .cope 1 0x10000 true) = false ∧ Instr.wf (.misalignedAccess .drag 0 0x22 4 true) = true ∧
    Instr.wf (.misalignedAccess .drag 0 0x24 4 true) = false ∧ Instr.wf (.misalignedAccess .drag 0 0x28 8 false) = false ∧
    Instr.wf (.misalignedAccess .drag 1 0x10001 2 true) = false := by decide

theorem test_wf_cycles : Instr.wf (.hostReadReturn 0 1249 []) = true ∧ Instr.wf (.hostReadReturn 0 1250 []) = false ∧
    Instr.wf (.faultEvent 2 .corrected 0 0 1249 false) = true ∧ Instr.wf (.faultEvent 2 .corrected 0 0 1250 false) = false := by decide

theorem test_wf_monitor : Instr.wf (.monitorEvent 0xC0 0 false) = true ∧ Instr.wf (.monitorEvent 0xC1 0 false) = false := by decide

theorem test_wf_span : Instr.wf (.flitReceived 0 (zeros 232) true) = true ∧ Instr.wf (.flitReceived 0 (zeros 231) true) = false ∧
    Instr.wf (.hello1 0 (zeros 247)) = true ∧ Instr.wf (.hello1 0 (zeros 246)) = false ∧
    Instr.wf (.hello2 0 (zeros 96)) = true ∧ Instr.wf (.hello2 0 (zeros 97)) = false := by
  simp only [Instr.wf, zeros, List.length_replicate]; decide

theorem test_wf_message_short : (Instr.wf (.replica (zeros 16)) = true ∧ Instr.wf (.replica (zeros 15)) = false) ∧
    Instr.wf (.replicaAck (zeros 15)) = false ∧ Instr.wf (.pairExec (zeros 15)) = false ∧ Instr.wf (.pairResult (zeros 15)) = false ∧
    Instr.wf (.spanHeartbeat (zeros 15)) = false ∧ Instr.wf (.provRequest (zeros 15)) = false ∧ Instr.wf (.provReply (zeros 15)) = false ∧
    Instr.wf (.pairHello (zeros 15)) = false ∧ Instr.wf (.echoMessage (zeros 15)) = false := by decide

theorem test_wf_nonce : Instr.wf (.challenge .cope 0 (zeros 32)) = true ∧ Instr.wf (.challenge .cope 0 (zeros 31)) = false ∧
    Instr.wf (.getMeasurements .cope 1 false (zeros 33)) = false := by decide

theorem test_wf_image_length (m : Bytes) (h : m.length = 2621441) : Instr.wf (.recoveryReadDone (some m)) = false := by
  simp [Instr.wf, h]

theorem test_wf_slot_message_length (m : Bytes) (k : Option Bytes) (h : m.length = 65536) : Instr.wf (.slotUpdate 0 0 (some m) k) = false := by
  simp [Instr.wf, h]

/-! ### Tieno -/

theorem test_at_TienoRegisterArithmetic : runs ram (0 : CoreId).val = true ∧ runs (withCore 8 kernel) (8 : CoreId).val = true := by decide

theorem test_at_TienoImmediateArithmetic : runs ram (0 : CoreId).val = true ∧ (31 : BitVec 16).toNat < 32 := by decide

theorem test_at_TienoIllegalFieldsRaise : systemLevel ram 0 ∧ (1 : BitVec 5) ≠ 0 ∧ 32 ≤ (32 : BitVec 16).toNat ∧
    8 ≤ (8 : BitVec 12).toNat ∧ 7 ≤ (7 : BitVec 12).toNat ∧ (1 : BitVec 12) ≠ 0 := by unfold systemLevel; decide

theorem test_at_TienoBranchesSetPc : runs ram (0 : CoreId).val = true := by decide

/-- JALR through w0 with the immediates 4 and 2. -/
theorem test_at_TienoJumpsAndCountedBranch : runs ram (0 : CoreId).val = true ∧ (1 : BitVec 5) ≠ 0 ∧
    (BitVec.ofInt 32 ((((Machine.core ram 0).getW 0).toNat : Int) + (4 : BitVec 16).toInt)).toNat % 4 = 0 ∧
    (BitVec.ofInt 32 ((((Machine.core ram 0).getW 0).toNat : Int) + (2 : BitVec 16).toInt)).toNat % 4 ≠ 0 ∧ systemLevel ram 0 := by
  unfold systemLevel; decide

/-- The first word of the Reserve SRAM's region through BK0 and its last byte through BK1. -/
theorem test_at_TienoLoadsAndStores : sramAccess { ram with cores := updNth ram.cores 0 fun x => { x with bk := setNth x.bk 0 0x10 } } 0
      .reserveRam 0x100000 4 .read ∧
    sramAccess { ram with cores := updNth ram.cores 0 fun x => { x with bk := setNth x.bk 0 0x10 } } 0 .reserveRam 0x100000 4 .write ∧
    tienoData { ram with cores := updNth ram.cores 0 fun x => { x with bk := setNth x.bk 0 0x10 } } 0 0 0 0 = 0x100000 ∧
    sramAccess ram 0 .reserveRam (tienoData ram 0 0 1 0x1FFF) 1 .read ∧ tienoData ram 0 0 1 0x1FFF = 0x20FFFF := by
  unfold sramAccess beatsPass; decide

/-- An odd address, and an aligned one outside every region. -/
theorem test_at_TienoAccessExceptions : systemLevel ram 0 ∧ tienoData ram 0 0 1 1 % 2 ≠ 0 ∧ tienoData ram 0 0 0 0 % 4 = 0 ∧
    granted ram (initOf ram 0) (tienoData ram 0 0 0 0) .write = false ∧
    granted (withCore 0 kernel) (initOf (withCore 0 kernel) 0) 0x100000 .read = false ∧
    tienoData (withCore 0 { kernel with bk := [0x10] }) 0 0 0 0 = 0x100000 := by
  unfold systemLevel; decide

theorem test_at_TienoSystemInstructions : systemLevel ram 0 ∧ (Machine.core ram 0).eLevel = false ∧ (7 : BitVec 12).toNat < 8 ∧
    (2 : BitVec 12).getLsbD 1 = true ∧ (1 : BitVec 12).getLsbD 1 = false ∧ (1 : BitVec 12).getLsbD 0 = true ∧
    (Machine.core ram 0).ip &&& (Machine.core ram 0).ien = 0 ∧
    (let s := withCore 0 { kernel with ip := 0b100000, ien := 0b100001 }
     runs s 0 = true ∧ (Machine.core s 0).ip &&& (Machine.core s 0).ien ≠ 0) ∧ (6 : BitVec 12).toNat < 7 := by
  unfold systemLevel; decide

theorem test_at_TienoCsrInstructions : runs ram (0 : CoreId).val = true ∧ (Machine.core ram 0).level = false ∧
    ((Machine.core ram 0).getW 0).toNat % 4 = 0 ∧ systemLevel ram 0 := by unfold systemLevel; decide

/-- Lines 0 and 5 at the ends of their range; a Program-level core. -/
theorem test_at_TienoInterruptsAndProgramLevel :
    (let s := withCore 1 { kernel with ie := true, ip := 1, ien := 1 }
     runs s 1 = true ∧ (Machine.core s 1).level = false ∧ (Machine.core s 1).ie = true ∧ ((Machine.core s 1).ip &&& (Machine.core s 1).ien).getLsbD 0 = true) ∧
    (let s := withCore 1 { kernel with ie := true, ip := 0b100001, ien := 0b100000 }
     (Machine.core s 1).ie = true ∧ ((Machine.core s 1).ip &&& (Machine.core s 1).ien).getLsbD 5 = true ∧
     ∀ m, m < 5 → ((Machine.core s 1).ip &&& (Machine.core s 1).ien).getLsbD m = false) ∧
    runs (withCore 1 kernel) 1 = true ∧ (Machine.core (withCore 1 kernel) 1).ie = false ∧
    (Machine.core (withCore 1 { kernel with ie := true }) 1).ip &&& (Machine.core (withCore 1 { kernel with ie := true }) 1).ien = 0 ∧
    (let s := withCore 1 { kernel with level := true, curPart := 3 }
     runs s (1 : CoreId).val = true ∧ (Machine.core s 1).level = true ∧ (Machine.core s 1).exc = false) := by decide

/-! ### Registers, doorbells, mailbox -/

/-- Offset 0xC of the physical function is not assigned; 0x24 is not aligned to 8; port and function tables at their bounds. -/
theorem test_at_RegisterAccessEffects : takesAccess (live false) .cope 0 ∧ (live false).hst.port.cope.vfEnable = false ∧
    (live false).hst.port.drag.vfEnable = false ∧
    (let s : State := { live false with hst := { port := ⟨{ vfEnable := true }, {}⟩ } }
     takesAccess s .drag 0 ∧ s.hst.port.cope.vfEnable = true) ∧
    assignedAt 0 0x1FFFFC = false ∧ takesAccess (live false) .drag 255 ∧ assignedAt 255 0xFFFC = false ∧
    ¬((4 = 4 ∨ 4 = 8) ∧ (0x22 : BitVec 21).toNat % 4 = 0) ∧ ¬((8 = 4 ∨ 8 = 8) ∧ (0x24 : BitVec 21).toNat % 8 = 0) := by
  unfold takesAccess; decide

/-- The hypothesis of the clause on ATR_TICK_HI holds in the state that the read leaves. -/
theorem test_at_TickLoReadLatchesTickHi :
    ∃ t u, exec (.tickLoRead ⟨.cope, .lo⟩) { live false with gen := { a := 0x0123456789ABCD } } = .next t ∧ t.response = 0x6789ABCD ∧
      exec (.tickLoRead ⟨.cope, .hi⟩) { t with gen := { t.gen with a := 0xFF0000000000 } } = .next u ∧ u.response = 0x012345 :=
  ⟨_, _, rfl, by decide, rfl, by decide⟩

/-- A Mould that admits queues of all depths, pairs and shared slots. -/
def wide : Mould :=
  { atrium := { cusEn := 0xFFFF, arcEn := 0xF, chainEn := true
                limits := { maxGalleries := 256, maxQueues := 64, maxDepth := 16, maxSq := 4096, maxCq := 4096, maxExt := 8
                            lendOk := true, dualOk := true, pairOk := true, maxSlots := 65536 } }
    halves := ⟨{ laneRole := List.replicate 40 .active, cupolaRole := List.replicate 9 .active },
      { laneRole := List.replicate 40 .active, cupolaRole := List.replicate 9 .active }⟩ }

/-- The live part under that Mould, with gallery 1 active beside the Curator. -/
def poured (w : Bool) : State :=
  { live w with
    mld := { runHalf := ⟨some wide, some wide⟩, runAtrium := some wide, runSlotHalf := ⟨some false, some false⟩
             runSlotAtrium := some false }
    gals := [(0, Gal.curator), (1, { state := .active, units := ⟨32, 32⟩, cupola := 16, sqLimit := 64, cqLimit := 64
                                     parts := ⟨1, 1⟩, slotQuota := 64, arcQuota := 1024, pairing := true, borrow := true })] }

theorem poured_quiet (w : Bool) : quietFaults (poured w) :=
  quiet_of _ (by cases w <;> decide) rfl rfl rfl (by intro h; cases h <;> rfl)

/-- Gallery 1 with an admin pair whose decision is due. -/
def asks (depth : BitVec 5) : State :=
  { poured true with galv := [(1, { aq := { enable := true, deciding := true, sqDepth := depth, cqDepth := 4
                                            sqBase := 0x1000, cqBase := 0x2000 } })] }

theorem test_at_DoorbellsAndAdminPair_doorbells : takesAccess (live false) .cope (255 : Gallery).toNat ∧
    takesAccess (poured false) .drag (1 : Gallery).toNat ∧ (gal (poured false) (1 : Gallery).toNat).state = .active := by
  unfold takesAccess; decide

theorem test_at_DoorbellsAndAdminPair_decided : (fnCfg (asks 4) .cope 1).flrEnd = none ∧ (gal (asks 4) 1).state = .active ∧
    (gv (asks 4) 1).aq.ready = false ∧ (gv (asks 4) 1).aq.deciding = true ∧ (asks 4).gen.windowDone = true ∧
    (gv (asks 4) 1).aq.due ≤ (asks 4).gen.a.toNat ∧ (gal (asks 4) 1).state = .active ∧
    (asks 4).lcs.session = false ∧ cqCheck (asks 4) 64 (aqSpec (gv (asks 4) 1).aq) = none ∧
    sqCheck (asks 4) 64 0 (gv (asks 4) 1).aq.sqDepth.toNat (gv (asks 4) 1).aq.sqBase true = none := by decide

theorem test_at_DoorbellsAndAdminPair_refused : (gv (asks 17) 1).aq.deciding = true ∧ (asks 17).gen.windowDone = true ∧
    (gv (asks 17) 1).aq.due ≤ (asks 17).gen.a.toNat ∧ (gv (poured true) 1).aq.deciding = false ∧ (live false).gen.windowDone = false ∧
    (poured true).gen.a.toNat < ({ due := 1 } : AdminPair).due ∧
    sqCheck (asks 17) 64 0 (gv (asks 17) 1).aq.sqDepth.toNat (gv (asks 17) 1).aq.sqBase true ≠ none := by decide

theorem test_at_DoorbellsAndAdminPair_disabled :
    let s : Bool → State := fun b =>
      { poured true with
        galv := [(1, { aq := { enable := true, ready := true, closing := b } })]
        sqs := [(64, { exist := true, admin := true, depthLog2 := 4 })] }
    (fnCfg (s false) .cope 1).flrEnd = none ∧ (gal (s false) 1).state = .active ∧ (gv (s false) 1).aq.ready = true ∧
      (gv (s false) 1).aq.closing = false ∧ (gv (s true) 1).aq.ready = true ∧ (gv (s true) 1).aq.closing = true := by decide

theorem test_at_MailboxHandshake :
    let s := fun m : Mailbox => ({ poured false with galv := [(1, { mbx := m })], mbxSel := 1 } : State)
    takesAccess (s {}) .cope (1 : Gallery).toNat ∧ takesAccess (s {}) .cope 0 ∧ (1 : Gallery) ≠ 0 ∧
      (gal (s {}) (1 : Gallery).toNat).state = .active ∧ (s {}).mbxSel = 1 ∧
      (gv (s { outLen := 2032, inLen := 2032 }) 1).mbx.outLen.toNat ≤ 2032 ∧
      2032 < (gv (s { outLen := 2033, inLen := 2033 }) 1).mbx.outLen.toNat ∧ 2032 < (gv (s { inLen := 2033 }) 1).mbx.inLen.toNat ∧
      (gv (s { busy := true, full := true }) 1).mbx.busy = true ∧ (gv (s { busy := true, full := true }) 1).mbx.full = true ∧
      0x1000 ≤ (0x17F4 : BitVec 21).toNat ∧ (0x17F4 : BitVec 21).toNat < 0x17F8 ∧
      0xF8800 ≤ (0xF8FF4 : BitVec 21).toNat ∧ (0xF8FF4 : BitVec 21).toNat < 0xF8FF8 := by
  unfold takesAccess; decide

/-! ### The tick -/

theorem test_at_TickBoundaryAndPartingWindow : (live true).gen.windowDone = true ∧ (live false).gen.windowDone = false ∧
    (live false).pwr.phase ≠ .off ∧ tick (live false) % 128 = 0 ∧ tick { live true with gen := { a := 127 } } % 128 ≠ 0 ∧
    ∀ h, counting (live false) (halfSrc h 3) = false ∧ ((live false).lanes.half.get h).assay = none ∧
      classify (live false) (halfSrc h 3) 1 < 2 ∧ ((live false).lanes.half.get h).ending < 65536 := by
  refine ⟨by decide, by decide, by decide, by decide, by decide, fun h => ?_⟩
  cases h <;> decide

/-! ### Faults -/

theorem test_at_CorrectedAndContainedFaults_corrected : outsideCounting (live false) (6 : BitVec 6).toNat (255 : Byte).toNat ∧
    nativeOk (6 : BitVec 6).toNat 0 = true ∧ (fltSrc (live false) (6 : BitVec 6).toNat).cls = 0 ∧
    outsideCounting (live false) (44 : BitVec 6).toNat 0 ∧ nativeOk (44 : BitVec 6).toNat 0 = true ∧
    (fltSrc (live false) (44 : BitVec 6).toNat).cls = 0 := by unfold outsideCounting; decide

theorem outside_of_quiet {s : State} (h : quietFaults s) (n unit : Nat) : outsideCounting s n unit := by
  refine ⟨h.1, h.2.1 n, ?_⟩
  unfold assayHit
  split
  · rfl
  · simp [h.2.2.2]

theorem test_at_CorrectedAndContainedFaults_contained (h : Half) : (∀ i, outsideCounting (live false) (halfSrc h i) (39 : Byte).toNat) ∧
    (∀ i, (fltSrc (live false) (halfSrc h i)).cls ≤ 1) ∧ (live false).atr.half.get h = .serving ∧
    (live false).flt.halfReset.get h = none := by
  refine ⟨fun i => outside_of_quiet (live_quiet false) _ _, fun i => ?_, by cases h <;> rfl, by cases h <;> rfl⟩
  have hs : 16 ≤ halfSrc h i := by cases h <;> simp [halfSrc] <;> omega
  exact (live_quiet false).2.2.1 _ (by omega) (by omega)

theorem test_at_FatalFaultsAndDeviceResets : (live false).pwr.phase ≠ .off ∧ nativeOk (0 : BitVec 6).toNat 2 = true ∧
    nativeOk (15 : BitVec 6).toNat 2 = true ∧ (live false).pwr.sysResetLow = false ∧ 1000 ≤ 1000 ∧ 999 < 1000 ∧
    (let s : State := { State.reset with pwr := { phase := .held, sysResetLow := true } }
     s.pwr.phase = .held ∧ s.pwr.ftEn = false) ∧
    (0xA5000001 : Word).toNat / 2 ^ 24 = 0xA5 ∧ (0xA5000001 : Word).getLsbD 0 = true ∧ (0xA5000000 : Word).getLsbD 0 = false ∧
    (0xA4000001 : Word).toNat / 2 ^ 24 ≠ 0xA5 := by decide

theorem test_at_FaultClearAndCountingMode :
    let s : State := { live false with gen := { a := 1000000 }, flt := { endAtrium := some 1000000, endHalf := ⟨some 1000000, some 1000001⟩ } }
    s.flt.endAtrium = some 1000000 ∧ s.flt.endHalf.get .cope = some 1000000 ∧ 1000000 ≤ s.gen.a.toNat ∧
      s.flt.endHalf.get .drag = some 1000001 ∧ s.gen.a.toNat < 1000001 := by decide

/-! ### Power, start, reset -/

theorem test_at_FeedAndPinEvents_feeds :
    let dark : State := { State.reset with pwr := { feed := ⟨{ valid := false }, { valid := false }⟩, phase := .off } }
    let half : State := { live false with pwr := { feed := ⟨{ valid := false }, {}⟩, phase := .step5 } }
    ((dark.pwr.feed.get .cope).valid = false ∧ (dark.pwr.feed.get .cope).failedRise = false ∧ dark.pwr.phase = .off ∧
      dark.pwr.sysResetLow = false ∧ dark.pwr.ftEn = false ∧ dark.pwr.cellOnly = false) ∧
    ((half.pwr.feed.get .drag).valid = true ∧ (half.pwr.feed.get (other .drag)).valid = false) ∧
    (half.atr.srcB = false ∧ half.pwr.phase ≠ .off ∧ (half.pwr.feed.get .cope).valid = false ∧ (half.pwr.feed.get .drag).valid = true ∧
      counting half 9 = false ∧ (fltSrc half 9).cls = 0) := by decide

theorem test_at_FeedAndPinEvents_pins : (live false).pwr.phase ≠ .off ∧ ((live false).hst.port.get .drag).linkUp = false ∧
    (({ live false with hst := { port := ⟨{}, { linkUp := true }⟩ } } : State).hst.port.get .drag).linkUp = true := by decide

theorem test_at_ColdStartByLifeCycle :
    let at' := fun (f : Fuses) (hold : Bool) => ({ State.reset with lcs := { fuses := f }, flt := { State.reset.flt with deviceHold := hold } } : State)
    (at' {} false).lcs.intents = ⟨[], []⟩ ∧ (at' {} false).srm.atStart = false ∧ (at' {} false).pwr.phase = .step2 ∧
      (fused (at' {} false) = .blank ∧ burned (at' {} false).lcs.fuses.rootAValid = false ∧ (at' {} false).lcs.fuses.rootASpoiled = false) ∧
      (fused (at' { stEol := 2 } false) = .endOfLife ∧ burned (at' { stEol := 2 } false).lcs.fuses.wiped = false) ∧
      (fused (at' { stTest := 3 } true) = .test ∧ (at' { stTest := 3 } true).flt.deviceHold = true) ∧
      (fused (at' { stTest := 2 } false) = .test ∧ (at' { stTest := 2 } false).flt.deviceHold = false ∧
        (at' { stTest := 2 } false).mld.slotA = ⟨none, none⟩ ∧ (at' { stTest := 2 } false).mld.slotB = ⟨none, none⟩) ∧
      (live false).pwr.phase ≠ .step1 ∧ (live false).pwr.phase ≠ .step2 := by decide

theorem test_at_HalfEntersServing :
    let s := fun p => ({ poured true with
      atr := { half := ⟨.pouring, .serving⟩ }, srm := { dirReady := true }, rng := { drbg := List.replicate 4 { state := .ready } }
      mld := { (poured true).mld with pour := ⟨some { step := 5, slotB := false, paused := p }, none⟩ } } : State)
    (s false).mld.pour.get .cope = some { step := 5, slotB := false } ∧ (s false).atr.half.get .cope = .pouring ∧
      (s false).atr.restarting = false ∧ drbgReady (s false) (laneDrbg .cope) = true ∧ (s false).gen.windowDone = true ∧
      (s false).srm.dirReady = true ∧ (s true).mld.pour.get .cope = some { step := 5, slotB := false, paused := true } := by decide

theorem test_at_ReserveRestartAndResume :
    let s := fun (r : Bool) (a : BitVec 56) => ({ poured false with
      atr := { half := ⟨.serving, .serving⟩, restarting := r }, gen := { a } } : State)
    (s false 1000).pwr.phase = .step5 ∧ (s false 1000).mld.runAtrium = some wide ∧ (s false 1000).atr.restarting = false ∧
      counting (s false 1000) 1 = false ∧ (fltSrc (s false 1000) 1).cls ≤ 1 ∧ (s false 999).wld.heartbeat + 1000 ≤ tick (s false 1000) ∧
      tick (s false 999) < (s false 999).wld.heartbeat + 1000 ∧ (s true 0).atr.restarting = true ∧
      (s true 0).mld.atriumNext = none ∧ (s true 0).cores.length = 9 ∧ (fltSrc (s false 1000) 2).cls ≤ 1 := by decide

/-! ### Worlds, regions, local cipher unit, debug port -/

/-- Core 0 of `ram` with a region that grants it the register fabric. -/
def fabric : State :=
  { ram with wld := { gates := resetGates, regions := [(32, { base := 0x20000, limit := 0x21FFF, perm := 0x1FF, en := true })] } }

theorem test_at_WorldRegistersAndRegions_writes : (∀ g : Fin 11, ∀ a ∈ [0x21000010, 0x21000014, 0x21000100 + 4 * g.val, 0x21020000,
      0x21010000 + 0x400 * (0x21 : Byte).toNat + 0x10 * (31 : BitVec 5).toNat + 4 * (3 : BitVec 2).toNat],
        granted fabric (initOf fabric 0) a .write = true) ∧
    granted fabric (initOf fabric (0 : CoreId).val) (0x21010200 + 0x400 * (0x3F : Byte).toNat) .read = true ∧ (0x3F : Byte).toNat < 0x40 ∧ fabric.atr.restarting = false ∧ knownCtrl (0x21 : Byte).toNat = true ∧
    (regionAt fabric 0x21 31).lock = false ∧ floorGate 10 = false ∧ fabric.lcu.owner = 0 ∧
    ({ fabric with lcu := { owner := 1 } } : State).lcu.owner = 1 := by decide

theorem test_at_WorldRegistersAndRegions_refused :
    (let s : State := { fabric with wld := { fabric.wld with
        regions := fabric.wld.regions ++ [(regionKey 0x21 31, { lock := true })] } }
     granted s (initOf s 0) (0x21010000 + 0x400 * 0x21 + 0x10 * 31) .write = true ∧ (regionAt s 0x21 31).lock = true) ∧
    (0x3F : Byte).toNat < 0x40 ∧ granted ram (initOf ram 0) (0x21010000 + 0x400 * 0x3F) .write = false ∧
    granted ram (initOf ram 0) 0x21000014 .write = false ∧ granted ram (initOf ram 0) 0x21000010 .write = false ∧
    granted ram (initOf ram 0) (0x21000100 + 4 * 10) .write = false := by decide

theorem test_at_WorldRegistersAndRegions_parity : knownCtrl (0 : Byte).toNat = true ∧ quietFaults ram ∧
    (regionAt ram 0 0).base.toNat ≤ 0x100000 / 4096 ∧ 0x2FFFFF / 4096 < (regionAt ram 0 0).limit.toNat := by
  refine ⟨by decide, quiet_of _ (by decide) rfl rfl rfl (by intro h; cases h <;> rfl), by decide, by decide⟩

theorem test_at_CipherUnitAndDebugPort :
    let s := fun l => ({ fabric with lcu := l } : State)
    let d := fun (b : Bool) (a : Word) => ({ ram with lcs := { debug := b, dbgAddr := a } } : State)
    (granted (s { owner := 1 }) (initOf (s { owner := 1 }) 0) 0x21020004 .write = true ∧ (s { owner := 1 }).lcu.busy = false) ∧
      ((s { busy := true, op := 1 }).lcu.busy = true ∧ (s { busy := true, op := 1 }).lcu.keyLen = 0 ∧
        (s { busy := true, op := 1 }).lcu.decrypt = false ∧ (s {}).cores ≠ []) ∧
      (d true 0).lcs.debug = true ∧ (0 : BitVec 33).getLsbD 32 = false ∧ (d false 0).lcs.debug = false ∧
      granted (d true 0x2FFFFF) debugInit ((d true 0x2FFFFF).lcs.dbgAddr.toNat / 4 * 4) .read = true ∧
      areaOf (d true 0x2FFFFF) ((d true 0x2FFFFF).lcs.dbgAddr.toNat / 4 * 4) = some .reserveRam := by decide

/-! ### Jobs -/

/-- Floor core 1 runs the program of gallery 1 while that of gallery 2 waits with work; the turn ends at tick 5. -/
def turns (now : BitVec 56) : State :=
  { poured false with
    gen := { a := now }, cores := updNth (live false).cores 1 fun _ => { kernel with level := true, curPart := 3 }
    wld := { gates := resetGates, programs := [(1, some { part := 3, turnEnd := 5 }), (2, some { part := 4, handProd := 1 })] } }

theorem test_at_TurnExpiryAndEntropyReads_turn : runs (turns 5) (1 : CoreId).val = true ∧ runProgram (turns 5) 1 = some 1 ∧
    program (turns 5) (coreHalf 1) 1 = some { part := 3, turnEnd := 5 } ∧ 5 ≤ tick (turns 5) ∧ tick (turns 4) < 5 ∧
    othersWait (turns 5) (coreHalf 1) 1 = true := by decide

theorem test_at_TurnExpiryAndEntropyReads_entropy :
    let s := fun st => ({ fabric with rng := { drbg := List.replicate 4 { state := st } } } : State)
    (runs (s .ready) 0 = true ∧ granted (s .ready) (initOf (s .ready) 0) 0x20050804 .read = true ∧ drbgReady (s .ready) 3 = true ∧
      drbgReady (s .exhausted) 3 = false) ∧
    granted ram (initOf ram 0) 0x20050804 .read = false ∧
    32 ≤ ({ fabric with rng := { fifo := List.replicate 32 true } } : State).rng.fifo.length ∧
    ({ fabric with rng := { fifo := List.replicate 31 true } } : State).rng.fifo.length < 32 := by decide

/-- A trained port whose function 1 has bus mastering and MSI-X. -/
def upPort : Port :=
  { linkUp := true, mayTrain := true, vfEnable := true, numVfs := 255, fns := [(1, { busMaster := true, msixEn := true })] }

/-- Gallery 1 with the ordinary submission queue 63 of depth 16 on completion queue 1, and one entry sampled in it. -/
def queues (w : Bool) : State :=
  { poured w with
    hst := { port := ⟨upPort, upPort⟩ }
    sqs := [(64, { exist := true, admin := true, id := 0, gen := 1, depthLog2 := 4, pi := 1, sampled := 1 }),
      (127, { exist := true, id := 1, gen := 1, depthLog2 := 4, cq := 1, base := 0x10000, pi := 1, sampled := 1 })]
    cqs := [(64, { exist := true, gen := 1, depthLog2 := 4, holdLog2 := 4 }),
      (65, { exist := true, gen := 1, depthLog2 := 4, holdLog2 := 4, base := 0x20000, intEn := true, vector := 0, modCount := 1 })] }

/-- The entry waits in queue 63, or in the admin queue. -/
def waiting (q : Nat) : State :=
  { queues false with
    sqs := (queues false).sqs.map fun e => (e.1, if e.1 = 64 + q then e.2 else { e.2 with pi := 0, sampled := 0 })
    galv := [(1, { eff := ⟨32, 32⟩, allowance := ⟨32, 32⟩ })] }

theorem test_at_EntryFetchReadsInTurn_job : serving (waiting 63) .cope = true ∧ (waiting 63).gen.windowDone = false ∧
    (gal (waiting 63) 1).state = .active ∧ nextPartner (waiting 63) .cope 1 = none ∧ nextAgain (waiting 63) .cope 1 = none ∧
    (gv (waiting 63) 1).chainSq.get .cope = none ∧
    (turnOrder ((gv (waiting 63) 1).lastSq.get .cope)).find? (mayRead (waiting 63) .cope 1) = some 63 := by decide +kernel

theorem test_at_EntryFetchReadsInTurn_admin :
    (turnOrder ((gv (waiting 0) 1).lastSq.get .cope)).find? (mayRead (waiting 0) .cope 1) = some 0 := by decide +kernel

theorem test_at_EntryFetchReadsInTurn_nothing : serving State.reset .cope = false ∧ (queues true).gen.windowDone = true ∧
    (gal (queues false) 255).state ≠ .active := by decide

/-- A read of the admin queue's entry, of a job's input, and of the first bytes of a key block of 256 bytes, for this tick. -/
def reading (waits : Nat) : State :=
  { queues false with
    reads := [⟨7, .cope, 0, .entry 64 0⟩, ⟨8, .cope, 0, .input 3 0 0 8 false⟩, ⟨9, .cope, 0, .input 3 0 0 5 true⟩]
    jobs := [{ id := 3, gal := 1, sq := 127, sqGen := 1, steps := [{ entry := zeros 6 ++ le 2 256 ++ zeros 56, waits }] }] }

theorem test_at_HostReadReturnTakesEntryOrInput :
    (let s := reading 1
     s.reads.find? (·.rid = 7) = some ⟨7, .cope, tick s, .entry 64 0⟩ ∧ againAt s 64 0 = none ∧ 1199 < 1200 ∧ s.gen.windowDone = false ∧
      (sq s 64).admin = true ∧ holdRoom s (cqKey s 64) ≠ 0) ∧
    (let s := reading 1
     s.reads.find? (·.rid = 8) = some ⟨8, .cope, tick s, .input 3 0 0 8 false⟩ ∧ job s 3 = some (nth {} s.jobs 0) ∧
      (updNth (nth {} s.jobs 0).steps 0 fun e => { e with waits := e.waits - 1 }).all fun e => e.waits = 0) ∧
    ((updNth (nth {} (reading 2).jobs 0).steps 0 fun e => { e with waits := e.waits - 1 }).any fun e => e.waits ≠ 0) = true ∧
    (reading 1).reads.find? (·.rid = 10) = none := by decide

/-- Three bytes of a header that names 256 bytes, the largest length. -/
theorem test_at_HostReadReturnTakesEntryOrInput_head :
    let s := reading 1
    let d := padTo 5 (ascii "D0256")
    s.reads.find? (·.rid = 9) = some ⟨9, .cope, tick s, .input 3 0 0 5 true⟩ ∧ decNum (slice d 1 4) = some 256 ∧ d.length < 256 ∧
      0 + 256 ≤ ((nth {} s.jobs 0).steps.head?.map (·.req.inLen)).getD 0 := by decide

/-- A job of Pattern `pat` in queue 63, in phase `ph`, with slots booked in this tick. -/
def jobOf (pat : Nat) (ph : JobPhase) : Job :=
  { id := 3, gal := 1, sq := 127, sqGen := 1, fetch := 0, phase := ph, steps := [{ entry := le 2 pat ++ [0x03] ++ zeros 61 }]
    book := some { tick := 0, lane := some 39, len := 1 }, computed := none }

def withJob (w : Bool) (j : Job) : State := { waiting 63 with gen := { windowDone := w }, jobs := [j] }

theorem withJob_quiet (j : Job) : quietFaults (withJob false j) :=
  quiet_of _ (by show StartPhase.step5 ≠ _; decide) rfl rfl rfl (by intro h; cases h <;> rfl)

/-- The job is read, its gallery holds a lane-tick of lane 0 in this tick, and slots 0 to `n - 1` of it hold confirmed work. -/
def prepping (n : Nat) : State :=
  { withJob false { jobOf 0x0F00 .reading with book := none } with
    galv := [(1, { eff := ⟨128, 128⟩ })]
    lanes := { half := ⟨{ lanes := [{ state := .active }], held := [{ tick := 0, pos := some 0, len := n }] }, {}⟩ } }

theorem test_at_JobPreparesAndExecutes_prepares :
    let s := prepping 7
    let j := { jobOf 0x0F00 .reading with book := none }
    job s 3 = some j ∧ j.phase = .reading ∧ s.gen.windowDone = false ∧ serving s .cope = true ∧ j.early = none ∧ prepTurn s j = true ∧
      prepSlot s .cope 1 = some { tick := 0, pos := some 0, first := 7, len := 1 } ∧ j.steps.all (·.waits = 0) = true ∧
      laneAt s .cope 0 0 < (s.lanes.half.get .cope).lanes.length ∧
      (nth {} (s.lanes.half.get .cope).lanes (laneAt s .cope 0 0)).contexts.all (·.1 < 16) = true ∧
      (39 : Fin 80).val / 40 = halfNo j.half ∧ prepSlot (prepping 8) .cope 1 = none := by decide +kernel

theorem prepping_quiet : quietFaults (prepping 7) :=
  quiet_of _ (by show StartPhase.step5 ≠ _; decide) rfl rfl rfl (by intro h; cases h <;> rfl)

theorem test_at_JobPreparesAndExecutes_executes :
    (let j := jobOf 0x0F00 .confirmed
     canRun (withJob false j) j = true ∧ j.segs.head?.any (·.unwrap) = false ∧ j.laneDraws = [] ∧ j.pat ≠ 0x0F03 ∧
      handoffPat j.pat = false) ∧
    (let j := jobOf 0x1FFF .confirmed
     canRun (withJob false j) j = true ∧ j.laneDraws = [] ∧ handoffPat j.pat = true ∧ j.pat ≠ 0x0F03) ∧
    canRun (withJob true (jobOf 0x0F00 .confirmed)) (jobOf 0x0F00 .confirmed) = false ∧
    ({ jobOf 0x0F00 .finished with outSent := true } : Job).outSent = true ∧ (jobOf 0x0F00 .finished).outSent = false ∧
    (jobOf 0x0F00 .finished).phase ≠ .reading ∧ (jobOf 0x0F00 .finished).phase ≠ .ruled := by decide

theorem plain (w : Bool) (j : Job) (h1 : j.id = 3) (h2 : j.sq = 127) (h3 : j.sqGen = 1) (h4 : j.origin = .queue) (h5 : j.chain = false)
    (h6 : j.batch = false) : plainJob (withJob w j) 3 j := by
  refine ⟨by simp [job, withJob, h1], h4, h5, h6, ?_⟩
  rw [h2, h3]; unfold queuePair; exact ⟨rfl, rfl, rfl⟩

/-- Ticket 0 of the program of gallery 1 stands for the job; the result record in its partition is all zero: `DONE`. -/
theorem test_at_HandoffAndWaitsEnd_result :
    let j := { jobOf 0x1000 .handoff with deadline := some 0 }
    let p : Program := { base := 0x10000, resProd := 1, tickets := [(0, 3, 0, 0)] }
    let s : State := { withJob true j with wld := { gates := resetGates, programs := [(1, some p)] } }
    let r := partRead s .cope p (0x400 + 32 * (p.resCons % 16)) 32
    job s 3 = some j ∧ s.gen.windowDone = true ∧ program s .cope 1 = some p ∧ p.resCons ≠ p.resProd ∧ p.resCons < 32 ∧
      (p.tickets.find? (·.1 = leAt r 0 4)).map (·.2.1) = some 3 ∧ byteAt r 4 = 0 ∧ leAt r 8 4 ≤ j.req.outCap ∧
      j.deadline.any (· ≤ tick s) = true := by decide

theorem test_at_HandoffAndWaitsEnd_waits : plainJob (withJob true { jobOf 0x1000 .handoff with deadline := some 0 }) 3
      { jobOf 0x1000 .handoff with deadline := some 0 } ∧
    (jobOf 0x1000 .handoff).deadline.any (· ≤ 0) = false ∧
    plainJob (withJob true { jobOf 0x0112 .confirmed with deadline := some 0, book := none }) 3
      { jobOf 0x0112 .confirmed with deadline := some 0, book := none } :=
  ⟨plain _ _ rfl rfl rfl rfl rfl rfl, by decide, plain _ _ rfl rfl rfl rfl rfl rfl⟩

/-- A completion of the job due in completion queue 1, not issued or issued. -/
def held (issued : Bool) : State :=
  { withJob true (jobOf 0x0F00 .finished) with
    cqs := [(65, { exist := true, gen := 1, depthLog2 := 4, holdLog2 := 4, base := 0x20000, intEn := true, vector := 0, modCount := 1
                   used := 1, hold := [{ sq := 127, jobs := [3], job := some 3, issued, outsIssued := issued }] })] }

theorem test_at_CompletionsReachTheHost_unkept (y : Held) : afterKept (held false) 65 y = false := rfl

theorem test_at_CompletionsReachTheHost_issue :
    (cq (held false) 65).exist = true ∧ (cq (held false) 65).mirror = false ∧ (cq (held false) 65).error = false ∧
    nextItem (held false) 65 = some { sq := 127, jobs := [3], job := some 3 } ∧ cqPort (held false) 65 = some .cope ∧
    ringCount 4 0 0 < 2 ^ 4 ∧ nextItem (held true) 65 = none ∧ qkey (1 : Gallery).toNat (1 : QIndex).toNat = 65 := by decide

theorem test_at_CompletionsReachTheHost_written :
    (cq (held true) 65).hold.find? (·.issued) = some { sq := 127, jobs := [3], job := some 3, issued := true, outsIssued := true } ∧
    (held true).lcs.resetAfter = none ∧ (cq (held false) 65).hold.find? (·.issued) = none := by decide

theorem test_at_CompletionsReachTheHost_signal :
    let s : State := { queues true with
      cqs := [(65, { exist := true, intEn := true, unsignalled := 1 })]
      hst := { port := ⟨upPort, upPort⟩, msix := [(2048, { mask := false })] } }
    s.gen.windowDone = true ∧ (cq s 65).tested = false ∧ (cq s 65).exist = true ∧ (cq s 65).intEn = true ∧ 0 < (cq s 65).unsignalled ∧ (cq s 65).oldest + (cq s 65).modTime ≤ tick s ∧
      cqPort s 65 = some .cope ∧ (fnCfg s .cope 1).msixEn = true ∧ (fnCfg s .cope 1).fnMask = false ∧
      (fnCfg s .cope 1).busMaster = true ∧ (s.hst.msix.get {} (2048 * 1 + (cq s 65).vector)).mask = false := by decide

theorem test_at_HostErrorsAndDeferredFlush_reads : (cq (reading 1) 64).exist = true ∧
    (reading 1).reads.find? (·.rid = 7) = some ⟨7, .cope, tick (reading 1), .entry (qkey 1 0) 0⟩ ∧ againAt (reading 1) 64 0 = none ∧
    (sq (reading 1) 64).admin = true ∧ holdRoom (reading 1) (cqKey (reading 1) 64) ≠ 0 ∧
    (reading 1).reads.find? (·.rid = 8) = some ⟨8, .cope, tick (reading 1), .input 3 0 0 8 false⟩ ∧
    (nth {} (reading 1).jobs 0).steps.length = 1 := by decide

theorem test_at_HostErrorsAndDeferredFlush_output :
    plainJob (withJob true { jobOf 0x0F00 .finished with outSent := true }) 3 { jobOf 0x0F00 .finished with outSent := true } ∧
    ({ jobOf 0x0F00 .finished with outSent := true } : Job).delivered = false :=
  ⟨plain _ _ rfl rfl rfl rfl rfl rfl, rfl⟩

theorem test_at_HostErrorsAndDeferredFlush_flush :
    let s : State := { queues true with sqs := [(127, { exist := true, closing := true, flushKept := true, cq := 1 })] }
    (sq s 127).exist = true ∧ (sq s 127).closing = true ∧ (sq s 127).flushKept = true ∧ (cq s (cqKey s 127)).exist = true ∧
      (cq s (cqKey s 127)).error = false ∧ (cq s (cqKey s 127)).full = false ∧ 0 < holdFree (cq s (cqKey s 127)) ∧
      (sq (queues true) 127).flushKept = false := by decide

/-! ### Patterns and Cupola -/

theorem test_at_PatternRowsCompute : (∀ n ∈ [0x0100, 0x0F00, 0x0F03],
      computes (withJob false (jobOf n .confirmed)) (jobOf n .confirmed) n = true) ∧
    computes (withJob false (jobOf 0x0F01 .confirmed)) (jobOf 0x0F01 .confirmed) 0x0F00 = false ∧
    (jobOf 0x0F01 .confirmed).phase ≠ .cupola := by decide

/-- A Cupola job of RSA_PUBLIC, whose result is computed, on unit 8 of Cope with intake behind it. -/
theorem test_at_PatternRowsCompute_cupola :
    let j := jobOf 0x0911 .cupola
    let o : CupOp := { job := some 3, gal := 1, age := 9, len := 9 }
    let s : State := { withJob false j with
      cup := { units := ⟨List.replicate 8 {} ++ [{ state := .active, mask := true, op := some o }], []⟩ } }
    0x0900 ≤ 0x0911 ∧ 0x0911 < 0x0A00 ∧ j.phase = .cupola ∧ j.pat = 0x0911 ∧
      (((s.cup.units.get j.half).filterMap fun u => if u.mask then u.op else none).find? fun o => o.job = some 3) = some o ∧
      (opResult s j o).isSome = true := by decide +kernel

/-- ECHO of four input bytes into output areas of 4 and of 3 bytes. -/
def echoJob (cap : Nat) : Job :=
  { jobOf 0x0F00 .confirmed with
    steps := [{ entry := le 2 0x0F00 ++ [0x13, 0, 0, 0] ++ le 2 4 ++ le 2 cap ++ zeros 54, input := [1, 2, 3, 4] }] }

/-- HASH with SHA-256 of no byte, first and last entry at once. -/
def hashJob : Job := jobOf 0x0800 .confirmed

theorem test_at_DiagnosticAndHashResults :
    (let j := jobOf 0x0F00 .confirmed
     job (withJob false j) 3 = some j ∧ j.book = some { tick := 0, lane := some 39, len := 1 } ∧ j.step.verdict = none ∧
      computes (withJob false j) j 0x0F00 = true ∧ j.req.inHost = false) ∧
    (computes (withJob false (echoJob 4)) (echoJob 4) 0x0F00 = true ∧ (echoJob 4).req.inHost = true ∧
      (echoJob 4).req.inLen ≤ (echoJob 4).req.outCap) ∧
    (computes (withJob false (echoJob 3)) (echoJob 3) 0x0F00 = true ∧ (echoJob 3).req.outCap < (echoJob 3).req.inLen) ∧
    (∀ n ∈ [0x0F01, 0x0F02, 0x0F03], computes (withJob false (jobOf n .confirmed)) (jobOf n .confirmed) n = true) ∧
    computes (withJob false hashJob) hashJob 0x0800 = true ∧ hashJob.req.first = true ∧ hashJob.req.last = true := by decide

/-- Unit 8 of Cope is the only active one; `o` waits for it or runs on it. -/
def cupola (w : Bool) (j : Job) (wait : List CupOp) (u : CupUnit) : State :=
  { withJob w j with cup := { units := ⟨List.replicate 8 {} ++ [u], []⟩, waiting := ⟨wait, []⟩ } }

def op3 : CupOp := { job := some 3, gal := 1 }

theorem plain_cupola (w : Bool) (j : Job) (l : List CupOp) (u : CupUnit) (h : plainJob (withJob w j) 3 j) : plainJob (cupola w j l u) 3 j := h

theorem test_at_CupolaOperationRuns_start :
    let s := cupola true (jobOf 0x0902 .cupola) [op3] { state := .active }
    plainJob s 3 (jobOf 0x0902 .cupola) ∧ op3.job = some 3 ∧ op3.gal = (jobOf 0x0902 .cupola).gal ∧ halfStopped s .cope = false ∧
      s.gen.windowDone = true ∧ serving s .cope = true ∧ (List.range 9).find? (freeUnit s .cope · .active) = some 8 ∧
      s.cup.waiting.get .cope = [op3] ∧ s.cup.reserve = [] ∧ op3.rerun = false ∧ opMustWait s op3 = false ∧ (jobOf 0x0902 .cupola).gal ∈ galleries s ∧
      0 ≤ (gv (updateCredits s .cope) 1).credit.get .cope :=
  ⟨plain_cupola _ (jobOf 0x0902 .cupola) _ _ (plain true _ rfl rfl rfl rfl rfl rfl), by decide +kernel⟩

/-- MLDSA_SIGN with room for its output. -/
def signJob : Job := { jobOf 0x0920 .cupola with steps := [{ entry := le 2 0x0920 ++ [3] ++ zeros 5 ++ le 2 65535 ++ zeros 54 }] }

/-- RSA_PUBLIC of an all-zero modulus fails intake at row 4; MLDSA_SIGN passes it. -/
theorem test_at_CupolaOperationRuns_intake :
    let run := { op3 with age := 2, len := 2 }
    (let s := cupola false (jobOf 0x0911 .cupola) [] { state := .active, op := some run }
     nth {} (cupUnits s .cope) 8 = { state := .active, op := some run } ∧ s.gen.windowDone = false ∧
      (intakeVerdict (cxOf s (jobOf 0x0911 .cupola) s.freeCtr run.lane)).any (·.status ≠ .done) = true) ∧
    (let s := cupola false signJob [] { state := .active, op := some run }
     intakeVerdict (cxOf s signJob s.freeCtr run.lane) = none) := by decide +kernel

theorem test_at_CupolaOperationRuns_compare :
    let j := { jobOf 0x0902 .cupola with computed := some { output := [1] } }
    let o := { op3 with age := 80, len := 80 }
    let s := cupola false j [] { state := .active, mask := true, op := some o }
    plainJob s 3 j ∧ halfStopped s .cope = false ∧ s.gen.windowDone = false ∧ (nth {} (cupUnits s .cope) 8).op = some o ∧
      (nth {} (cupUnits s .cope) 8).mask = true ∧ o.len ≤ o.age ∧ j.computed = some { output := [1] } ∧ o.rerun = false ∧
      ({ o with rerun := true } : CupOp).rerun = true ∧ quietFaults s :=
  ⟨plain_cupola _ { jobOf 0x0902 .cupola with computed := some { output := [1] } } _ _ (plain _ _ rfl rfl rfl rfl rfl rfl), by decide,
    by decide, by decide, by decide, by decide, by decide, by decide,
    by decide, withJob_quiet { jobOf 0x0902 .cupola with computed := some { output := [1] } }⟩

/-! ### Entropy -/

/-- Source `n` is `x`. -/
def source (n : Nat) (x : Source) : State := { live false with rng := { src := [(n, x)] } }

theorem source_quiet (n : Nat) (x : Source) : quietFaults (source n x) :=
  quiet_of _ (by show StartPhase.step5 ≠ _; decide) rfl rfl rfl (by intro h; cases h <;> rfl)

theorem test_at_EntropySourcesAndInstances_bits :
    let at' := fun x => srcAt (source 15 x) 15
    (at' {}).state = .off ∧ (at' { state := .healthy, run := 39, last := some true }).state ≠ .off ∧ 39 + 1 < 41 ∧
      aptFails ([] ++ [true]) = false ∧ (at' { state := .starting, run := 40, last := some true }).last = some true ∧ 41 ≤ 40 + 1 ∧
      (at' { state := .starting }).win.length < 4096 ∧ (at' { state := .starting }).apt.length < 1024 := by decide

/-- 4,096 bits of a maximal-length sequence of period 15 pass; one bit repeated fails with cause 3. -/
theorem test_at_EntropySourcesAndInstances_window :
    let w := (List.replicate 274 [true, false, false, false, true, false, false, true, true, false, true, false, true, true, true]).flatten
    4096 ≤ w.length ∧ windowCause (w.filter id).length ([1, 2, 3, 4].map (lagOf w)) 0 = none ∧
      windowCause 4096 [127, 127, 127, 127] 0 = some 3 := by decide +kernel

theorem test_at_EntropySourcesAndInstances_block :
    let a := (List.range 1024).map fun i => i % 2 == 0
    1024 ≤ a.length ∧ aptFails a = false ∧ ([] : List Bool).length < 4096 := by decide +kernel

/-- Two healthy sources of Cope, one with a block; a held value feeds instances 0 and 2. -/
def feeding (st : DrbgState) (last : Nat) : State :=
  { live true with
    gen := { a := 1000, windowDone := true }
    rng := { src := [(0, { state := .healthy, block := some [true] }), (1, { state := .healthy })], held := ⟨[[1]], []⟩
             drbg := List.replicate 4 { state := st, lastReseed := last } } }

theorem test_at_EntropySourcesAndInstances_instances : nextSource (feeding .ready 0) .cope = some 0 ∧
    (srcAt (feeding .ready 0) 0).block = some [true] ∧ nextSource (feeding .ready 0) .drag = none ∧
    feedOf (feeding .ready 0) 0 = some .cope ∧ feedOf (feeding .ready 0) 3 = some .cope ∧ feedOf (feeding .ready 0) 1 = none ∧
    (feeding .ready 0).rng.drbg.length = 4 ∧ (feeding .notReady 0).rng.deviceRaw = false ∧
    (nth {} (feeding .notReady 0).rng.drbg 0).state = .notReady ∧
    (nth {} (feeding .ready 0).rng.drbg 0).lastReseed + 1000 ≤ tick (feeding .ready 0) ∧ (feeding .ready 0).gen.windowDone = true ∧
    (reseedCmds (feeding .ready 0) 0).filter (fun c => 1 ≤ c.mark) = [] := by decide

/-- An admin command of the Curator's queue 0 or of gallery `g`, with parameters from byte 0x10 on. -/
def cmd (g op : Nat) (ps : List Byte) (ph : AdmPhase := .confirmed) (mark : Nat := 0) : AdminCmd :=
  { gal := g, sq := 0, sqGen := 1, entry := padTo 64 ([BitVec.ofNat 8 op] ++ zeros 15 ++ ps), phase := ph, seq := 5, mark }

/-- The queue pairs of the Curator and of gallery 1. -/
def pairs : Tab Sq := [(0, { exist := true, admin := true, gen := 1, depthLog2 := 4 }), (64, { exist := true, admin := true, gen := 1, depthLog2 := 4 })]
def pairCqs : Tab Cq := [(0, { exist := true, gen := 1, depthLog2 := 4, holdLog2 := 4 }), (64, { exist := true, gen := 1, depthLog2 := 4, holdLog2 := 4 })]

theorem test_at_EntropySourcesAndInstances_reseed :
    let c := cmd 0 0x93 [3] .running 1
    let s : State := { feeding .ready 0 with adm := [c], sqs := pairs, cqs := pairCqs }
    (reseedCmds s 3).filter (fun c => 1 ≤ c.mark) = [c] ∧ c.unread = false ∧ queuePair s c.key c.sqGen := by
  unfold queuePair; decide

/-! ### Strongroom -/

/-- A part in PRODUCTION with a Device Root and a Vault Epoch Key, both banks available, slot `n` of gallery 1. -/
def vault (n : Nat) (srm : Strongroom) : State :=
  { poured true with
    lcs := { state := .production, fuses := { rootA := zeros 48, rootAValid := 3, stTest := 3, stProd := 3 } }
    rng := { drbg := List.replicate 4 { state := .ready } }
    sqs := pairs, cqs := pairCqs
    srm := { srm with epoch0 := some ⟨zeros 32, zeros 32⟩, dirReady := true, map := [(n, { owner := 1, assigned := true })] } }

theorem vault_quiet (n : Nat) (srm : Strongroom) : quietFaults (vault n srm) :=
  quiet_of _ (by show StartPhase.step5 ≠ _; decide) rfl rfl rfl (by intro h; cases h <;> rfl)

/-- The slot sealing key of epoch register 0 in `vault`. -/
def vaultKey : Bytes := (sealKey (vault 0 {}) false).getD []

theorem vault_sealKey (n : Nat) (srm : Strongroom) : sealKey (vault n srm) false = some vaultKey := rfl

/-- The empty record of slot `n` of gallery 1, sealed. -/
def goodRec (n : Nat) : Rec := { slot := n, gal := 1 : Rec }.sealWith vaultKey (zeros 12) []

/-- A bank that holds a good or a failing record of slot `n`. -/
def bankOf (n : Nat) (good : Bool) (pos : Nat := 0) : Bank :=
  { available := true, recs := [(n, some (if good then goodRec n else { corrupt := true }))], scrubPos := pos }

/-- The record is the good copy of slot `n` wherever the part holds it with the keys and the map of `vault n`. -/
theorem good_at (s : State) (n : Nat) (h : Half) (hk : sealKey s false = some vaultKey) (hs : sealedSession s = false)
    (hm : mapEnt s n = { owner := 1, assigned := true }) (hb : (s.srm.bank.get h).available = true)
    (hst : (s.srm.bank.get h).stale.contains n = false) (hc : (s.srm.bank.get h).recs.get none n = some (goodRec n)) :
    goodCopy s h n = some (goodRec n) := by
  refine goodCopy_sealWith s h { slot := n, gal := 1 } vaultKey (zeros 12) [] hk hs hb hst ?_ ?_ ?_ rfl
  · show (match (s.srm.bank.get h).recs.get none n with | some r => some r | none => _) = _
    rw [hc]; rfl
  · show 1 = (mapEnt s n).owner
    rw [hm]
  · show inWide s n = false
    rw [inWide, hm]; rfl

theorem vault_good (n : Nat) (srm : Strongroom) (h : Half) (hb : (srm.bank.get h).available = true)
    (hs : (srm.bank.get h).stale.contains n = false) (hc : (srm.bank.get h).recs.get none n = some (goodRec n)) :
    goodCopy (vault n srm) h n = some (goodRec n) :=
  good_at _ n h (vault_sealKey n srm) rfl (by simp [mapEnt, vault, Tab.get]) hb hs hc

/-- Two banks that are available and hold nothing. -/
def upBanks : Two Bank := ⟨{ available := true }, { available := true }⟩

theorem bankOf_get (n : Nat) (g : Bool) (pos : Nat) :
    (bankOf n g pos).recs.get none n = some (if g then goodRec n else { corrupt := true }) := by
  show Tab.get none [(n, _)] n = _
  simp [Tab.get]

theorem test_at_StrongroomBackgroundSteps_scrub :
    let s := vault 65535 { bank := ⟨bankOf 65535 false 131070, bankOf 65535 true⟩ }
    s.gen.windowDone = true ∧ (s.srm.bank.get .cope).scrubDue ≤ tick s ∧ (s.srm.bank.get .cope).available = true ∧
      (s.srm.bank.get .cope).scrubPos = 2 * 65535 ∧ 65535 < 65536 ∧ roomPaused s = false ∧
      (s.srm.bank.get .cope).stale.contains 65535 = false ∧ s.srm.overwrite = false ∧ s.srm.quenching = false ∧
      goodCopy s .cope 65535 = none ∧ goodCopy s .drag 65535 = some (goodRec 65535) ∧
      ((vault 0 {}).srm.bank.get .cope).available = false ∧ (s.srm.bank.get .cope).wearDue ≤ tick s :=
  ⟨rfl, by decide, rfl, rfl, by decide, rfl, rfl, rfl, rfl, rfl, vault_good _ _ .drag rfl rfl (bankOf_get _ true _), rfl, by decide⟩

theorem test_at_StrongroomBackgroundSteps_reseal :
    (let s := vault 65534 { bank := ⟨bankOf 65534 true, bankOf 65534 true⟩, reseal := true, resealPos := ⟨65534, 65534⟩ }
     s.srm.reseal = true ∧ roomPaused s = false ∧ s.srm.overwrite = false ∧ s.srm.bank.cope.available = true ∧
      s.srm.bank.drag.available = true ∧ s.gen.windowDone = true ∧ s.srm.resealDue ≤ tick s ∧ drbgReady s 2 = true ∧
      s.srm.bank.cope.stale.contains 65534 = false ∧ s.srm.bank.drag.stale.contains 65534 = false ∧
      s.srm.resealPos = ⟨65534, 65534⟩ ∧ 65534 + 1 < 65536 ∧ ∀ k, goodCopy s k 65534 = some (goodRec 65534)) ∧
    (let s := vault 0 { bank := ⟨bankOf 0 true, bankOf 0 true⟩, reseal := true, resealPos := ⟨65536, 65536⟩ }
     s.srm.resealPos = ⟨65536, 65536⟩ ∧ s.srm.bank.cope.stale = [] ∧ s.srm.bank.drag.stale = []) ∧
    (vault 0 {}).srm.reseal = false := by
  refine ⟨⟨rfl, rfl, rfl, rfl, rfl, rfl, by decide, rfl, rfl, rfl, rfl, by decide, fun k => ?_⟩, ⟨rfl, rfl, rfl⟩, rfl⟩
  cases k
  · exact vault_good _ _ .cope rfl rfl (bankOf_get _ true _)
  · exact vault_good _ _ .drag rfl rfl (bankOf_get _ true _)

theorem test_at_StrongroomBackgroundSteps_overwrite :
    (let s := vault 0 { bank := ⟨bankOf 0 false, bankOf 0 false⟩, overwrite := true }
     s.srm.overwrite = true ∧ hasVek s = true ∧ drbgReady s 2 = true ∧ roomPaused s = false ∧ s.srm.overwritePos = ⟨0, 0⟩ ∧
      ∀ k, goodCopy s k 0 = none) ∧
    goodCopy (vault 65534 { bank := ⟨bankOf 65534 true, bankOf 65534 true⟩, overwrite := true }) .cope 65534 ≠ none := by
  refine ⟨⟨rfl, rfl, rfl, rfl, rfl, fun k => by cases k <;> rfl⟩, ?_⟩
  rw [vault_good 65534 { bank := ⟨bankOf 65534 true, bankOf 65534 true⟩, overwrite := true } .cope rfl rfl (bankOf_get _ true _)]
  exact Option.some_ne_none _

theorem test_at_StrongroomBackgroundSteps_draw :
    let s : State := { vault 0 {} with srm := {} }
    hasVek s = false ∧ s.srm.quenching = false ∧ s.pwr.phase ≠ .off ∧ drbgReady s 2 = true ∧ rootSel s ≠ 0 ∧ roomPaused s = false ∧
      1000 ≤ ({ s with srm := { seedAge := 1000 } } : State).srm.seedAge ∧ ({ s with srm := { seedAge := 999 } } : State).srm.seedAge < 1000 := by decide

theorem test_at_StrongroomBackgroundSteps_stale :
    let s := vault 9 { bank := ⟨{ bankOf 9 true with stale := [9] }, bankOf 9 true⟩ }
    s.srm.bank.cope.available = true ∧ s.srm.bank.drag.available = true ∧ roomPaused s = false ∧ s.srm.reseal = false ∧
      (∀ k ∈ (s.srm.bank.get .cope).stale, 9 ≤ k) ∧ 9 ∈ (s.srm.bank.get .cope).stale ∧ copyOf s .drag 9 = some (goodRec 9) :=
  ⟨rfl, rfl, rfl, rfl, by decide, by decide, rfl⟩

theorem test_at_StrongroomBackgroundSteps_cell :
    let s : State := { State.reset with pwr := { phase := .off, cellOnly := true }, srm := { epoch0 := some ⟨zeros 32, zeros 32⟩ } }
    s.pwr.cellOnly = true ∧ ∀ e v, epochReg s e = some v → v.x.length = 32 ∧ v.y.length = 32 := by
  refine ⟨rfl, fun e v h => ?_⟩
  cases e
  · have : v = ⟨zeros 32, zeros 32⟩ := (Option.some.inj h).symm
    subst this; decide
  · cases h

theorem test_at_StrongroomBackgroundSteps_gallery :
    let s : State := { poured false with gals := (poured false).gals ++ [(255, { state := .closing })] }
    (gal s (255 : Gallery).toNat).state = .closing ∧
      (s.adm.any fun c => c.phase == .running && c.op = 0x11 && c.p 0 1 = 255) = false ∧ (gal s (1 : Gallery).toNat).state = .active := by decide

/-! ### Monitors and recorder -/

/-- Monitor `m` with response `r` and a COUNT of 2 in 1,000 ticks, one event remembered. -/
def watch (m r : Nat) : State :=
  { poured false with
    gen := { a := 999 }, srm := { bank := ⟨{ available := true }, { available := true }⟩ }
    tmp := { mon := [(m, { response := BitVec.ofNat 2 r, countN := 2, window := 1000, history := [0], last := some 0 })] } }

theorem test_at_MonitorsAndRecorder_events : monitorInfo 0x20 = some ⟨1, 1, 16, false⟩ ∧ monActive (watch 0x20 1) 0x20 ⟨1, 1, 16, false⟩ = true ∧
    (watch 0x20 1).pwr.cellOnly = false ∧ (monEntry (watch 0x20 1) 0x20).last ≠ some (tick (watch 0x20 1)) ∧
    (monEntry (watch 0x20 1) 0x20).countN.toNat ≤ ((monEntry (watch 0x20 1) 0x20).history ++ [tick (watch 0x20 1)]).length ∧
    tick (watch 0x20 1) - nth 0 ((monEntry (watch 0x20 1) 0x20).history ++ [tick (watch 0x20 1)]) 0 < (monEntry (watch 0x20 1) 0x20).window.toNat ∧
    (watch 0x20 1).tmp.decision = none ∧ monHalf 0x20 = some .cope ∧ (watch 0x20 1).atr.half.get .cope = .serving ∧
    (watch 0x20 1).flt.halfReset.get .cope = none := ⟨rfl, by decide⟩

theorem test_at_MonitorsAndRecorder_responses : monitorInfo 0x00 = some ⟨1, 0, 16, false⟩ ∧ monitorInfo 0x22 = some ⟨0, 2, 16, false⟩ ∧
    monitorInfo 0x97 = some ⟨0, 3, 2, true⟩ ∧
    (monActive (watch 0x00 0) 0x00 ⟨1, 0, 16, false⟩ = true ∧ (monEntry (watch 0x00 0) 0x00).response = 0 ∧ logCount (watch 0x00 0) < 16384) ∧
    (monActive (watch 0x22 2) 0x22 ⟨0, 2, 16, false⟩ = true ∧ (monEntry (watch 0x22 2) 0x22).response = 2) ∧
    (monActive (watch 0x97 3) 0x97 ⟨0, 3, 2, true⟩ = true ∧ (monEntry (watch 0x97 3) 0x97).response = 3) ∧
    (([] : List Nat) ++ [999]).length < (monEntry (watch 0x22 2) 0x22).countN.toNat ∧
    monActive { State.reset with pwr := { phase := .off } } 0x00 ⟨1, 0, 16, false⟩ = false := ⟨rfl, rfl, rfl, by decide⟩

theorem test_at_MonitorsAndRecorder_recorder :
    let s := fun r => ({ poured false with rcd := r } : State)
    (60000000 ≤ (s { minuteTicks := 60000000 }).rcd.minuteTicks ∧ 1440 ≤ (1440 : Word).toNat - (s {}).rcd.live.minStart.toNat ∧
      (s {}).rcd.full = false ∧ (s {}).rcd.live.index ≠ 4095 ∧ (s { minuteTicks := 59999999 }).rcd.minuteTicks < 60000000) ∧
    60000000 ≤ (s { sinceCheckpoint := 60000000 }).rcd.sinceCheckpoint ∧ 1000000 ≤ (s { sinceRefresh := 1000000 }).rcd.sinceRefresh ∧
    (s {}).rcd.live.seq.toNat + 2 < 2 ^ 32 ∧ (15 ≤ 15 ∧ (-10 : Int) ≤ -10 ∧ (129 : Int) < 130) := by decide

/-! ### Custodian cards, ceremonies, archive media -/

/-- Card port 15 is `p`, in a part with a custodian set of shares 2 of 3. -/
def inPort (p : CardPort) : State :=
  { vault 0 {} with cus := { ports := [(15, p)], installed := true, n := 3, m := 2
                             cer := List.replicate 7 none ++ [some { ref := 7, ports := 0x8000, seq := 1 }] } }

theorem test_at_CardSession_start : (∀ p ∈ [({} : CardPort), { present := true, waits := .atr }, { present := true, waits := .power }],
      cardLive (inPort p) 15 = true) ∧ (card (inPort {}) 15).present = false ∧ (inPort {}).pwr.vcardOk = true ∧
    (card (inPort { waits := .atr }) 15).waits = .atr ∧ atrFault (inPort {}) {} = none ∧ ({} : Atr).ta1 = none ∧
    atrFault (inPort {}) { ta1 := some 0x18 } = none ∧ ta1Ok 0x18 = true ∧ atrFault (inPort {}) { ta3 := 15 } = some 1 ∧
    atrFault (inPort {}) { ta3 := 254 } = none ∧ atrFault (inPort {}) { classB := some false } = some 3 := by decide

theorem test_at_CardSession_blocks : (card (inPort { waits := .pps, noPps1 := true }) 15).waits = .pps ∧
    (card (inPort { waits := .ifs, ifsc := 16, attempts := 1 }) 15).waits = .ifs ∧
    (card (inPort { waits := .ifs, ifsc := 16, attempts := 1 }) 15).ifsc.toNat ≥ 16 ∧
    (card (inPort { waits := .ifs, ifsc := 16, attempts := 1 }) 15).attempts < 2 ∧
    (card (inPort { waits := .apdu 0xA4, ifsc := 16 }) 15).waits = .apdu 0xA4 ∧ (card (inPort { waits := .apdu 0xA4, ifsc := 16 }) 15).rx = [] ∧
    (card (inPort { waits := .apdu 0xA4, ifsc := 16 }) 15).ifsc.toNat ≥ 16 := by decide

theorem test_at_CardSession_holder :
    (let s := { inPort { state := .waitHolder } with gen := { a := 999999 } }
     (card s 15).state = .waitHolder ∧ s.gen.a.toNat < (card s 15).holderTick + 1000000) ∧
    (let s := { inPort { state := .waitHolder } with gen := { a := 1000000 } }
     (card s 15).holderTick + 1000000 ≤ s.gen.a.toNat ∧ drbgReady s 2 = true ∧ (runWants s 15 || cerWants s 15) = true) ∧
    (let s : State := { inPort { state := .waitHolder } with gen := { a := 1000000 }, cus := { ports := [(15, { state := .waitHolder })] } }
     (runWants s 15 || cerWants s 15) = false) := by decide

theorem test_at_CardSession_share :
    let s := inPort { state := .ready, share := [1] }
    (card s 15).state = .ready ∧ (card s 15).share ≠ [] ∧ s.cus.run = none ∧ eligible s 15 (cardIndex (card s 15)) = some 7 ∧
      nth none s.cus.cer 7 = some { ref := 7, ports := 0x8000, seq := 1 } ∧ (card (inPort {}) 15).share = [] ∧
      (card (inPort { present := true }) 15).present = true ∧
      ({ inPort {} with pwr := { phase := .step5, vcardOk := false } } : State).pwr.vcardOk = false := by decide

theorem test_at_CeremonyWindowsAndArchiveMedia_windows :
    (let s := inPort {}
     nth none s.cus.cer 7 = some { ref := 7, ports := 0x8000, seq := 1 } ∧ s.gen.windowDone = true ∧ 0 ≤ tick s ∧ citing s 7 = none ∧
      nth none s.cus.cer 0 = none) ∧
    (let c := cmd 0 0x33 [] .running
     let r : SetRun := { adopt := false, sq := 0, n := 3, m := 2, ports := 1, deadline := 0, point := [], secret := [] }
     let s : State := { vault 0 {} with adm := [c], cus := { run := some r } }
     s.cus.run = some r ∧ r.deadline ≤ tick s ∧ setCmd s r = some c) := by decide

/-- SD port 3 is `p`, with an archive write under way or none. -/
def media (p : ArcPort) (w : Option ArcWrite) : State := { vault 0 {} with arc := { ports := [(3, p)], write := w }, adm := [cmd 1 0x35 [1, 3] .running] }

theorem test_at_CeremonyWindowsAndArchiveMedia_cards : arcLive (media {} none) 3 = true ∧ (arcAt (media {} none) 3).state = .empty ∧
    (media {} none).arc.write = none ∧ (media {} none).arc.v18 = false ∧
    (let s : State := { media {} none with arc := { v18 := true } }
     arcLive s 3 = true ∧ (arcAt s 3).state = .empty ∧ s.arc.v18 = true ∧ ({} : SdCard).s18a = false) ∧
    (arcAt (media { state := .ready } none) 3).state = .ready := by decide

theorem test_at_CeremonyWindowsAndArchiveMedia_writes :
    let w : ArcWrite := { port := 3, gal := 1, sq := 0, ref := 0, records := [[1], [2]], attempts := 1 }
    let s := media { state := .busy, blocks := 8 } (some w)
    let s2 := media { state := .busy } (some { w with attempts := 2, records := [[1]] })
    s.arc.write = some w ∧ w.port = 3 ∧ w.waitCard = false ∧ (arcAt s 3).state = .busy ∧ arcLive s 3 = true ∧ w.records.tail = [[2]] ∧
      w.attempts < 2 ∧ ([[1]] : List Bytes).tail = [] ∧ arcCmd s2 = some (cmd 1 0x35 [1, 3] .running) ∧
      queuePair s2 (cmd 1 0x35 [1, 3] .running).key 1 ∧ (cmd 1 0x35 [1, 3] .running).unread = false := by
  unfold queuePair; decide

/-- `admRuns`, as a check that evaluates. -/
def runsNow (s : State) (g : Gallery) (q : QIndex) (op : Nat) (c : AdminCmd) : Bool :=
  decide (admAt s g.toNat q.toNat .confirmed = some c) && decide (c.op = op) && !c.unread && s.gen.windowDone &&
    ((admRow op).all fun r => r.clean c.entry && (!r.curator || decide (g = 0)) && (!r.reserve || !s.atr.restarting)) &&
    (decide (g ≠ 0) || !s.lcs.session || sessionAllows op) && (!(decide (0x80 ≤ op) && decide (op ≤ 0x86)) || s.mld.atriumPour.isNone)

theorem runs_of {s : State} {g : Gallery} {q : QIndex} {op : Nat} {c : AdminCmd} (h : runsNow s g q op c = true) : admRuns s g q op c := by
  unfold runsNow at h
  simp only [Bool.and_eq_true, decide_eq_true_eq, Bool.not_eq_true', Bool.or_eq_true] at h
  obtain ⟨⟨⟨⟨⟨⟨h1, h2⟩, h3⟩, h4⟩, h5⟩, h6⟩, h7⟩ := h
  refine ⟨h1, h2, h3, h4, fun r hr => ?_, fun hg hs => ?_, fun hl hu => ?_⟩
  · rw [hr] at h5
    simp only [Option.all_some, Bool.and_eq_true, Bool.or_eq_true, Bool.not_eq_true', decide_eq_true_eq] at h5
    refine ⟨h5.1.1, fun e => ?_, fun e => ?_⟩
    · simpa [e] using h5.1.2
    · simpa [e] using h5.2
  · simpa [hg, hs] using h6
  · simpa [hl, hu] using h7

/-- `c` waits alone at an admin queue. -/
def asked (s : State) (c : AdminCmd) : State := { s with adm := [c] }

/-- A custodian set and ceremony 7 for purpose `p`, its share threshold reached or not. -/
def ceremonies (p gal opener : Nat) (complete : Bool) : State :=
  { vault 0 { bank := upBanks } with
    cus := { installed := true, n := 3, m := 2, cer := List.replicate 7 none ++
      [some { ref := 7, purpose := p, gallery := gal, opener, uses := 1, complete }] } }

/-- CEREMONY_OPEN for purpose 3 on gallery 1 with 8,191 uses and a window of 1,000,000 ticks. -/
theorem test_at_CeremonyAndArchiveCommands_open :
    let c := cmd 0 0x30 ([3, 1, 0xFF, 0xFF] ++ le 2 8191 ++ le 4 1000000)
    let s := asked (ceremonies 1 0 0 false) c
    admRuns s 0 0 0x30 c ∧ s.lcs.session = false ∧ fieldOk (c.p 0 1) (c.p 1 1) = true ∧ hasRange (c.p 4 2) 1 8191 = true ∧
      1000000 ≤ c.p 6 4 ∧ mayOpen c.gal (c.p 0 1) (c.p 1 1) = true ∧ setThere s = true ∧ s.cus.cer.length = 8 ∧
      (List.range 8).find? (fun i => (nth none s.cus.cer i).isNone) = some 0 ∧ drbgReady s 2 = true := by
  exact ⟨runs_of (by decide), by decide⟩

theorem test_at_CeremonyAndArchiveCommands_refused :
    (let c := cmd 0 0x30 [10]
     admRuns (asked (ceremonies 1 0 0 false) c) 0 0 0x30 c ∧ mayOpen c.gal (c.p 0 1) (c.p 1 1) = true ∧ fieldOk (c.p 0 1) (c.p 1 1) = false) ∧
    (let c := cmd 1 0x30 [9]
     admRuns (asked (ceremonies 1 0 0 false) c) 1 0 0x30 c ∧ hasRange (c.p 0 1) 1 9 = true ∧ mayOpen c.gal (c.p 0 1) (c.p 1 1) = false) :=
  ⟨⟨runs_of (by decide), by decide⟩, runs_of (by decide), by decide⟩

theorem test_at_CeremonyAndArchiveCommands_wait_close :
    (let c := cmd 0 0x31 [7]
     let s := asked (ceremonies 1 0 0 true) c
     admRuns s 0 0 0x31 c ∧ cerOf s (c.p 0 4) = some (7, { ref := 7, purpose := 1, uses := 1, complete := true })) ∧
    (let c := cmd 0 0x32 [7]
     let s := asked (ceremonies 1 0 0 false) c
     admRuns s 0 0 0x32 c ∧ (cerOf s (c.p 0 4)).map (·.1) = some 7 ∧ citing s 7 = none) ∧
    (let c := cmd 1 0x32 [7]
     let s := asked (ceremonies 1 0 0 false) c
     admRuns s 1 0 0x32 c ∧ (cerOf s (c.p 0 4)).any (fun e => decide (e.2.opener ≠ c.gal)) = true) ∧
    (let c := cmd 1 0x31 [6]
     admRuns (asked (ceremonies 1 0 0 false) c) 1 0 0x31 c ∧ cerOf (asked (ceremonies 1 0 0 false) c) (c.p 0 4) = none) :=
  ⟨⟨runs_of (by decide), by decide⟩, ⟨runs_of (by decide), by decide⟩, ⟨runs_of (by decide), by decide⟩, runs_of (by decide), by decide⟩

/-- Sets of 16 cards with thresholds 2 and 16, and one with threshold 1. -/
theorem test_at_CeremonyAndArchiveCommands_sets (m : Byte) (hm : m ∈ [1, 2, 16]) (adopt : Bool) :
    let c := cmd 0 (if adopt then 0x34 else 0x33) (zeros 8 ++ [16, m, 0xFF, 0xFF] ++ le 4 1000000)
    let s := asked { vault 0 {} with cus := {} } c
    admRuns s 0 0 (if adopt then 0x34 else 0x33) c ∧ s.cus.run = none ∧ drbgReady s 2 = true ∧ setThere s = false ∧
      cerOf s 0 = none ∧ c.p 8 1 = 16 ∧ c.p 9 1 = m.toNat ∧ c.p 16 4 = 0 := by
  simp only [List.mem_cons, List.not_mem_nil, or_false] at hm
  rcases hm with rfl | rfl | rfl <;> cases adopt <;> exact ⟨runs_of (by decide), by decide⟩

/-- ARCHIVE_WRITE of gallery 1, which has no key, to a card with room for just its 2 records; ARCHIVE_SEAL of a written card. -/
theorem test_at_CeremonyAndArchiveCommands_archive :
    (let c := cmd 1 0x35 ([1, 3] ++ le 4 7)
     let s := asked { ceremonies 3 1 1 true with arc := { ports := [(3, { state := .ready, blocks := 4 })] } } c
     admRuns s 1 0 0x35 c ∧ (useCerLong s c.cited c.gal (c.p 2 4) 3 (c.p 0 1)).1 = true ∧ c.p 1 1 ≤ 3 ∧ (gal s (c.p 0 1)).state = .active ∧
      slotTurn s (c.p 0 1) c = true ∧ s.arc.write = none ∧ drbgReady s 2 = true ∧ hasVek s = true ∧ roomPaused s = false ∧
      (arcLive s (c.p 1 1) && (arcAt s (c.p 1 1)).state == .ready && writable (arcAt s (c.p 1 1)) &&
        decide (2 * arcLength s (c.p 0 1) ≤ (arcAt s (c.p 1 1)).blocks)) = true ∧ arcLength s (c.p 0 1) ≤ (gal s (c.p 0 1)).arcQuota) ∧
    (let c := cmd 0 0x36 ([3] ++ le 4 7)
     let s := asked { ceremonies 4 0 0 true with arc := { ports := [(3, { state := .ready, tmpWp := true })] } } c
     admRuns s 0 0 0x36 c ∧ c.p 0 1 ≤ 3 ∧ s.arc.write = none ∧ (useCer s c.gal (c.p 1 4) 4 0).1 = true ∧ arcLive s 3 = true ∧
      (arcAt s 3).state = .ready ∧ (arcAt s 3).tmpWp = true) :=
  ⟨⟨runs_of (by decide), by decide⟩, runs_of (by decide), by decide⟩

theorem test_at_CeremonyAndArchiveCommands_restore :
    let c := cmd 0 0x37 ([3, 1] ++ zeros 6 ++ le 4 7)
    let s := asked { ceremonies 5 1 0 true with arc := { ports := [(3, { state := .ready })] } } c
    admRuns s 0 0 0x37 c ∧ c.p 0 1 ≤ 3 ∧ (gal s (c.p 1 1)).state = .active ∧ s.arc.write = none ∧ drbgReady s 2 = true ∧
      hasVek s = true ∧ roomPaused s = false ∧ arcLive s (c.p 0 1) = true ∧ (arcAt s (c.p 0 1)).state = .ready ∧
      (useCer s c.gal (c.p 8 4) 5 (c.p 1 1)).1 = true := ⟨runs_of (by decide), by decide⟩

/-! ### Span and chain -/

/-- Link 127 on lanes of Cope is `x`; its peer is unit 1 when the topology names it. -/
def linked (x : Link) (topo : Bool := true) : State :=
  { poured true with
    chn := { valid := true, addr := 2, epoch := 3 }
    spn := { links := [(127, x)], topo := if topo then [(127, some { enabled := true, unit := 1, link := 9, id := sha384 (zeros 97) })] else []
             routes := [(1, some ⟨127, 255, 1⟩)] } }

theorem linked_quiet (x : Link) (b : Bool) : quietFaults (linked x b) :=
  quiet_of _ (by show StartPhase.step5 ≠ _; decide) rfl rfl rfl (by intro h; cases h <;> rfl)

theorem test_at_SpanLinks_trained : (link (linked { state := .down }) 127).state = .down ∧ linkPowered (linked { state := .down }) 127 = true ∧
    (linked { state := .down }).atr.restarting = false ∧ topoOf (linked { state := .training } false) 127 = none ∧
    (topoOf (linked { state := .training }) 127).isSome = true ∧ linkPowered State.reset 127 = false := by decide

theorem slice_mid (a b c : Bytes) : slice (a ++ b ++ c) a.length b.length = b := by
  have hn : ∀ (l : Bytes) (i : Nat), nth 0 l i = (l[i]?).getD 0 := by
    intro l
    induction l with
    | nil => intro i; rfl
    | cons x l ih =>
      intro i
      cases i with
      | zero => rfl
      | succ n => rw [List.getElem?_cons_succ]; exact ih n
  apply List.ext_getElem
  · simp [slice, tabulate]
  · intro i h1 h2
    simp only [slice, tabulate, List.getElem_map, List.getElem_range]
    rw [hn, List.append_assoc, List.getElem?_append_right (Nat.le_add_right _ _), Nat.add_sub_cancel_left,
      List.getElem?_append_left h2, List.getElem?_eq_getElem h2]; rfl

/-- The identity in a HELLO1 is the digest of its point: it passes checks 2 to 4, and fails check 2 with another unit. -/
theorem test_at_SpanLinks_hello :
    let m := [0, 1, 0, 3, 9] ++ sha384 (zeros 97) ++ zeros 194
    helloCheck { enabled := true, unit := 1, link := 9, id := sha384 (zeros 97) } m = none ∧
      helloCheck { enabled := true, unit := 0, link := 9, id := sha384 (zeros 97) } m = some 2 ∧
      (link (linked { state := .hello, helloRx := zeros 247 }) 127).state = .hello ∧
      (link (linked { state := .hello, helloRx := zeros 247 }) 127).helloRx ≠ [] ∧ (linked {}).chn.valid = true := by
  have hl : (sha384 (zeros 97)).length = 48 := by simp [sha384, digest, padTo, hashLen, zeros, nth]
  intro m
  have hid : helloId m = sha384 (zeros 97) := by
    have := slice_mid [0, 1, 0, 3, 9] (sha384 (zeros 97)) (zeros 194)
    rw [hl] at this; exact this
  have hpt : helloPoint m = zeros 97 := by
    have h := slice_mid ([0, 1, 0, 3, 9] ++ sha384 (zeros 97)) (zeros 97) (zeros 97)
    have e : ([0, 1, 0, 3, 9] ++ sha384 (zeros 97)).length = 53 := by simp [hl]
    have e2 : (zeros 97).length = 97 := by simp [zeros]
    rw [e, e2, List.append_assoc] at h
    have e3 : zeros 97 ++ zeros 97 = zeros 194 := List.replicate_append_replicate
    rw [e3] at h; exact h
  have hu : helloUnit m = 1 := rfl
  have hb : byteAt m 4 = 9 := rfl
  refine ⟨?_, ?_, by decide, by decide, rfl⟩
  · simp [helloCheck, hu, hb, hid, hpt]
  · simp [helloCheck, hu]

theorem test_at_SpanLinks_up :
    (let x := link (linked { state := .up, countTx := 2 ^ 32, countRx := 2 ^ 33 }) 127
     x.state = .up ∧ x.countTx ≠ 0 ∧ x.countTx % 2 ^ 32 = 0 ∧ x.ratchetTx < x.countTx / 2 ^ 32 ∧ x.countRx % 2 ^ 32 = 0 ∧
      x.ratchetRx < x.countRx / 2 ^ 32) ∧
    (let x := link (linked { state := .up, seqRx := 1023 }) 127
     let b := padTo 232 (le 2 (1024 + 1023) ++ le 2 1023)
     leAt b 0 2 / 1024 % 4 = 1 ∧ x.replay = [] ∧ leAt b 2 2 = (x.seqTx + 1023) % 1024 ∧ leAt b 0 2 % 1024 = x.seqRx ∧
      leAt (padTo 232 (le 2 1024 ++ le 2 1023)) 0 2 % 1024 ≠ x.seqRx) ∧
    (let s := { linked { state := .up, replay := [(0, [])], resends := 8 } with gen := { a := 1 } }
     (link s 127).replay ≠ [] ∧ (link s 127).sinceAck + 1 ≤ s.gen.a.toNat ∧ 8 ≤ (link s 127).resends) ∧
    (link (linked { state := .up, resends := 7 }) 127).resends < 8 ∧ (linked {}).gen.a.toNat < (link (linked {}) 127).sinceAck + 1 := by
  decide

theorem test_at_SpanLinks_quiet : quietFaults (linked { state := .up } true) := linked_quiet _ _

/-- A management flit of a link in HELLO with 200 bytes in its first fragment. -/
theorem test_at_SpanLinks_fragment :
    let b := padTo 232 (le 2 2048 ++ zeros 8 ++ le 2 0 ++ [200, 1])
    (link (linked { state := .hello }) 127).state = .hello ∧ leAt b 0 2 / 1024 % 4 = 2 ∧ leAt b 10 2 = 0 ∧ 1 ≤ byteAt b 12 ∧
      byteAt b 12 ≤ 200 ∧ byteAt b 13 = 1 ∧ spanBuffersFull (linked { state := .hello }) = false ∧
      (link (linked {}) 127).state ≠ .hello ∧ (link (linked {}) 127).state ≠ .up := by decide

/-- The chain of a unit that is the head or not, with a roll call in pass `p` whose end is tick 100,000. -/
def rolling (head : Bool) (p : Nat) : State :=
  { poured true with chn := { head, epoch := 3, roll := some (p, 100000, 0) }, adm := [cmd 0 0x52 [] .running] }

theorem test_at_ChainRollCallAndLoopbackEnd_chain : chainOn State.reset = false ∧ chainOn (rolling false 1) = true ∧
    (rolling false 1).chn.head = false ∧ (1023 : BitVec 16).toNat < 1024 ∧ 1024 ≤ (1024 : BitVec 16).toNat ∧
    (∀ p ∈ [1, 2, 3], (rolling true p).chn.roll = some (p, 100000, 0)) ∧ chainOn (rolling true 3) = true ∧ (rolling true 3).chn.head = true ∧
    (rolling true 3).gen.a.toNat < 100000 ∧ rollCmd (rolling true 3) 0 = some (cmd 0 0x52 [] .running) ∧
    100000 ≤ ({ rolling true 3 with gen := { a := 100000 } } : State).gen.a.toNat ∧ (poured true).chn.roll = none := by decide

theorem test_at_ChainRollCallAndLoopbackEnd_loop :
    let l : LoopTest := { kind := 4, index := 0, depth := 1, units := 16777215, sq := 0, deadline := 1 }
    let c := cmd 0 0x75 [4] .running
    let s : State := { poured true with flt := { (poured true).flt with loops := [l] }, adm := [c] }
    (s.flt.loops.find? fun x => x.kind = (4 : Byte).toNat && x.index = (0 : Byte).toNat) = some l ∧ s.gen.windowDone = true ∧
      (s.adm.find? fun x => x.key = l.sq && x.phase == .running && x.op = 0x75) = some c ∧ (16777215 : Word).toNat = l.units ∧
      (16777214 : Word).toNat < l.units ∧ s.gen.a.toNat < l.deadline ∧ (0 : Word).toNat ≤ l.units ∧
      l.deadline ≤ ({ s with gen := { a := 1 } } : State).gen.a.toNat := by decide

/-- A message of class `cls` from gallery 7 of unit 1 to gallery 1 of unit 2, in epoch `ep`. -/
def msg (cls : Byte) (ep : Byte := 3) (srcGal : Byte := 7) (body : Bytes := []) : Bytes :=
  [cls, 0] ++ le 2 (16 + body.length) ++ le 2 1 ++ le 2 2 ++ [ep, 0, 0, 0, 5, 0, srcGal, 1] ++ body

/-- Gallery 1 is paired with gallery 7 of unit 1. -/
def paired (p : Pair) : State :=
  { linked { state := .up } with
    gen := { a := 10000, windowDone := true }
    spn := { (linked { state := .up }).spn with pairs := [(1, { p with unit := 1, partner := 7 })] } }

theorem for_unit (s : State) (cls : Byte) (m : Bytes) (h : (decide (msgClass m = cls.toNat) && s.chn.valid && anyServing s && !s.atr.restarting &&
    decide (msgEpoch m = s.chn.epoch.toNat) && decide (msgDst m = s.chn.addr.toNat)) = true) : forUnit s cls.toNat m := by
  simp only [Bool.and_eq_true, decide_eq_true_eq, Bool.not_eq_true'] at h
  exact ⟨h.1.1.1.1.1, h.1.1.1.1.2, h.1.1.1.2, h.1.1.2, h.1.2, h.2⟩

theorem test_at_PairHandshakeAndReplication_messages (c : Byte) (hc : c ∈ [1, 2, 5, 7]) : forUnit (paired { state := .active }) c.toNat (msg c) ∧
    fromPartner (paired { state := .active }) (msgDstGal (msg c)) (msg c) = true ∧
    (pairAt (paired { state := .active }) (msgDstGal (msg c))).state = .active ∧
    fromPartner (paired { state := .active }) (msgDstGal (msg c 3 8)) (msg c 3 8) = false := by
  simp only [List.mem_cons, List.not_mem_nil, or_false] at hc
  rcases hc with rfl | rfl | rfl | rfl <;> exact ⟨for_unit _ _ _ (by decide), by decide⟩

theorem test_at_PairHandshakeAndReplication_timers :
    let s := fun p => paired p
    ((pairAt (s { state := .pending, lastHello := 9000 }) 1).lastHello + 1000 ≤ 10000 ∧
      10000 < (pairAt (s { state := .pending, lastHello := 9001 }) 1).lastHello + 1000 ∧ anyServing (s {}) = true ∧
      (s {}).gen.a.toNat = 10000 ∧ (s {}).atr.restarting = false) ∧
    ((pairAt (s { state := .active, lastBeat := 9000 }) 1).lastBeat + 1000 ≤ 10000 ∧
      (pairAt (s { state := .active, lastMsg := 7000 }) 1).lastMsg + 3000 ≤ 10000 ∧
      10000 < (pairAt (s { state := .active, lastMsg := 7001 }) 1).lastMsg + 3000) := by decide

/-- Slot 9 of gallery 1, which both banks hold, waits to be replicated, or is in flight for 10,000 ticks. -/
def replicating (p : Pair) (rs : List Bytes := []) : State :=
  let v := vault 9 { bank := ⟨bankOf 9 true, bankOf 9 true⟩ }
  let s := paired { p with state := .active, pending := [9] }
  { s with
    lcs := v.lcs, srm := v.srm, rng := v.rng
    spn := { s.spn with reqs := [{ tseq := 5, epoch := 3, dst := 1, cls := 1, tick := 0, gal := 1 }], replicas := rs } }

theorem replicating_rec (p : Pair) : recNow (replicating p) 9 = some (goodRec 9) := by
  have h : goodCopy (replicating p) .cope 9 = some (goodRec 9) :=
    good_at _ 9 .cope rfl rfl (by simp [mapEnt, replicating, vault, Tab.get]) rfl rfl (bankOf_get 9 true 0)
  simp [recNow, slotRec, h]

theorem test_at_PairHandshakeAndReplication_replicas :
    (let s := replicating {}
     (pairAt s 1).state = .active ∧ anyServing s = true ∧ s.atr.restarting = false ∧ drbgReady s 2 = true ∧
      ((pairAt s 1).pending.find? fun n => !((pairAt s 1).inFlight.any (·.1 = n)) && (recNow s n).isSome) = some 9) ∧
    (let f := replicating { inFlight := [(9, 1, 0)] }
     ((pairAt f 1).inFlight.any fun e => e.1 = 9 && e.2.2 + 10000 ≤ f.gen.a.toNat) = true ∧ (recNow f 9).isSome = true ∧
      spanReqOf f 1 (msg 2 3 7 (le 8 1)) = some { tseq := 5, epoch := 3, dst := 1, cls := 1, tick := 0, gal := 1 } ∧
      (pairAt f 1).inFlight.find? (·.2.1 = leAt (msgBody (msg 2 3 7 (le 8 1))) 0 8) = some (9, 1, 0)) := by
  refine ⟨⟨by decide, by decide, rfl, by decide, ?_⟩, by decide, ?_, by decide, by decide⟩
  · have h1 : (pairAt (replicating {}) 1).pending = [9] := by decide
    have h2 : (pairAt (replicating {}) 1).inFlight = [] := by decide
    rw [h1, h2]
    simp only [List.find?_cons, replicating_rec]
    rfl
  · rw [replicating_rec]; rfl

/-- A replica waits for a unit that may write it, and for one without a Vault Epoch Key. -/
theorem test_at_PairHandshakeAndReplication_applied :
    let s := replicating {} [msg 1]
    s.atr.restarting = false ∧ roomPaused s = false ∧ hasVek s = true ∧ s.spn.replicas = [msg 1] ∧
      (pairAt s (msgDstGal (msg 1))).state = .active ∧ fromPartner s (msgDstGal (msg 1)) (msg 1) = true ∧
      (Replica.of (msgBody (msg 1))).seq ≤ (pairAt s (msgDstGal (msg 1))).replApplied ∧ hasVek (paired {}) = false := by decide

/-- Job 3 is a paired job confirmed at tick `t`, sent at tick `sent` or not yet. -/
def pairJob (t : Nat) (sent : Option Nat) : Job := { jobOf 0x0F00 .pair with paired := true, confirmTick := t, sent }

def pairing (p : Pair) (j : Job) : State := { paired p with jobs := [j], sqs := (queues true).sqs, cqs := (queues true).cqs }

theorem test_at_PairedExecutionAndReplies_jobs :
    (let s := pairing { state := .active } (pairJob 9999 none)
     job s 3 = some (pairJob 9999 none) ∧ (pairJob 9999 none).paired = true ∧ (pairJob 9999 none).sent = none ∧
      (pairJob 9999 none).confirmTick + 1 ≤ s.gen.a.toNat ∧ s.gen.a.toNat < (pairJob 10000 none).confirmTick + 1 ∧
      (pairAt s 1).state = .active ∧ s.chn.valid = true ∧ (routeTo s (pairAt s 1).unit.toNat).isSome = true) ∧
    (let s := pairing { state := .unreachable, timeout := 16 } (pairJob 9983 (some 9984))
     (pairAt s 1).state ≠ .active ∧ (pairAt s 1).policy.getLsbD 2 = false ∧ (pairJob 9983 (some 9984)).digest = [] ∧
      9984 + (pairAt s 1).timeout ≤ s.gen.a.toNat ∧ s.gen.a.toNat < 9985 + (pairAt s 1).timeout ∧
      plainJob s 3 (pairJob 9983 (some 9984))) := by
  refine ⟨by decide, by decide, by decide, by decide, by decide, by decide, rfl, rfl, rfl, rfl, ?_⟩
  exact ⟨rfl, rfl, rfl⟩

theorem test_at_PairedExecutionAndReplies_messages (c : Byte) (hc : c ∈ [2, 3, 4, 6, 8]) : forUnit (pairing { state := .active } (pairJob 0 none)) c.toNat (msg c) ∧
    spanReqOf (pairing { state := .active } (pairJob 0 none)) c.toNat (msg c) = none ∧ 16 ≤ (msg c).length ∧
    (gal (pairing { state := .active } (pairJob 0 none)) (msgDstGal (msg c))).state = .active ∧ msgSrcGal (msg c 3 0) = 0 ∧
    msgEpoch (msg c 4) ≠ (pairing { state := .active } (pairJob 0 none)).chn.epoch.toNat := by
  simp only [List.mem_cons, List.not_mem_nil, or_false] at hc
  rcases hc with rfl | rfl | rfl | rfl | rfl <;> exact ⟨for_unit _ _ _ (by decide), by decide⟩

/-- A request of class `cls` to unit 1 is open, for job 3 and for the admin command `c`. -/
def asking (cls : Nat) (c : AdminCmd) : State :=
  { pairing { state := .active } (pairJob 0 (some 1)) with
    adm := [c]
    spn := { (pairing { state := .active } (pairJob 0 none)).spn with
      reqs := [{ tseq := 5, epoch := 3, dst := 1, cls, tick := 0, gal := 1, job := some 3, sq := some 0 }] } }

theorem test_at_PairedExecutionAndReplies_replies :
    (spanReqOf (asking 3 {}) 3 (msg 4 3 7 (le 8 0))).bind (·.job) = some 3 ∧ leAt (msgBody (msg 4 3 7 (le 8 0))) 0 8 = 0 ∧
    leAt (msgBody (msg 4 3 7 (le 8 1))) 0 8 ≠ (pairJob 0 (some 1)).confirmTick ∧
    (let c := cmd 0 0x57 (zeros 42 ++ le 2 1) .running
     (spanReqOf (asking 6 c) 6 (msg 6)).bind (·.sq) = some 0 ∧ runningCmd (asking 6 c) 0 0x57 = some c ∧
      (msgBody (msg 6 3 7 [1])).length ≤ c.p 42 2 ∧ c.mark + 100000 ≤ ({ asking 6 c with gen := { a := 100000 } } : State).gen.a.toNat ∧
      (asking 6 c).gen.a.toNat < c.mark + 100000) ∧
    (let c := cmd 0 0x58 ([1, 0, 0, 0] ++ le 4 1) .running
     (spanReqOf (asking 8 c) 8 (msg 8)).bind (·.sq) = some 0 ∧ runningCmd (asking 8 c) 0 0x58 = some c ∧
      (asking 8 c).spn.echo.1 < c.p 4 4 ∧ c.p 4 4 ≤ ({ (asking 8 c).spn with echo := (1, 0, none) } : Span).echo.1) := by decide

/-! ### Host ports and SPDM -/

/-- Port B is `p`. -/
def port (p : Port) : State := { queues true with hst := { port := ⟨upPort, p⟩ } }

theorem port_quiet (p : Port) : quietFaults (port p) :=
  quiet_of _ (by show StartPhase.step5 ≠ _; decide) rfl rfl rfl (by intro h; cases h <;> rfl)

theorem test_at_PortEventsAndFunctionReset_links : mayUp (port { mayTrain := true }) .drag = true ∧ 1 ≤ (6 : BitVec 3).toNat ∧ (6 : BitVec 3).toNat ≤ 6 ∧
    (16 : BitVec 5).toNat ∈ [1, 2, 4, 8, 16] ∧ mayUp (port {}) .drag = false ∧ ((port upPort).hst.port.get .drag).linkUp = true ∧
    serving (port upPort) .drag = true ∧ ((port {}).hst.port.get .drag).linkUp = false ∧
    ((port { upPort with ideSecure := 0b10000, ideReq := 0b10000 }).hst.port.get .drag).ideSecure.getLsbD 4 = true ∧
    ((port { upPort with ideSecure := 0b10000, ideReq := 0b10000 }).hst.port.get .drag).ideReq.getLsbD 4 = true ∧
    ((port upPort).hst.port.get .drag).ideSecure.getLsbD 4 = false ∧
    ({ State.reset with lcs := { state := .endOfLife } } : State).lcs.state = .endOfLife := by decide

theorem test_at_PortEventsAndFunctionReset_quiet : quietFaults (port { upPort with ideSecure := 0b10000, ideReq := 0b10000 }) := port_quiet _

theorem test_at_PortEventsAndFunctionReset_functions : fnThere (port upPort) .drag 255 = true ∧ fnThere (port upPort) .drag 0 = true ∧
    fnThere (port {}) .drag 1 = false ∧ (fnCfg (port { fns := [(1, { flrEnd := some 0 })] }) .drag 1).flrEnd ≠ none ∧
    (fnCfg (port upPort) .drag 1).flrEnd = none ∧ upPort.vfEnable = true ∧ (254 : Byte).toNat < upPort.numVfs.toNat ∧
    upPort.numVfs.toNat ≤ (255 : Byte).toNat ∧ (255 : Byte) ≠ 0 := by decide

theorem test_at_PortEventsAndFunctionReset_recovery :
    let s := fun b => ({ State.reset with pwr := { phase := .recovery }, mld := { noMould := true, recBusy := b } } : State)
    barOpen (s false) .cope 0 0x7020C = true ∧ (s false).mld.noMould = true ∧ (s false).mld.recBusy = false ∧ barOpen (s false) .drag 0 0x7020C = false ∧
      (s true).mld.recBusy = true ∧ (s true).pwr.phase = .recovery := by decide

theorem test_at_SpdmResponder_open : doeOpen (port upPort) .drag = true ∧ doeOpen (port {}) .drag = false ∧ (2 : Byte).toNat ≤ 2 ∧
    1 ≤ ((port { upPort with spdm := 1 }).hst.port.get .drag).spdm ∧ 2 ≤ ((port { upPort with spdm := 2 }).hst.port.get .drag).spdm ∧
    ((port { upPort with spdm := 2 }).hst.port.get .drag).spdm < 3 := by decide

/-- A responder after NEGOTIATE_ALGORITHMS, with the sessions `ss`, in a part whose chain is one byte long. -/
def responder (ss : List SpdmSession) : State := { port { upPort with spdm := 3, sessions := ss } with lcs := { (vault 0 {}).lcs with chain := some [1] } }

theorem test_at_SpdmResponder_sessions : doeOpen (responder []) .drag = true ∧ 3 ≤ ((responder []).hst.port.get .drag).spdm ∧
    (slotChain (responder [])).isSome = true ∧ slotChain (port upPort) = none ∧
    spdmSession ((responder []).hst.port.get .drag) 1 = none ∧
    spdmSession ((responder [{ id := 2, key := [] }]).hst.port.get .drag) 2 = some { id := 2, key := [] } ∧
    spdmSession ((responder [{ id := 1, key := [], ready := true }]).hst.port.get .drag) 1 = some { id := 1, key := [], ready := true } ∧
    (zeros 32).length = 32 := by decide

theorem test_at_SpdmResponder_measurements : ((measurements (port upPort)).filter (·.index = (1 : Byte).toNat)).length = 1 ∧
    (measurements (port upPort)).all (fun m => decide (m.index ≠ (254 : Byte).toNat)) = true ∧ (1 : Byte) ≠ 0 ∧ (1 : Byte) ≠ 0xFF := by decide

theorem test_at_SpdmResponder_certificate (c : Bytes) (h : slotChain (responder []) = some c) : 0 < c.length ∧ c.length ≤ c.length := by
  have e : c = le 2 53 ++ [0, 0] ++ padTo 48 (Config.x509RootDigest [1]) ++ [1] := (Option.some.inj h).symm
  subst e; simp only [List.length_append, List.length_cons, List.length_nil, Nat.le_refl, and_true]; omega

/-! ### Admin commands. `runsNow` gives `admRuns` by `runs_of`. -/

theorem test_at_AdminCommandsRefuseAndComplete :
    (let c := cmd 1 0x0F []
     let s := asked (vault 0 {}) c
     admAt s 1 0 .confirmed = some c ∧ c.unread = false ∧ s.gen.windowDone = true ∧ admRow c.op = none ∧ queuePair s c.key c.sqGen) ∧
    admAt (vault 0 {}) 1 0 .confirmed = none ∧ (live false).gen.windowDone = false ∧
    ((admRow 0x02).all fun r => !r.clean (cmd 1 0x02 [1, 1]).entry) = true ∧
    ((admRow 0x10).all fun r => r.clean (cmd 1 0x10 []).entry && r.curator) = true ∧ (1 : Gallery) ≠ 0 ∧
    (({ vault 0 {} with lcs := { session := true } } : State).lcs.session = true ∧ sessionAllows 0x22 = false ∧ sessionAllows 0x4F = true) ∧
    ((admRow 0x22).all fun r => r.reserve) = true := by unfold queuePair; decide

/-- The queue commands of gallery 1: completion queue 63 and submission queue 63 at depth 2^16 and index 0 refused. -/
theorem test_at_QueueCommands_create :
    (let c := cmd 1 0x00 ([63, 0, 16, 4, 0] ++ zeros 6 ++ le 8 0x1000)
     let s := asked (vault 0 {}) c
     runsNow s 1 0 0x00 c = true ∧ c.p 0 1 = 63 ∧ c.p 4 1 ≤ 3 ∧ cqCheck s (qkey c.gal 63) (CqSpec.of c) = none) ∧
    (let c := cmd 1 0x00 [63, 0, 17, 4, 0]
     cqCheck (asked (vault 0 {}) c) (qkey c.gal 63) (CqSpec.of c) ≠ none) ∧
    (let c := cmd 1 0x01 ([63, 0, 16, 1] ++ le 8 0x1000)
     let s := asked (vault 0 {}) c
     runsNow s 1 0 0x01 c = true ∧ c.p 3 1 ≤ 1 ∧ s.lcs.session = false ∧ sqCheck s (qkey c.gal 63) (c.p 1 1) (c.p 2 1) (BitVec.ofNat 64 (c.p 4 8)) false = none) ∧
    (let c := cmd 1 0x01 [63, 0, 3]
     let s : State := { asked (vault 0 {}) c with lcs := { session := true } }
     runsNow s 1 0 0x01 c = true ∧ s.lcs.session = true ∧ c.p 3 1 = 0 ∧
      sqCheck s (qkey c.gal 63) (c.p 1 1) (c.p 2 1) (BitVec.ofNat 64 (c.p 4 8)) false ≠ none) ∧
    (∀ op ∈ [0x00, 0x01, 0x02, 0x03, 0x04], runsNow (asked (vault 0 {}) (cmd 1 op [0])) 1 0 op (cmd 1 op [0]) = true) ∧
    (cmd 1 0x02 [64]).p 0 1 = 64 := by decide

theorem test_at_QueueCommands_others :
    let s := fun c : AdminCmd => ({ asked (vault 0 {}) c with sqs := (queues true).sqs, cqs := (queues true).cqs ++ [(127, { exist := true })] } : State)
    (let c := cmd 1 0x02 [63]
     runsNow (s c) 1 0 0x02 c = true ∧ (sq (s c) 127).exist = true ∧ (sq (s c) 127).closing = false ∧ (sq (s c) 65).exist = false) ∧
    (let c := cmd 1 0x03 [63]
     runsNow (s c) 1 0 0x03 c = true ∧ (cq (s c) 127).exist = true ∧ (∀ x ∈ sqsOf (s c) 1, (sq (s c) x).cq ≠ 63) ∧
      (127 ∈ sqsOf (s c) 1 ∧ (sq (s c) 127).cq = 1)) ∧
    (let c := cmd 1 0x04 [63]
     runsNow (s c) 1 0 0x04 c = true ∧ (cq (s c) (qkey 1 63)).exist = true ∧ (cq (s c) (qkey 1 62)).exist = false) ∧
    (let c := cmd 1 0x05 [63]
     runsNow (s c) 1 0 0x05 c = true ∧ c.p 1 1 ≤ 1 ∧ vectorOk (s c) 1 false 0 0 = true ∧ vectorOk (s c) 1 true 0 1 = false) ∧
    (let c := cmd 1 0x06 [0]
     let a : AdminCmd := { cmd 1 0x20 [] with seq := 6 }
     let s2 : State := { s c with adm := [c, a] }
     runsNow s2 1 0 0x06 c = true ∧ (sq s2 64).exist = true ∧ (sq s2 64).admin = true ∧
      (s2.adm.find? fun x => x.seq ≠ c.seq && waitsIn s2 x 64 (c.p 1 2)) = some a ∧ a.phase = .confirmed ∧
      ((s c).adm.find? fun x => x.seq ≠ c.seq && waitsIn (s c) x 64 (c.p 1 2)) = none) := by decide

/-- The Curator's commands on galleries 1, 2 and 255, each first in its turn; pools at their bounds. -/
theorem test_at_GalleryCommands_create :
    let make := fun units cup flags => cmd 0 0x10 ([255, flags] ++ le 2 units ++ le 2 units ++ [cup, 64, 64])
    let s := fun c => asked (vault 0 {}) c
    let x := fun (c : AdminCmd) => withFlags { state := .active, units := ⟨c.p 2 2, c.p 4 2⟩, cupola := c.p 6 1, sqLimit := c.p 7 1, cqLimit := c.p 8 1 } (c.p 1 1)
    let c := make 4592 0 15
    (runsNow (s c) 0 0 0x10 c = true ∧ firstOf (s c) (fun x => x.gal = 0 && 0x10 ≤ x.op && x.op ≤ 0x17) c = true ∧ c.p 0 1 ≠ 0 ∧
      (gal (s c) 255).state = .free ∧ c.p 1 1 ≤ 15 ∧ c.p 2 2 ≠ 0 ∧ limitsRange (s c) (x c) = true ∧ flagsForbidden (s c) (c.p 1 1) = false ∧
      existing (s c) < (limits (s c)).maxGalleries ∧ boundsOk (s c) 255 (x c) = true ∧ unitsRange (x c) = true) ∧
    (unitsRange (x (make 4593 0 0)) = false ∧ boundsOk (s (make 4593 0 0)) 255 (x (make 4593 0 0)) = true) ∧
    boundsOk (s (make 65535 0 0)) 255 (x (make 65535 0 0)) = false ∧ 15 < (make 1 0 16).p 1 1 ∧ (make 0 0 0).p 2 2 = 0 ∧
    (gal (s c) 1).state = .active ∧ flagsForbidden State.reset 1 = true ∧
    (gal ({ vault 0 {} with gals := [(255, { state := .closing })] } : State) 255).state = .closing := by decide

theorem test_at_GalleryCommands_others :
    let s := fun c => asked (vault 0 {}) c
    (∀ op ∈ [0x11, 0x12, 0x13, 0x14, 0x15, 0x17], runsNow (s (cmd 0 op [1])) 0 0 op (cmd 0 op [1]) = true) ∧
    runsNow (s (cmd 1 0x16 [1])) 1 0 0x16 (cmd 1 0x16 [1]) = true ∧ runsNow (s (cmd 1 0x16 [2])) 1 0 0x16 (cmd 1 0x16 [2]) = true ∧
    (let c := cmd 0 0x12 ([1] ++ le 2 4592 ++ le 2 4592 ++ [0])
     shareBoundsOk (s c) 1 { gal (s c) 1 with units := ⟨4592, 4592⟩, cupola := 0 } = true ∧
      shareBoundsOk (s c) 1 { gal (s c) 1 with units := ⟨65535, 1⟩, cupola := 0 } = false) ∧
    (let c := cmd 0 0x13 [1, 64, 64]
     limitsRange (s c) { gal (s c) 1 with sqLimit := 64, cqLimit := 64, parts := ⟨0, 0⟩, slotQuota := 1, arcQuota := 0 } = true ∧
      limitBoundsOk (s c) 1 { gal (s c) 1 with slotQuota := 1, parts := ⟨0, 0⟩ } = true ∧
      limitBoundsOk (s c) 1 { gal (s c) 1 with slotQuota := 0, parts := ⟨0, 0⟩ } = false) ∧
    (let c := cmd 0 0x15 ([1, 2] ++ zeros 8 ++ le 4 7)
     let t := asked (ceremonies 1 1 0 true) c
     runsNow t 0 0 0x15 c = true ∧ slotTurn t 1 c = true ∧ c.p 1 1 = 2 ∧ (useCer t c.gal (c.p 10 4) 1 1).1 = true ∧
      (useCer (s c) c.gal (c.p 10 4) 1 1).1 = false) ∧
    (let c := { cmd 0 0x11 [1] with seq := 6 }
     let t : State := { s c with adm := [cmd 0 0x17 [] .running, c] }
     runsNow t 0 0 0x11 c = true ∧ firstOf t (fun x => x.gal = 0 && 0x10 ≤ x.op && x.op ≤ 0x17) c = false) := by decide

/-- The slot commands on slot 65,535 and on a wide slot. -/
theorem test_at_SlotCommands_assign :
    let s := fun c => asked (vault 0 { bank := upBanks }) c
    (let c := cmd 0 0x20 ([1] ++ le 2 65535 ++ le 2 1 ++ [0])
     runsNow (s c) 0 0 0x20 c = true ∧ drbgReady (s c) 2 = true ∧ hasVek (s c) = true ∧ roomPaused (s c) = false ∧ c.p 5 1 ≤ 1 ∧ 1 ≤ c.p 3 2 ∧
      (gal (s c) (c.p 0 1)).state = .active ∧ c.p 1 2 + 1 ≤ 65536 ∧ (mapEnt (s c) 65535).assigned = false ∧
      (slotsOf (s c) 1).length + 1 ≤ (gal (s c) 1).slotQuota) ∧
    (let c := cmd 0 0x20 ([1] ++ le 2 65520 ++ le 2 1 ++ [1])
     runsNow (s c) 0 0 0x20 c = true ∧ c.p 1 2 + 16 ≤ 65536 ∧ c.p 1 2 % 16 = 0 ∧ ∀ i, i < 16 → (mapEnt (s c) (65520 + i)).assigned = false) ∧
    (let c := cmd 0 0x20 ([1] ++ le 2 1 ++ le 2 64 ++ [0])
     (gal (s c) 1).slotQuota < (slotsOf (s c) 1).length + 64 ∧ c.p 3 2 ≤ 4096) ∧
    (let c := cmd 0 0x20 ([1] ++ le 2 0 ++ le 2 1 ++ [0])
     (mapEnt (s c) (c.p 1 2)).assigned = true) := by decide

theorem test_at_SlotCommands_release_reseal :
    let r : Strongroom := { bank := upBanks, dir := [(0, { owner := 1, state := .empty })] }
    let s := fun c => ({ asked (vault 0 r) c with srm := { (vault 0 r).srm with dir := r.dir } } : State)
    (let c := cmd 0 0x21 ([0, 0] ++ le 2 1)
     runsNow (s c) 0 0 0x21 c = true ∧ 0 + c.p 2 2 ≤ 65536 ∧ releasable (s c) 0 1 0 = true ∧ releasable (s c) 0 2 1 = false) ∧
    (let c := cmd 0 0x27 []
     runsNow (s c) 0 0 0x27 c = true ∧ (s c).srm.reseal = false ∧ (s c).srm.overwrite = false ∧ rootSel (s c) ≠ 2 ∧
      rootSel ({ s c with lcs := { state := .test } } : State) = 2) ∧
    ({ s {} with srm := {} } : State).srm.epoch0 = none ∧ hasVek ({ s {} with srm := {} } : State) = false := by decide

theorem test_at_SlotCommands_of_a_gallery :
    let s := fun c => asked (vault 0 { bank := ⟨bankOf 0 true, bankOf 0 true⟩ }) c
    (∀ op ∈ [0x22, 0x23, 0x24, 0x25, 0x26], runsNow (s (cmd 1 op [])) 1 0 op (cmd 1 op []) = true ∧ slotTurn (s (cmd 1 op [])) 1 (cmd 1 op []) = true) ∧
    (let c := cmd 1 0x22 (zeros 10 ++ [1])
     runsNow (s c) 1 0 0x22 c = true ∧ c.p 10 8 ≠ 0 ∧ c.p 18 4 = 0) ∧
    (let c := { cmd 1 0x24 [] with seq := 6 }
     let t : State := { s c with adm := [cmd 1 0x22 [] .running, c] }
     runsNow t 1 0 0x24 c = true ∧ slotTurn t 1 c = false) ∧
    (let c := cmd 1 0x23 [0, 0]
     (mapEnt (s c) 0).assigned = true ∧ (mapEnt (s c) 0).owner = 1 ∧ (mapEnt (s c) 0).member = false ∧
      (mapEnt (s c) 1).assigned = false ∧ queuePair (s c) c.key c.sqGen ∧
      (dirEnt ({ s c with srm := { (s c).srm with dir := [(0, { owner := 1, state := .good })] } } : State) 0).state ≠ .empty ∧
      (mapEnt ({ s c with srm := { map := [(1, { owner := 1, assigned := true, member := true })] } } : State) 1).member = true) := by
  unfold queuePair; decide

/-- The record of slot 0 is empty, so it needs no dual control. -/
theorem test_at_SlotCommands_record (c : AdminCmd) : recNow (asked (vault 0 { bank := ⟨bankOf 0 true, bankOf 0 true⟩ }) c) 0 = some (goodRec 0) ∧
    (goodRec 0).alg = 0 := by
  have h : goodCopy (asked (vault 0 { bank := ⟨bankOf 0 true, bankOf 0 true⟩ }) c) .cope 0 = some (goodRec 0) :=
    good_at _ 0 .cope rfl rfl rfl rfl rfl (bankOf_get 0 true 0)
  exact ⟨by unfold recNow slotRec; rw [h], rfl⟩

/-- A part in TEST or PRODUCTION before its lifecycle moves. -/
def moving (st : Fuses) (c : AdminCmd) : State :=
  { asked (vault 0 { bank := upBanks }) c with lcs := { state := .test, fuses := st, chain := some [1] } }

theorem test_at_LifeCycleIdentityAndExtensionCommands_moves :
    (let c := cmd 0 0x40 [2, 1]
     let s := moving { stTest := 2 } c
     runsNow s 0 0 0x40 c = true ∧ fused s = .test ∧ c.p 1 1 ≤ 1 ∧ bothBanks s = true ∧ s.lcs.chain ≠ none ∧ (running s).length = 3 ∧
      (∀ m ∈ running s, m.test = false) ∧ bothBanks (moving { stTest := 2 } c) = true ∧ bothBanks State.reset = false) ∧
    (let c := cmd 0 0x40 [3]
     let s : State := { moving { stTest := 2 } c with cus := {} }
     runsNow s 0 0 0x40 c = true ∧ setThere s = false ∧ fused s = .test ∧ c.p 2 4 = 0) ∧
    (let c := cmd 0 0x40 ([3, 0] ++ le 4 7)
     let s := asked (ceremonies 6 0 0 true) c
     runsNow s 0 0 0x40 c = true ∧ fused s = .production ∧ setThere s = true ∧ (useCer s c.gal (c.p 2 4) 6 0).1 = true) ∧
    (cmd 0 0x40 [2, 2]).p 1 1 = 2 ∧ (cmd 0 0x40 [4]).p 0 1 = 4 := by decide

theorem test_at_LifeCycleIdentityAndExtensionCommands_identity :
    (let c := cmd 0 0x41 []
     let s := asked (ceremonies 7 0 0 true) c
     runsNow s 0 0 0x41 c = true ∧ fused s = .production ∧ openToken s.lcs.fuses = none ∧
      openToken ({ s.lcs.fuses with consumed := List.replicate 8 3 } : Fuses) ≠ none ∧ fused (moving { stTest := 2 } c) ≠ .production) ∧
    (∀ op ∈ [0x42, 0x43, 0x44], runsNow (asked (vault 0 {}) (cmd 0 op [])) 0 0 op (cmd 0 op []) = true) ∧
    (moving {} (cmd 0 0x44 [])).lcs.chain = some [1] ∧ (vault 0 {}).lcs.chain = none ∧ (vault 0 {}).lcs.request = [] ∧ 1 < (cmd 0 0x44 [2]).p 0 1 := by
  decide

theorem test_at_LifeCycleIdentityAndExtensionCommands_programs :
    let s : State := { vault 0 {} with wld := { gates := resetGates, programs := [(1, some {}), (257, some {})] } }
    (runsNow (asked s (cmd 1 0x60 [3])) 1 0 0x60 (cmd 1 0x60 [3]) = true ∧ (cmd 1 0x60 [3]).p 0 1 ≤ 3 ∧ (cmd 1 0x60 [0]).p 0 1 = 0) ∧
    (runsNow (asked s (cmd 1 0x61 [3])) 1 0 0x61 (cmd 1 0x61 [3]) = true ∧ ∀ h ∈ maskHalves 3, program s h 1 ≠ none) ∧
    (Half.drag ∈ maskHalves 3 ∧ program (vault 0 {}) .drag 1 = none) ∧
    runsNow (asked s (cmd 1 0x62 [])) 1 0 0x62 (cmd 1 0x62 []) = true ∧
    runsNow (asked s (cmd 0 0x63 [1, 3])) 0 0 0x63 (cmd 0 0x63 [1, 3]) = true ∧ 3 < (cmd 0 0x63 [1, 4]).p 1 1 := by decide

/-- Topology and routes of one row for link 127, and of a row for a link that is not bonded. -/
theorem test_at_SpanCommands_tables :
    let s := fun c => asked (linked { state := .up }) c
    let row := [127, 1] ++ le 2 1023 ++ [9] ++ zeros 59
    (let c := cmd 0 0x50 (zeros 8 ++ [1])
     runsNow (s c) 0 0 0x50 c = true ∧ c.p 8 1 ≤ 128 ∧ [row].all (topoRowOk (s c)) = true ∧ distinctKeys [127] = true ∧
      topoRowOk (s c) (zeros 64) = false ∧ distinctKeys [127, 127] = false ∧ 128 < (cmd 0 0x50 (zeros 8 ++ [129])).p 8 1) ∧
    (let c := cmd 0 0x51 (zeros 8 ++ le 2 1)
     runsNow (s c) 0 0 0x51 c = true ∧ routeRowOk (s c) (le 2 1023 ++ [127, 0xFF, 3, 0, 0, 0]) = true ∧
      routeRowOk (s c) (le 2 1024 ++ [127, 0xFF, 3, 0, 0, 0]) = false ∧ 1024 < (cmd 0 0x51 (zeros 8 ++ le 2 1025)).p 8 2) := by decide

theorem test_at_SpanCommands_pairs :
    let s := fun c => asked (paired { state := .active, policy := 1 }) c
    (let c := cmd 0 0x52 []
     let h := fun r => ({ s c with chn := { head := true, roll := r } } : State)
     runsNow (h none) 0 0 0x52 c = true ∧ (h none).chn.head = true ∧ ((h none).mld.runAtrium.any fun m => m.atrium.chainEn) = true ∧
      looped (h none) 4 0 = false ∧ (h none).chn.roll = none ∧ (h (some (1, 0, 0))).chn.roll ≠ none ∧ (s c).chn.head = false) ∧
    (let c := cmd 0 0x53 ([1, 7] ++ le 2 1023 ++ [7, 0] ++ le 2 16)
     runsNow (s c) 0 0 0x53 c = true ∧ (gal (s c) 1).state = .active ∧ c.p 2 2 ≤ 1023 ∧ c.p 4 1 ≤ 7 ∧ 16 ≤ c.p 6 2 ∧ (gal (s c) 1).pairing = true ∧
      (limits (s c)).pairOk = true ∧ (limits State.reset).pairOk = false ∧ (cmd 0 0x53 [1]).p 6 2 = 0) ∧
    (runsNow (s (cmd 0 0x54 [1])) 0 0 0x54 (cmd 0 0x54 [1]) = true ∧ runsNow (s (cmd 0 0x55 [1])) 0 0 0x55 (cmd 0 0x55 [1]) = true ∧
      (gal (s {}) 1).state ≠ .free ∧ (gal (s {}) 2).state = .free ∧ (pairAt (s {}) 1).policy.getLsbD 0 = true ∧
      (replicaSlots (s {}) 1).length ≤ 1024 ∧ (pairAt (s {}) 0).state = .none) := by decide

theorem test_at_SpanCommands_messages :
    let s := fun c => asked (paired { state := .active }) c
    (runsNow (s (cmd 0 0x56 [127])) 0 0 0x56 (cmd 0 0x56 [127]) = true ∧ bonded (s {}) 127 = true ∧ bonded (s {}) 128 = false ∧
      (link (s {}) 127).state ≠ .loop ∧ (link (linked { state := .loop }) 127).state = .loop) ∧
    (runsNow (s (cmd 1 0x57 [1])) 1 0 0x57 (cmd 1 0x57 [1]) = true ∧ (pairAt (s {}) 1).unit.toNat ≠ 1023 ∧
      runsNow (s (cmd 0 0x57 [0xFF, 3])) 0 0 0x57 (cmd 0 0x57 [0xFF, 3]) = true ∧ (cmd 0 0x57 [0xFF, 3]).p 0 2 ≤ 1023 ∧ 1023 < (cmd 0 0x57 [0, 4]).p 0 2) ∧
    (let c := cmd 0 0x58 (le 2 1023 ++ le 2 8176 ++ le 4 1)
     runsNow (s c) 0 0 0x58 c = true ∧ c.p 0 2 ≤ 1023 ∧ c.p 2 2 ≤ 8176 ∧ c.p 4 4 ≠ 0 ∧ (cmd 0 0x58 []).p 4 4 = 0 ∧
      ((s c).adm.any fun x => x.phase == .running && x.op = 0x58) = false ∧ 8176 < (cmd 0 0x58 ([0, 0] ++ le 2 8177)).p 2 2) := by decide

theorem test_at_FaultTamperAndRecorderCommands_faults :
    let s := fun c => asked (vault 0 {}) c
    (∀ op ∈ [0x70, 0x71, 0x76, 0x7A, 0x7C], runsNow (s (cmd 0 op [])) 0 0 op (cmd 0 op []) = true) ∧
    (let c := cmd 0 0x72 ([63, 1, 1, 0] ++ le 4 1)
     runsNow (s c) 0 0 0x72 c = true ∧ faultRowOk 63 ⟨c.p 1 1, c.p 2 1, c.p 4 4⟩ = true ∧ (fltSrc (s c) 63).cls.toNat ≤ 1 ∧
      1 ≤ (fltSrc (s c) 63).countN.toNat ∧ (fltSrc (s c) 63).window.toNat ≤ 1 ∧ faultRowOk 0 ⟨1, 1, 1⟩ = false ∧ faultRowOk 63 ⟨2, 2, 1⟩ = true ∧
      ¬ 2 ≤ (fltSrc (s c) 63).countN.toNat) ∧
    (let c := cmd 0 0x74 [1]
     runsNow (s c) 0 0 0x74 c = true ∧ (sq (s c) c.key).port ≠ .drag ∧ serving (s c) (other .drag) = true ∧ ((s c).pwr.feed.get .drag).valid = true ∧
      (s c).mld.pour.get .drag = none ∧ (sq (s c) c.key).port = .cope) ∧
    (let c := cmd 0 0x75 ([4, 0, 3, 0] ++ le 4 16777215)
     runsNow (s c) 0 0 0x75 c = true ∧ c.p 1 1 < loopCount 4 ∧ hasRange (c.p 2 1) 1 3 = true ∧ hasRange (c.p 4 4) 1 16777215 = true ∧
      loopBusy (s c) c 4 0 = false ∧ loopBusy (asked (rolling true 1) c) c 4 0 = true ∧ loopCount 4 = 1) := by decide

theorem test_at_FaultTamperAndRecorderCommands_assay :
    let l := fun (st : UnitState) (a : Option Assay) => ({ lanes := List.replicate 39 {} ++ [{ state := st }], assay := a } : LaneHalf)
    let c := cmd 0 0x73 [0, 79]
    let s := fun a => ({ asked (vault 0 {}) c with lanes := { half := ⟨{}, l .spare a⟩ } } : State)
    (runsNow (s none) 0 0 0x73 c = true ∧ c.p 1 1 < 2 * 40 ∧ halfOf (c.p 1 1 / 40) = .drag ∧
      (nth {} ((s none).lanes.half.get .drag).lanes (c.p 1 1 % 40)).state = .spare ∧ ((s none).lanes.half.get .drag).assay = none) ∧
    ((s (some { cupola := true, unit := 8, inPlace := true, left := 0 })).lanes.half.get .drag).assay ≠ none ∧
    (nth {} ((s none).lanes.half.get .cope).lanes 0).state = .off ∧
    (let c := { cmd 0 0x73 [0, 79] .running with seq := 5 }
     let a : Assay := { cupola := false, unit := 39, inPlace := false, left := 0, cmd := some 0 }
     let t : State := { s (some a) with adm := [c] }
     (t.lanes.half.get .drag).assay = some a ∧ t.gen.windowDone = true ∧ a.cmd = some 0 ∧
      (t.adm.find? fun x => x.key = 0 && x.phase == .running && x.op = 0x73) = some c ∧ a.unit < (t.lanes.half.get .drag).lanes.length ∧
      ({ a with left := 1 } : Assay).left ≠ 0) := by decide

theorem test_at_FaultTamperAndRecorderCommands_tamper :
    let s := fun c => asked (vault 0 {}) c
    (let c := cmd 0 0x77 ([0x22, 0, 3, 1] ++ le 4 1)
     runsNow (s c) 0 0 0x77 c = true ∧ tamperRowOk ⟨0x22, 3, 1, 1⟩ = true ∧ (monEntry (s c) 0x22).response.toNat ≤ 3 ∧
      (monEntry (s c) 0x22).window.toNat ≤ 1 ∧ tamperRowOk ⟨0x22, 1, 1, 1⟩ = false ∧ tamperRowOk ⟨0x22, 3, 2, 1⟩ = true ∧
      ¬ 2 ≤ (monEntry (s c) 0x22).countN.toNat) ∧
    (runsNow (s (cmd 0 0x78 [0xC0])) 0 0 0x78 (cmd 0 0x78 [0xC0]) = true ∧ (monitorInfo 0xC0).isSome = true ∧ (monitorInfo 0xC1).isNone = true ∧
      monPowered (s {}) 0xC0 = true ∧
      monPowered ({ s {} with pwr := { phase := .step5, feed := ⟨{ valid := false }, {}⟩ } } : State) 0x00 = false) ∧
    (runsNow (s (cmd 0 0x79 [0, 0, 1])) 0 0 0x79 (cmd 0 0x79 [0, 0, 1]) = true ∧ runsNow (s (cmd 0 0x7B [0, 0, 1])) 0 0 0x7B (cmd 0 0x7B [0, 0, 1]) = true ∧
      hasRange ((cmd 0 0x7B [0, 0, 1]).p 2 2) 1 4096 = true ∧ 0 + 1 ≤ [[1]].length ∧ ¬ 0 + 1 ≤ (storedRecs (s {})).length) := by decide

theorem test_at_FaultTamperAndRecorderCommands_quiet (c : AdminCmd) : quietFaults (asked (vault 0 {}) c) := vault_quiet 0 {}

theorem test_at_MouldAndEntropyCommands_moulds :
    let s := fun c => asked (vault 0 { bank := upBanks }) c
    (∀ op ∈ [0x80, 0x81, 0x82, 0x83, 0x84, 0x85, 0x86], runsNow (s (cmd 0 op [])) 0 0 op (cmd 0 op []) = true) ∧
    pourBusy (s {}) = false ∧ pourBusy ({ s {} with mld := { staging := true } } : State) = true ∧
    freeSlot (s {}) = some true ∧ freeSlot ({ s {} with mld := { runSlotHalf := ⟨some false, some true⟩ } } : State) = none ∧
    (let c := cmd 0 0x81 [1, 1]
     pourSlot (s c) (c.p 1 1) ((s c).mld.runSlotHalf.get .drag) = some true ∧ pourSlot (s c) 2 ((s c).mld.runSlotHalf.get .drag) = none ∧
      (sq (s c) c.key).port ≠ .drag ∧ serving (s c) .cope = true ∧ ((s c).pwr.feed.get .drag).valid = true ∧ (s c).mld.pour.get .drag = none) ∧
    ((running (s {})).length = 3 ∧ (∀ y ∈ running (s {}), y.digest = wide.digest) ∧ (running (s {})).head? = some wide ∧ bothBanks (s {}) = true ∧
      (running ({ s {} with mld := {} } : State)).length ≠ 3) ∧
    (let c := cmd 0 0x85 (zeros 8 ++ le 4 7)
     let t := asked (ceremonies 8 0 0 true) c
     runsNow t 0 0 0x85 c = true ∧ ownerBound t = false ∧ bothBanks t = true ∧ (useCer t c.gal (c.p 8 4) 8 0).1 = true ∧
      (useCer (s c) c.gal (c.p 8 4) 8 0).1 = false) := by decide

/-- Sources 8 to 10 of Drag are healthy, source 15 is `x`. -/
def sources (x : Source) (st : LcState) (raw : Bool) : State :=
  { vault 0 {} with
    lcs := { (vault 0 {}).lcs with state := st }
    rng := { drbg := List.replicate 4 { state := .ready }, deviceRaw := raw
             src := [(8, { state := .healthy }), (9, { state := .healthy }), (15, x)] } }

theorem test_at_MouldAndEntropyCommands_entropy :
    let s := fun x st raw c => asked (sources x st raw) c
    (let c := cmd 0 0x90 [15, 1]
     let t := s { state := .excluded } .production false c
     runsNow t 0 0 0x90 c = true ∧ rawSource t = none ∧ (srcAt t 15).state = .excluded ∧ 2 ≤ healthy t (srcHalfOf 15) ∧
      healthy t (srcHalfOf 8) - 1 < 2 ∧ (srcAt t 8).state = .healthy ∧ (srcAt t 14).state = .off) ∧
    (let c := cmd 0 0x90 [15]
     runsNow (s { state := .raw } .production false c) 0 0 0x90 c = true ∧ (srcAt (s { state := .raw } .production false c) 15).state = .raw) ∧
    (let c := cmd 0 0x91 [1, 15]
     runsNow (s {} .test false c) 0 0 0x91 c = true ∧ c.p 1 1 ≤ 15 ∧ (s {} .test false c).lcs.state = .test ∧
      (s {} .test true c).rng.deviceRaw = true ∧ (s {} .production false c).lcs.state ≠ .test) ∧
    (let c := cmd 0 0x92 [15]
     runsNow (s { state := .excluded } .production false c) 0 0 0x92 c = true ∧ 15 < (cmd 0 0x92 [16]).p 0 1) ∧
    (let c := cmd 0 0x93 [3]
     runsNow (s {} .production false c) 0 0 0x93 c = true ∧ 3 < (cmd 0 0x93 [4]).p 0 1) := by decide

/-! ### Fuses -/

/-- Groups of two fuses of three, of one and of none. -/
theorem test_at_FusedStateFollowsGroups : 2 ≤ ({ stEol := 2 } : Fuses).stEol ∧
    (¬ 2 ≤ ({ stProd := 2, stTest := 2 } : Fuses).stEol ∧ 2 ≤ ({ stProd := 2, stTest := 2 } : Fuses).stProd ∧ 2 ≤ ({ stProd := 2, stTest := 2 } : Fuses).stTest) ∧
    (¬ 2 ≤ ({ stProd := 1, stTest := 3 } : Fuses).stProd ∧ 2 ≤ ({ stProd := 1, stTest := 3 } : Fuses).stTest) ∧
    ¬ 2 ≤ ({ stTest := 1 } : Fuses).stTest ∧ (2 ≤ ({ stProd := 3 } : Fuses).stProd ∧ ¬ 2 ≤ ({ stProd := 3 } : Fuses).stTest) := by decide

theorem test_at_FusesOnlyBurn : Fuses.keeps {} State.reset.lcs.fuses ∧ step State.reset = .next State.reset := by
  exact ⟨⟨rfl, rfl, rfl, rfl, id, id, id, id, id, id, id, Nat.le_refl _, fun _ h => h, fun _ h => h, id, id, id⟩, rfl⟩

/-! ### Further clauses -/

/-- A part whose Cope half has one active Cupola unit. -/
def unitUp (s : State) : State := { s with cup := { units := ⟨[{ state := .active }], []⟩ } }

/-- Reserve operations are fresh where a unit can take them, done once the unit has finished them, and done at once where no unit
can take them. -/
theorem reserve_ops (s : State) (hs : serving s .cope = true) (owner : Bytes) (ticks : List Nat) (half : Option Half)
    (hh : half = none ∨ half = some .cope) (ht : ticks ≠ []) : opsFresh (unitUp s) owner ticks half ∧
    (∃ u, opsDone { unitUp s with cup := { (unitUp s).cup with resDone := [owner] } } owner ticks half u) ∧
    ∃ u, opsDone { s with cup := {} } owner ticks half u := by
  have hc : ∀ t : State, t.atr = s.atr → t.cup.units = ⟨[{ state := .active }], []⟩ → canReserve t half = true := by
    intro t e eu
    have h1 : serving t .cope = true := by
      have h2 : serving t .cope = serving s .cope := by unfold serving; rw [e]
      rw [h2, hs]
    have h3 : ((cupUnits t .cope).any fun u => u.state == .active) = true := by
      unfold cupUnits; rw [eu]; rfl
    unfold canReserve
    rcases hh with rfl | rfl <;> simp [h1, h3]
  refine ⟨⟨ht, hc _ rfl rfl, rfl, rfl⟩, ⟨_, .inr ⟨ht, hc _ rfl rfl, ?_, rfl⟩⟩, ⟨_, .inl ⟨.inr ?_, rfl⟩⟩⟩
  · simp
  · have h4 : ∀ h, cupUnits { s with cup := {} } h = [] := by intro h; cases h <;> rfl
    unfold canReserve
    simp only [h4, List.any_nil, List.any_cons, Bool.and_false, Bool.or_false]

theorem test_at_CardSession_ops (n : Nat) (d : Bytes) : opsFresh (unitUp (inPort {})) (cardOwner n d) [78] none ∧
    (∃ u, opsDone { inPort {} with cup := {} } (cardOwner n d) [78] none u) ∧ drbgReady (inPort {}) 2 = true ∧
    cardWorking (inPort {}) 15 = false :=
  ⟨(reserve_ops _ rfl _ _ none (.inl rfl) (by decide)).1, (reserve_ops _ rfl _ _ none (.inl rfl) (by decide)).2.2, by decide, by decide⟩

/-- A link in `st` with the instances of the entropy unit ready and no other hello waiting. -/
theorem test_at_SpanLinks_ops (st : LinkState) (owner : Bytes) (ticks : List Nat) (ht : ticks ≠ []) :
    let s : State := { linked { state := st } with rng := (vault 0 {}).rng }
    opsFresh (unitUp s) owner ticks (some .cope) ∧ (∃ u, opsDone { s with cup := {} } owner ticks (some .cope) u) ∧
      (link s 127).half = .cope ∧ resWorks { s with cup := {} } = [] ∧ drbgReady s 2 = true :=
  ⟨(reserve_ops _ rfl _ _ (some .cope) (.inr rfl) ht).1, (reserve_ops _ rfl _ _ (some .cope) (.inr rfl) ht).2.2, by cases st <;> decide, rfl,
    by cases st <;> decide⟩

theorem test_at_SpdmResponder_ops (owner : Bytes) (ticks : List Nat) (ht : ticks ≠ []) :
    let s : State := { responder [] with rng := (vault 0 {}).rng }
    opsFresh (unitUp s) owner ticks none ∧ (∃ u, opsDone { s with cup := {} } owner ticks none u) ∧ drbgReady s 2 = true ∧
      (134 ≤ (zeros 134).length) :=
  ⟨(reserve_ops _ rfl _ _ none (.inl rfl) ht).1, (reserve_ops _ rfl _ _ none (.inl rfl) ht).2.2, rfl, by simp [zeros]⟩

/-- A Slot Update Message in mode 1 signed with ECDSA; PROVENANCE_GET. -/
theorem test_at_SlotCommands_ops (c : AdminCmd) :
    let s := asked (vault 0 { bank := upBanks }) c
    sumTicks (zeros 6 ++ [1, 1]) = [140, 75] ∧ opsFresh (unitUp s) (cmdOwner c) [140, 75] none ∧
      (∃ u, opsDone { s with cup := {} } (cmdOwner c) [140, 75] none u) ∧ drbgReady s 2 = true ∧
      drbgReady ({ s with rng := {} } : State) 2 = false ∧ opsFresh (unitUp s) (cmdOwner c) [80] none :=
  ⟨by decide, (reserve_ops _ rfl _ _ none (.inl rfl) (by decide)).1, (reserve_ops _ rfl _ _ none (.inl rfl) (by decide)).2.2, rfl, rfl,
    (reserve_ops _ rfl _ _ none (.inl rfl) (by decide)).1⟩

theorem test_at_PairedExecutionAndReplies_ops (m : Bytes) : opsFresh (unitUp (replicating {})) ([1] ++ m) [80] none ∧
    (∃ u, opsDone { replicating {} with cup := {} } ([1] ++ m) [80] none u) ∧ drbgReady (replicating {}) 2 = true :=
  ⟨(reserve_ops _ rfl _ _ none (.inl rfl) (by decide)).1, (reserve_ops _ rfl _ _ none (.inl rfl) (by decide)).2.2, rfl⟩

/-- A burn that runs, with its intent record. -/
theorem test_at_LifeCycleIdentityAndExtensionCommands_burn :
    let c := cmd 0 0x40 [2, 1] .running 1
    let i : Intent := { kind := 2, arg := 0, seq := 1, payload := [] }
    let s : State := { moving { stTest := 3 } c with lcs := { (moving { stTest := 3 } c).lcs with intents := ⟨[i], [i]⟩ } }
    burning s = true ∧ (intentsOf s).find? (fun i => i.seq.toNat = c.mark) = some i ∧ c ∈ s.adm ∧
      burning (moving { stTest := 3 } (cmd 0 0x40 [2])) = false ∧ drbgReady s 2 = true := by decide

/-- A self-test that has the monitors of `left` before it. -/
theorem test_at_FaultTamperAndRecorderCommands_selftest :
    let c := { cmd 0 0x7A [] .running with seq := 6 }
    let s : List Nat → State := fun left => { asked (vault 0 {}) c with tmp := { selfRun := some { seq := 6, left, failing := [0x20] } } }
    (s []).tmp.selfRun ≠ none ∧ ((s []).adm.find? fun x => x.seq = 6 && x.phase == .running && x.op = 0x7A) = some c ∧
      (s [0x20]).tmp.selfRun = some { seq := 6, left := [0x20], failing := [0x20] } ∧ monPowered (s [0x20]) 0x20 = true ∧
      (vault 0 {}).tmp.selfRun = none := by decide

/-- DETAIL of a rail is 1 or 2; the receiver of a loop finds nothing when `_IN` is the driven bit, which is a free value. -/
theorem test_at_MonitorsAndRecorder_detail : detailOf (watch 0x20 1) 0x20 0 false = some 1 ∧ ∃ d < 2, detailOf (watch 0xB0 1) 0xB0 d false = none := by
  refine ⟨by decide, ?_⟩
  have h : ∀ b : Bool, nbit (b2n b) 0 = b := by decide
  refine ⟨b2n (Config.loopBit (watch 0xB0 1).tmp.loopSeed 0xB0 (monTime (watch 0xB0 1))), ?_, ?_⟩
  · cases Config.loopBit (watch 0xB0 1).tmp.loopSeed 0xB0 (monTime (watch 0xB0 1)) <;> decide
  · show loopDetail (watch 0xB0 1) 0xB0 _ = none
    unfold loopDetail
    rw [if_pos]
    exact h _

/-- A second has passed, its lane slots counted or not. -/
theorem test_at_MonitorsAndRecorder_second : 1000000 ≤ ({ sinceSecond := 1000000, slots := 8, slotsHeld := 8 } : Recorder).sinceSecond ∧
    (-10 : Int) ≤ 129 ∧ (129 : Int) < 130 ∧ ({ sinceSecond := 999999 } : Recorder).sinceSecond < 1000000 ∧
    (poured false).rcd.full = false := by decide

/-- The last record is written and CMD27 programs the CSD; cards that fail in each way. -/
theorem test_at_CeremonyWindowsAndArchiveMedia_protecting :
    let w : ArcWrite := { port := 3, gal := 1, sq := 0, ref := 0, records := [], attempts := 2, protecting := true }
    let s := media { state := .busy, blocks := 8 } (some w)
    s.arc.write = some w ∧ w.protecting = true ∧ arcCmd s = some (cmd 1 0x35 [1, 3] .running) ∧ writable (arcAt s 3) = true ∧
      (arcAt s 3).no18 = false ∧ arcLive s 3 = true ∧ 2 ≤ w.attempts ∧ ({ responds := false } : SdCard).responds = false ∧
      ({ crcOk := false } : SdCard).crcOk = false ∧
      (let c : SdCard := { s18a := true, switchOk := false }
       let t : State := { media {} none with arc := { uhsEn := true } }
       (c.s18a && (t.arc.v18 || t.arc.uhsEn && !othersActive t 3)) = true ∧ c.switchOk = false) := by decide

/-- A card asks for the smallest IFSC while the part waits for the IFS response. -/
theorem test_at_CardSession_ifs : (card (inPort { waits := .ifs }) 15).waits = .ifs ∧ 16 ≤ (16 : Byte).toNat ∧ (254 : Byte).toNat ≤ 254 ∧
    cardWorking (inPort { waits := .ifs }) 15 = false := by decide

/-- An Atrium pour runs and a Mould command comes; the firmware in the active slot is the one that runs. -/
theorem test_at_AdminCommandsRefuseAndComplete_pour : ({ vault 0 {} with mld := { atriumPour := some 0 } } : State).mld.atriumPour ≠ none ∧
    (vault 0 {}).mld.atriumPour = none ∧ (0x80 ≤ 0x84 ∧ 0x84 ≤ 0x86) := by decide

theorem test_at_ReserveRestartAndResume_measured :
    let m : Mould := { wide with atrium := { wide.atrium with fw := { digest := sha384 (sectBytes [] 10 0) } } }
    let s : State := { poured false with mld := { (poured false).mld with runAtrium := some m, slotA := ⟨some [], some []⟩ } }
    measured s = true ∧ measured (live false) = false := by
  refine ⟨?_, rfl⟩
  show (sha384 (sectBytes [] 10 0) == sha384 (sectBytes [] 10 0)) = true
  exact beq_self_eq_true _

theorem test_at_ColdStartByLifeCycle_instances : drbgReady State.reset 2 = false ∧
    drbgReady ({ State.reset with rng := { drbg := List.replicate 4 { state := .ready } } } : State) 2 = true ∧
    State.reset.pwr.phase = .step2 := by decide

theorem test_at_PairHandshakeAndReplication_hellos :
    let s : State := { paired { state := .pending, lastHello := 9000 } with rng := (vault 0 {}).rng }
    (pairAt s 1).state = .pending ∧ anyServing s = true ∧ s.atr.restarting = false ∧ drbgReady s 2 = true ∧
      (pairAt s 1).lastHello + 1000 ≤ s.gen.a.toNat := by decide

theorem test_at_DoorbellsLinksAndFramesComplete_registers :
    (let s := queues false
     (fnCfg s .cope (1 : Gallery).toNat).flrEnd = none ∧ (gal s (1 : Gallery).toNat).state = .active ∧
      (sq s (64 * 1 + 63)).exist = true ∧ (sq s (64 * 1 + 63)).gen.toNat = (0x10000001 : Word).toNat / 2 ^ 28 ∧
      sqIndexOk (sq s (64 * 1 + 63)) ((0x10000001 : Word).toNat % 2 ^ 17) = true ∧ (cq s (64 * 1 + 1)).exist = true ∧
      (cq s (64 * 1 + 1)).gen.toNat = (0x10000000 : Word).toNat / 2 ^ 28 ∧ cqIndexOk (cq s (64 * 1 + 1)) ((0x10000000 : Word).toNat % 2 ^ 17) = true) ∧
    ((gv (poured true) 1).aq.ready = false ∧ (gv (asks 4) 1).aq.deciding = true ∧ (asks 4).gen.windowDone = true ∧
      (gv (asks 4) 1).aq.due ≤ (asks 4).gen.a.toNat ∧ (gal (asks 4) 1).state = .active) := by decide

theorem test_at_DoorbellsLinksAndFramesComplete_links :
    let s := fun x => linked x
    ((link (s { state := .training }) 127).state = .training ∧ linkPowered (s { state := .training }) 127 = true ∧
      topoOf (linked { state := .training } false) 127 = none ∧ (link (s { state := .up }) 127).state ≠ .hello) ∧
    (leAt (padTo 232 (le 2 1024)) 0 2 / 1024 % 4 = 1 ∧ (link (s { state := .up, replay := [(0, [])], resends := 7 }) 127).replay ≠ [] ∧
      (link (s { state := .up, resends := 7 }) 127).resends < 8) ∧
    (chainOn (rolling false 1) = true ∧ (rolling false 1).chn.head = false ∧ (rolling false 1).chn.roll = some (1, 100000, 0) ∧
      rollCmd (poured true) 0 = none) := by decide

/-! ### Single steps, with results taken from the rules named -/

/-- The state after a command. -/
def after (i : Instr) (s : State) : State :=
  match exec i s with
  | .next t => t
  | _ => { s with response := 0xBAD }

/-- A core whose w1 and w2 hold `a` and `b`. -/
def two (a b : Word) : State := withCore 1 { kernel with w := [a, b] ++ List.replicate 29 0 }

/-- ADD, SUB and MUL wrap modulo 2^32; MULH is the upper half of the signed product (spec/14). -/
theorem test_add_wraps : (Machine.core (after (.add 1 3 1 2) (two 0xFFFFFFFF 2)) 1).getW 3 = 1 := by decide +kernel
theorem test_sub_borrows : (Machine.core (after (.sub 1 3 1 2) (two 0 1)) 1).getW 3 = 0xFFFFFFFF := by decide +kernel
theorem test_mulh_signed : (Machine.core (after (.mulh 1 3 1 2) (two 0xFFFFFFFF 2)) 1).getW 3 = 0xFFFFFFFF := by decide +kernel

/-- Division by 0 gives all ones and the dividend as the remainder (spec/14). -/
theorem test_divu_by_zero : (Machine.core (after (.divu 1 3 1 2) (two 7 0)) 1).getW 3 = 0xFFFFFFFF := by decide +kernel
theorem test_remu_by_zero : (Machine.core (after (.remu 1 3 1 2) (two 7 0)) 1).getW 3 = 7 := by decide +kernel

/-- SRA fills with the sign; a shift count is taken modulo 32; w0 stays 0 (spec/14). -/
theorem test_sra_sign : (Machine.core (after (.sra 1 3 1 2) (two 0x80000000 33)) 1).getW 3 = 0xC0000000 := by decide +kernel
theorem test_w0_stays_zero : (Machine.core (after (.or 1 0 1 2) (two 1 2)) 1).getW 0 = 0 := by decide +kernel

/-- SLTIU sign-extends its immediate, then compares unsigned; XORI zero-extends (R427). -/
theorem test_sltiu_extends : (Machine.core (after (.sltiu 1 3 1 0xFFFF) (two 5 0)) 1).getW 3 = 1 := by decide +kernel
theorem test_xori_zero_extends : (Machine.core (after (.xori 1 3 1 0xFFFF) (two 0xFFFF0000 0)) 1).getW 3 = 0xFFFFFFFF := by decide +kernel

/-- A backward branch wraps PC within its bank; BLT is signed, BLTU is not (R431). -/
theorem test_blt_backward : (Machine.core (after (.blt 1 1 2 0xFFF0) (two 0xFFFFFFFF 0)) 1).pc = 0 := by decide +kernel
theorem test_bltu_not_taken : (Machine.core (after (.bltu 1 1 2 0xFFF0) (two 0xFFFFFFFF 0)) 1).pc = 0x44 := by decide +kernel

/-- SYS saves the next instruction and enters at EVEC with code 0x09 and its selector (R435, R444). -/
theorem test_sys_enters : (let x := Machine.core (after (.sys 0 0 0 5) ram) 0; (x.epc, x.ecause, x.pc, nth 0 x.bk 7)) = (0x00100044, 0x00090005, 0x0100, 0x0010) := by
  decide +kernel

/-- Each stray access counts and records its offset (R20). -/
theorem test_stray_access_counts : (let a := (after (.unassignedAccess .cope 0 0x1FFFFC true) (live false)).atr; (a.errCount, a.errLast)) = (1, 0x1FFFFC) := by
  decide +kernel

/-- A doorbell with another generation counts in STALE, one past twice the depth in INVALID (R109, R110). -/
theorem test_doorbell_stale : (sq (after (.sqDoorbellWrite .cope 1 63 0x20000001) (queues false)) 127).stale = 1 := by decide +kernel
theorem test_doorbell_invalid : (sq (after (.sqDoorbellWrite .cope 1 63 0x10000020) (queues false)) 127).invalid = 1 := by decide +kernel
theorem test_doorbell_taken : (sq (after (.sqDoorbellWrite .cope 1 63 0x10000010) (queues false)) 127).pi = 16 := by decide +kernel

/-- A fatal event of source 0 resets the part with cause 2 and FLT_LAST_FATAL names it (R479, R587). -/
theorem test_fatal_event : (let t := after (.faultEvent 0 .fatal 9 0 0 false) (live true); (t.pwr.cause, t.flt.lastValid, t.flt.lastUnit, t.gen.windowDone)) =
    (2, true, 9, false) := by decide +kernel

/-- The tick count rises once the window has run (R51). -/
theorem test_tick : (after .tickBoundary (live true)).gen.a = 1 ∧ (after .tickBoundary (live false)).gen.a = 0 := by decide +kernel

/-- PWR_RESET_CTL takes the key 0xA5 alone (R584). -/
theorem test_device_reset_key : (after (.pwrResetCtlDevice 0xA5000001) (live true)).pwr.cause = 5 ∧
    (after (.pwrResetCtlDevice 0x5A000001) (live true)).pwr.cause = 0 := by decide +kernel

/-- ECHO returns its parameter bytes as the result (R174). -/
theorem test_echo_result : (let j := { jobOf 0x0F00 .confirmed with steps := [{ entry := le 2 0x0F00 ++ [3] ++ zeros 29 ++ [1, 2, 3] ++ zeros 29 }] }
    (job (after (.echo 3) (withJob false j)) 3).bind fun j => j.computed.map (·.result)) = some ([1, 2, 3] ++ zeros 13) := by decide +kernel

/-- A reserved byte ends a command BAD_INPUT, with its completion in the hold (R116, R609). -/
theorem test_reserved_bad_input : (let t := after (.queueDestroySq 1 0) (asked (vault 0 {}) (cmd 1 0x02 [63, 1])); (t.adm, (cq t 64).hold.map (·.status))) =
    ([], [Status.badInput]) := by decide +kernel

/-- QUEUE_CREATE_CQ raises the queue's generation (R105, R109). -/
theorem test_queue_create : (cq (after (.queueCreateCq 1 0) (asked (vault 0 {}) (cmd 1 0x00 ([63, 0, 4, 4, 0] ++ zeros 6 ++ le 8 0x1000)))) 127).gen = 1 := by
  decide +kernel

/-- Gallery 0 may not be destroyed (R91). -/
theorem test_curator_stays : (gal (after (.galleryDestroy 0 0) (asked (vault 0 {}) (cmd 0 0x11 [0]))) 0).state = .active := by decide +kernel

/-- The move to PRODUCTION stores its intent in both banks first, and burns all three fuses of ST_PROD (R362, R365). -/
theorem test_life_cycle_move : (let t := after (.lifecycleMove 0 0) (moving { stTest := 3 } (cmd 0 0x40 [2]))
    (t.lcs.intents.cope.map (·.kind), t.lcs.intents.drag.map (·.kind), t.lcs.fuses.stProd)) = ([2], [2], 0) ∧
    (burnIntent { stTest := 3 } 2 0 []).stProd = 3 := by decide +kernel

/-- 41 equal bits exclude a source with cause 1 (R458). -/
theorem test_repetition : (let x := srcAt (after (.rawBit 15 true) (source 15 { state := .healthy, run := 40, last := some true })) 15; (x.state, x.cause)) =
    (SrcState.excluded, 1) := by decide +kernel

/-- The head raises the epoch and takes address 0 when its ROLL_QUERY returns (R533). -/
theorem test_roll_query : (let c := (after (.rollQuery 9 true) (rolling true 1)).chn; (c.epoch, c.addr, c.valid)) = (10, 0, true) := by decide +kernel

/-- A PAIR_HELLO of another epoch is dropped and counted (R538). -/
theorem test_old_epoch : (after (.pairHello (msg 7 2)) (paired { state := .active })).spn.dropEpoch = 1 := by decide +kernel

/-- DOE discovery of index 2 wraps to index 0 (R568). -/
theorem test_doe_discovery : (after (.doeDiscovery .drag 2) (port upPort)).out.doe = [1, 0, 2, 0] := by decide +kernel

/-- A card that the part detects gets its power, and CUS_EVENT its bit 0 (R319). -/
theorem test_card_detect : (let t := after (.cardDetect 15) (inPort {}); ((card t 15).power, t.cus.event)) = (true, 1) := by decide +kernel


end Sys2Proof.Tests
end

/-!
PROOFS. Admin commands (R18, R78, R102, R376, R609): what a completion leaves in the hold, and the checks that every admin row
makes before its own meaning.
-/
namespace Sys2Proof.Machine

/-! ### Completion queues -/

theorem mem_insertBy {α : Type} (le : α → α → Bool) (a x : α) (l : List α) : x ∈ insertBy le a l ↔ x = a ∨ x ∈ l := by
  induction l with
  | nil => simp [insertBy]
  | cons b l ih =>
    unfold insertBy
    split
    · simp
    · simp only [List.mem_cons, ih]
      exact or_left_comm

@[simp] theorem cq_updCq_same (s : State) (k : Nat) (f : Cq → Cq) : cq (updCq s k f) k = f (cq s k) := by
  simp [updCq, cq]

/-- A completion touches the completion queue alone. -/
theorem produce_eq_updCq (s : State) (k : Nat) (gen : BitVec 4) (reserved : Bool) (h : Held) :
    ∃ f, produce s k gen reserved h = updCq s (cqKey s k) f := by
  by_cases hc : ((sq s k).exist && (sq s k).gen = gen && (cq s (cqKey s k)).exist) = true
  · exact ⟨_, if_pos hc⟩
  · exact ⟨_, if_neg hc⟩

/-- The completion enters the hold of the pair's completion queue. -/
theorem mem_hold_produce {s : State} {k gen : Nat} (hp : queuePair s k gen) (reserved : Bool) (h : Held) :
    { h with sq := k, sqId := (sq s k).id, sqGen := (BitVec.ofNat 4 gen).toNat } ∈
      (cq (produce s k (BitVec.ofNat 4 gen) reserved h) (cqKey s k)).hold := by
  obtain ⟨hsq, hgen, hcq⟩ := hp
  simp [produce, hsq, hgen, hcq, mem_insertBy]

/-! ### Completions of admin commands -/

/-- The state in which the command has left the admin unit. -/
def withoutAdm (s : State) (c : AdminCmd) : State := { s with adm := s.adm.filter fun x => x.seq ≠ c.seq }

theorem produceAdmin_of_queuePair {s : State} {c : AdminCmd} (hp : queuePair s c.key c.sqGen) (h : Held) :
    produceAdmin s c h = produce (withoutAdm s c) c.key (BitVec.ofNat 4 c.sqGen) true h := by
  obtain ⟨hsq, hgen, -⟩ := hp
  exact if_pos (by simpa using ⟨hsq, hgen⟩)

/-- A command whose queue pair stands changes its completion queue and the admin unit alone. -/
theorem produceAdmin_eq_updCq {s : State} {c : AdminCmd} (hp : queuePair s c.key c.sqGen) (h : Held) :
    ∃ f, produceAdmin s c h = updCq (withoutAdm s c) (cqKey s c.key) f :=
  produceAdmin_of_queuePair hp h ▸ produce_eq_updCq (withoutAdm s c) c.key _ true h

theorem cqKey_produceAdmin {s : State} {c : AdminCmd} (hp : queuePair s c.key c.sqGen) (h : Held) (k : Nat) :
    cqKey (produceAdmin s c h) k = cqKey s k := by
  obtain ⟨f, e⟩ := produceAdmin_eq_updCq hp h
  rw [e]; rfl

theorem adm_produceAdmin {s : State} {c : AdminCmd} (hp : queuePair s c.key c.sqGen) (h : Held) :
    (produceAdmin s c h).adm = s.adm.filter fun x => x.seq ≠ c.seq := by
  obtain ⟨f, e⟩ := produceAdmin_eq_updCq hp h
  rw [e]; rfl

theorem mem_hold_produceAdmin {s : State} {c : AdminCmd} (hp : queuePair s c.key c.sqGen) (h : Held) :
    { h with sq := c.key, sqId := (sq s c.key).id, sqGen := (BitVec.ofNat 4 c.sqGen).toNat } ∈
      (cq (produceAdmin s c h) (cqKey s c.key)).hold := by
  rw [produceAdmin_of_queuePair hp h]
  exact mem_hold_produce (s := withoutAdm s c) hp true h

theorem completed_produceAdmin {s : State} {c : AdminCmd} (hp : queuePair s c.key c.sqGen) (h : Held) (hi : h.issued = false) :
    completed (produceAdmin s c h) c.key h.cmdId h.status h.detail h.outCount h.result := by
  have hm := mem_hold_produceAdmin hp h
  rw [← cqKey_produceAdmin hp h] at hm
  exact ⟨_, hm, rfl, rfl, rfl, rfl, rfl, rfl, hi⟩

/-- A completed command has left the admin unit and its completion is held (R115, R127). -/
theorem answered_completeAdmin {s : State} {c : AdminCmd} (hp : queuePair s c.key c.sqGen) (hu : c.unread = false)
    (st : Status) (detail : Nat) (b : Bytes) : answered (completeAdmin s c st detail 0 b) c st detail b := by
  constructor
  · rw [completeAdmin, if_neg (by simp [hu])]
    exact completed_produceAdmin hp _ rfl
  · simp [completeAdmin, adm_produceAdmin hp]

theorem jobs_completeAdmin {s : State} {c : AdminCmd} (hp : queuePair s c.key c.sqGen) (st : Status) (detail n : Nat) (b : Bytes) :
    (completeAdmin s c st detail n b).jobs = s.jobs := by
  obtain ⟨f, e⟩ := produceAdmin_eq_updCq hp _
  rw [completeAdmin, e]; rfl

theorem out_completeAdmin {s : State} {c : AdminCmd} (hp : queuePair s c.key c.sqGen) (st : Status) (detail n : Nat) (b : Bytes) :
    (completeAdmin s c st detail n b).out = s.out := by
  obtain ⟨f, e⟩ := produceAdmin_eq_updCq hp _
  rw [completeAdmin, e]; rfl

/-- A command's host write stands in the hold with its completion, which follows it (R170). -/
theorem mem_hold_query {s : State} {c : AdminCmd} (hp : queuePair s c.key c.sqGen) (o : Nat) (b r : Bytes) :
    ∃ h ∈ (cq (query s c o true b r) (cqKey s c.key)).hold, h.outs = [(BitVec.ofNat 64 (c.p o 8), b)] ∧ h.status = .done ∧
      h.cmdId = leAt c.entry 4 2 ∧ h.result = r :=
  ⟨_, mem_hold_produceAdmin hp _, rfl, rfl, rfl, rfl⟩

/-! ### The checks before a row's meaning -/

theorem gal_of_admAt {s : State} {g q : Nat} {ph : AdmPhase} {c : AdminCmd} (h : admAt s g q ph = some c) : c.gal = g := by
  have hc := List.find?_some h
  simp only [Bool.and_eq_true, decide_eq_true_eq] at hc
  obtain ⟨⟨hg, -⟩, -⟩ := hc
  exact hg

section
variable {s : State} {g : Gallery} {q : QIndex} {op : Nat} {c : AdminCmd} (f : State → AdminCmd → State)

theorem runAdmin_of_none (h : admAt s g.toNat q.toNat .confirmed = none) : runAdmin s g q op f = s := by
  simp only [runAdmin, h]

/-- A command of another opcode, and one before the parting window is over, stays as it is (entry 13). -/
theorem runAdmin_of_notTurn (h : admAt s g.toNat q.toNat .confirmed = some c) (ht : c.op ≠ op ∨ s.gen.windowDone = false) :
    runAdmin s g q op f = s := by
  have : (c.op ≠ op || c.unread || !s.gen.windowDone) = true := by rcases ht with ht | ht <;> simp [ht]
  simp only [runAdmin, h, this, if_true]

/-- The checks of a command whose turn has come, in their order (R609, R376, R78, R18). -/
theorem runAdmin_of_turn {r : AdmRow} (h : admAt s g.toNat q.toNat .confirmed = some c) (hop : c.op = op) (hu : c.unread = false)
    (hw : s.gen.windowDone = true) (hr : admRow op = some r) :
    runAdmin s g q op f =
      if r.clean c.entry = false then fails s c .badInput
      else if r.curator = true ∧ g ≠ 0 then fails s c .notAuthorised
      else if g = 0 ∧ s.lcs.session = true ∧ sessionAllows op = false then fails s c .reserveBusy
      else if 0x80 ≤ op ∧ op ≤ 0x86 ∧ s.mld.atriumPour ≠ none then fails s c .reserveBusy
      else if r.reserve = true ∧ s.atr.restarting = true then s
      else f s c := by
  have hg : c.gal = 0 ↔ g = 0 := by
    rw [gal_of_admAt h]
    exact BitVec.toNat_inj (y := 0)
  have hp : s.mld.atriumPour.isSome = true ↔ s.mld.atriumPour ≠ none := Option.isSome_iff_ne_none
  subst hop
  simp [runAdmin, h, hu, hw, hr, hg, hp, and_assoc]

end

/-- Every admin row makes these checks under its own opcode, which is assigned, before its own meaning. -/
theorem exec_of_adminRow {g : Gallery} {q : QIndex} {ok ok' : Bool} {d d' : Option Bytes} {bl : List Bytes} {bs : List Byte}
    {e : Nat × Instr} (h : adminRow g q ok ok' d d' bl bs e) :
    (∃ r, admRow e.1 = some r) ∧ ∀ s, ∃ f, exec e.2 s = .next (runAdmin s g q e.1 f) := by
  simp only [adminRow, List.mem_cons, List.not_mem_nil, or_false] at h
  rcases h with (rfl | rfl | rfl | rfl | rfl | rfl | rfl) |
    (rfl | rfl | rfl | rfl | rfl | rfl | rfl | rfl) |
    (rfl | rfl | rfl | rfl | rfl | rfl | rfl | rfl) |
    (rfl | rfl | rfl | rfl | rfl | rfl | rfl | rfl) |
    (rfl | rfl | rfl | rfl | rfl) |
    (rfl | rfl | rfl | rfl | rfl | rfl | rfl | rfl | rfl) |
    (rfl | rfl | rfl | rfl) |
    (rfl | rfl | rfl | rfl | rfl | rfl | rfl | rfl | rfl | rfl | rfl | rfl | rfl) |
    (rfl | rfl | rfl | rfl | rfl | rfl | rfl) |
    (rfl | rfl | rfl | rfl) <;>
    exact ⟨⟨_, rfl⟩, fun _ => ⟨_, rfl⟩⟩

section
variable {s : State} {g : Gallery} {q : QIndex} {c : AdminCmd}

theorem exec_unassignedOpcode_of_none (h : admAt s g.toNat q.toNat .confirmed = none) :
    exec (.unassignedOpcode g q) s = .next s := by
  change execUnassignedOpcode g q s = _
  simp only [execUnassignedOpcode, h]

theorem exec_unassignedOpcode_of_some (h : admAt s g.toNat q.toNat .confirmed = some c) (hu : c.unread = false) :
    exec (.unassignedOpcode g q) s =
      .next (if admRow c.op = none ∧ s.gen.windowDone = true then fails s c .badInput else s) := by
  change execUnassignedOpcode g q s = _
  simp [execUnassignedOpcode, h, hu]

end

/-! ### What every admin command shares -/

section
variable {s : State} {g : Gallery} {q : QIndex} {ok ok' : Bool} {d d' : Option Bytes} {bl : List Bytes} {bs : List Byte}
  {c : AdminCmd} {e : Nat × Instr}

theorem exec_adminRow_of_none (he : adminRow g q ok ok' d d' bl bs e) (h : admAt s g.toNat q.toNat .confirmed = none) :
    exec e.2 s = .next s := by
  obtain ⟨f, hf⟩ := (exec_of_adminRow he).2 s
  rw [hf, runAdmin_of_none f h]

theorem exec_adminRow_of_notTurn (he : adminRow g q ok ok' d d' bl bs e) (h : admAt s g.toNat q.toNat .confirmed = some c)
    (ht : c.op ≠ e.1 ∨ s.gen.windowDone = false) : exec e.2 s = .next s := by
  obtain ⟨f, hf⟩ := (exec_of_adminRow he).2 s
  rw [hf, runAdmin_of_notTurn f h ht]

end

/-- Settles O50: each clause is one branch of the checks that all rows share (`runAdmin_of_turn`), or what a completion leaves
in the hold. -/
theorem adminCommandsRefuseAndComplete : Obligations.AdminCommandsRefuseAndComplete := by
  unfold Obligations.AdminCommandsRefuseAndComplete
  intro s g q ok ok' d d' bl bs c
  refine ⟨fun h => ⟨exec_unassignedOpcode_of_none h, fun e he => exec_adminRow_of_none he h⟩, fun h hu => ⟨?_, ?_, ?_⟩, ?_, ?_⟩
  · intro hw hr
    rw [exec_unassignedOpcode_of_some h hu, if_pos ⟨hr, hw⟩]
  · intro hw
    rw [exec_unassignedOpcode_of_some h hu, if_neg (by simp [hw])]
  · intro e he
    refine ⟨exec_adminRow_of_notTurn he h, fun hop hw => ?_⟩
    obtain ⟨⟨r, hr⟩, hrun⟩ := exec_of_adminRow he
    obtain ⟨f, hf⟩ := hrun s
    rw [hf, runAdmin_of_turn f h hop hu hw hr]
    refine ⟨r, hr, fun hd => by rw [if_pos hd], fun hcl hcur hg => ?_, fun hcl hg hses hno => ?_, fun hcl hcur hall => ?_⟩
    · rw [if_neg (by simp [hcl]), if_pos ⟨hcur, hg⟩]
    · rw [if_neg (by simp [hcl]), if_neg fun x => x.2 hg, if_pos ⟨hg, hses, hno⟩]
    · have hses : ¬ (g = 0 ∧ s.lcs.session = true ∧ sessionAllows e.1 = false) := fun ⟨hg, hs, hno⟩ =>
        absurd (hall hg hs) (by simp [hno])
      rw [if_neg (by simp [hcl]), if_neg fun x => x.2 (hcur x.1), if_neg hses]
      exact ⟨fun hlo hhi hp => by rw [if_pos ⟨hlo, hhi, hp⟩], fun hp hres hrs => by rw [if_neg hp, if_pos ⟨hres, hrs⟩]⟩
  · intro st detail b hp hu
    exact ⟨answered_completeAdmin hp hu st detail b, jobs_completeAdmin hp st detail 0 b, out_completeAdmin hp st detail 0 b⟩
  · intro o b r hp hu
    exact ⟨mem_hold_query hp o b r, answered_completeAdmin hp hu .dmaError 3 []⟩

end Sys2Proof.Machine

/-!
PROOFS. Galleries and the mailbox (R84 to R104): what a change of a gallery's records and the placing of grants leave as they
were, the gallery commands, the mailbox's handshake.
-/
namespace Sys2Proof.Machine

/-! ### Records of a gallery -/

@[simp] theorem gal_setGal_same (s : State) (n : Nat) (x : Gal) : gal (setGal s n x) n = x := Tab.get_put_same ({} : Gal) s.gals n x

theorem gal_setGal_ne (s : State) {n m : Nat} (h : m ≠ n) (x : Gal) : gal (setGal s n x) m = gal s m :=
  Tab.get_put_ne ({} : Gal) s.gals h x

theorem gal_of_gals {s t : State} (h : t.gals = s.gals) (n : Nat) : gal t n = gal s n := by rw [gal, h, gal]

@[simp] theorem gv_updGv_same (s : State) (n : Nat) (f : GalVol → GalVol) : gv (updGv s n f) n = f (gv s n) :=
  Tab.get_put_same ({} : GalVol) s.galv n _

theorem gv_updGv_ne (s : State) {n m : Nat} (h : m ≠ n) (f : GalVol → GalVol) : gv (updGv s n f) m = gv s m :=
  Tab.get_put_ne ({} : GalVol) s.galv h _

theorem gv_of_galv {s t : State} (h : t.galv = s.galv) (n : Nat) : gv t n = gv s n := by rw [gv, h, gv]

/-! ### Vectors and events -/

/-- A vector changes its pending bit or what leaves for the host. -/
theorem raiseOn_frame (s : State) (p : Half) (fn vec : Nat) : ∃ h o, raiseOn s p fn vec = { s with hst := h, out := o } := by
  unfold raiseOn
  dsimp only
  split
  · split
    · exact ⟨_, s.out, rfl⟩
    · exact ⟨s.hst, _, rfl⟩
  · exact ⟨s.hst, s.out, rfl⟩

theorem raise_frame (s : State) (fn vec : Nat) : ∃ h o, raise s fn vec = { s with hst := h, out := o } := by
  obtain ⟨h, o, e⟩ := raiseOn_frame s .cope fn vec
  obtain ⟨h', o', e'⟩ := raiseOn_frame (raiseOn s .cope fn vec) .drag fn vec
  exact ⟨h', o', by rw [raise, e', e]⟩

/-- The bits are set (R104); beside them a vector changes. -/
theorem galEvent_frame (s : State) (n : Nat) (b : BitVec 6) :
    ∃ h o, galEvent s n b = { updGv s n fun v => { v with event := v.event ||| b } with hst := h, out := o } := by
  unfold galEvent
  dsimp only
  split
  · exact ⟨s.hst, s.out, rfl⟩
  · exact raise_frame _ n 0

/-! ### A change of records -/

/-- Between `s` and `t` the records of gallery `n` became `x`, those of every other gallery stayed, and a change set event bit `i`
(R104). -/
def recordsSet (s t : State) (n : Nat) (x : Gal) (i : Nat) : Prop :=
  gal t n = x ∧ (∀ m, m ≠ n → gal t m = gal s m) ∧ (gal t n ≠ gal s n → (gv t n).event.getLsbD i = true)

theorem recordsSet_changed (s : State) (n : Nat) (x : Gal) {b : BitVec 6} {i : Nat} (hb : b.getLsbD i = true) :
    recordsSet s (changed s n x b) n x i := by
  unfold changed
  split
  · next h => exact ⟨h, fun _ _ => rfl, fun hne => absurd rfl hne⟩
  · obtain ⟨h, o, e⟩ := galEvent_frame (setGal s n x) n b
    rw [e]
    refine ⟨gal_setGal_same s n x, fun m hm => gal_setGal_ne s hm x, fun _ => ?_⟩
    change (gv (updGv (setGal s n x) n fun v => { v with event := v.event ||| b }) n).event.getLsbD i = true
    simp [hb]

theorem recordsSet_of_gals {s u t : State} (h : u.gals = s.gals) {n : Nat} {x : Gal} {i : Nat} (hr : recordsSet u t n x i) :
    recordsSet s t n x i := by
  simpa only [recordsSet, gal_of_gals h] using hr

/-! ### The placing of grants -/

/-- What the placing of grants may change (R86, R165): the galleries' volatile state but their event registers, and the lanes. -/
def onlyPlaced (s t : State) : Prop :=
  (∃ v l, t = { s with galv := v, lanes := l }) ∧ ∀ m, (gv t m).event = (gv s m).event

theorem onlyPlaced_refl (s : State) : onlyPlaced s s := ⟨⟨s.galv, s.lanes, rfl⟩, fun _ => rfl⟩

theorem onlyPlaced_trans {s t u : State} (h : onlyPlaced s t) (k : onlyPlaced t u) : onlyPlaced s u := by
  obtain ⟨⟨v, l, ht⟩, hev⟩ := h
  obtain ⟨⟨v', l', hu⟩, hev'⟩ := k
  exact ⟨⟨v', l', by rw [hu, ht]⟩, fun m => (hev' m).trans (hev m)⟩

theorem onlyPlaced_foldl {α : Type} (l : List α) {f : State → α → State} (hf : ∀ t a, onlyPlaced t (f t a)) (s : State) :
    onlyPlaced s (l.foldl f s) :=
  List.foldlRecOn l f (onlyPlaced_refl s) fun t ht a _ => onlyPlaced_trans ht (hf t a)

theorem onlyPlaced_updGv (s : State) (n : Nat) {f : GalVol → GalVol} (hf : ∀ v, (f v).event = v.event) :
    onlyPlaced s (updGv s n f) := by
  refine ⟨⟨_, s.lanes, rfl⟩, fun m => ?_⟩
  by_cases hm : m = n
  · subst hm
    rw [gv_updGv_same, hf]
  · rw [gv_updGv_ne s hm]

theorem loadEff_false (s : State) (n : Nat) :
    loadEff false s n = updGv s n fun v => { v with eff := ⟨placeUnits s .cope n, placeUnits s .drag n⟩ } := rfl

theorem onlyPlaced_loadEff (s : State) (n : Nat) : onlyPlaced s (loadEff false s n) :=
  loadEff_false s n ▸ onlyPlaced_updGv s n fun _ => rfl

theorem onlyPlaced_quenchTaken (s : State) (h : Half) : onlyPlaced s (quenchTaken s h) :=
  ⟨⟨s.galv, _, rfl⟩, fun _ => rfl⟩

theorem onlyPlaced_loadPools (s : State) (h : Half) : onlyPlaced s (loadPools s h) := by
  unfold loadPools
  dsimp only
  refine onlyPlaced_trans (onlyPlaced_foldl _ (fun t n => ?_) s) (onlyPlaced_quenchTaken _ h)
  exact onlyPlaced_updGv t n fun _ => rfl

theorem onlyPlaced_loadGrants (s : State) : onlyPlaced s (loadGrants s false) :=
  onlyPlaced_trans (onlyPlaced_trans (onlyPlaced_foldl _ onlyPlaced_loadEff s) (onlyPlaced_loadPools _ .cope))
    (onlyPlaced_loadPools _ .drag)

theorem gal_loadGrants (s : State) (n : Nat) : gal (loadGrants s false) n = gal s n := by
  obtain ⟨⟨v, l, e⟩, -⟩ := onlyPlaced_loadGrants s
  rw [e]
  rfl

theorem jobs_loadGrants (s : State) : (loadGrants s false).jobs = s.jobs := by
  obtain ⟨⟨v, l, e⟩, -⟩ := onlyPlaced_loadGrants s
  rw [e]

/-- A gallery is created (R91, R92): its records are `x`, those of every other gallery and all jobs stay. -/
theorem recordsCreated (s : State) (n : Nat) (x : Gal) (v : GalVol) :
    gal (loadGrants (setGv (setGal s n x) n v) false) n = x ∧
      (∀ m, m ≠ n → gal (loadGrants (setGv (setGal s n x) n v) false) m = gal s m) ∧
      (loadGrants (setGv (setGal s n x) n v) false).jobs = s.jobs := by
  simp only [gal_loadGrants, jobs_loadGrants]
  exact ⟨gal_setGal_same s n x, fun m hm => gal_setGal_ne s hm x, rfl⟩

theorem recordsSet_loadGrants {s t : State} {n : Nat} {x : Gal} {i : Nat} (h : recordsSet s t n x i) :
    recordsSet s (loadGrants t false) n x i := by
  unfold recordsSet
  simp only [gal_loadGrants, (onlyPlaced_loadGrants t).2]
  exact h

/-! ### The admin unit -/

/-- A completion changes completion queues and the admin unit alone. -/
theorem produceAdmin_frame (s : State) (c : AdminCmd) (h : Held) : ∃ x, produceAdmin s c h = { withoutAdm s c with cqs := x } := by
  unfold produceAdmin
  dsimp only
  split
  · obtain ⟨f, e⟩ := produce_eq_updCq (withoutAdm s c) (qkey c.gal c.sq) c.sqGen true h
    exact ⟨_, e⟩
  · split <;> exact ⟨_, rfl⟩

theorem gals_completeAdmin (s : State) (c : AdminCmd) (st : Status) (detail n : Nat) (b : Bytes) :
    (completeAdmin s c st detail n b).gals = s.gals := by
  obtain ⟨x, e⟩ := produceAdmin_frame s c _
  rw [completeAdmin, e]
  rfl

theorem mem_adm_of_admAt {s : State} {g q : Nat} {ph : AdmPhase} {c : AdminCmd} (h : admAt s g q ph = some c) :
    c ∈ s.adm ∧ c.phase = ph := by
  refine ⟨List.mem_of_find?_eq_some h, ?_⟩
  have hc := List.find?_some h
  simp only [Bool.and_eq_true, beq_iff_eq] at hc
  exact hc.2

theorem mem_adm_updAdm {s : State} {c : AdminCmd} (h : c ∈ s.adm) (f : AdminCmd → AdminCmd) : f c ∈ (updAdm s c f).adm :=
  List.mem_map.2 ⟨c, h, if_pos rfl⟩

theorem carriesOn_keepRunning {s : State} {c x : AdminCmd} (hx : x ∈ s.adm) (hseq : x.seq = c.seq) (he : x.entry = c.entry) :
    carriesOn (keepRunning s c) c :=
  ⟨{ x with phase := .running }, List.mem_map.2 ⟨x, hx, if_pos hseq⟩, hseq, rfl, he⟩

/-- A row's meaning runs when its command passes the shared checks. -/
theorem runAdmin_of_admRuns {s : State} {g : Gallery} {q : QIndex} {op : Nat} {c : AdminCmd} {r : AdmRow}
    (f : State → AdminCmd → State) (hrow : admRow op = some r) (h : admRuns s g q op c) : runAdmin s g q op f = f s c := by
  obtain ⟨hat, hop, hunread, hwin, hchecks, hses, hpour⟩ := h
  obtain ⟨hclean, hcur, hres⟩ := hchecks r hrow
  rw [runAdmin_of_turn f hat hop hunread hwin hrow, if_neg (by simp [hclean]), if_neg fun x => x.2 (hcur x.1),
    if_neg fun x => by simp [hses x.1 x.2.1] at x, if_neg fun x => x.2.2 (hpour x.1 x.2.1), if_neg fun x => by simp [hres x.1] at x]

/-- Entries of a queue that are not confirmed leave; records and confirmed commands stay (R138). -/
theorem gals_dropUnread (s : State) (k : Nat) : (dropUnread s k).gals = s.gals := rfl

theorem gals_foldl_dropUnread (l : List Nat) (s : State) : (l.foldl dropUnread s).gals = s.gals :=
  List.foldlRecOn (motive := fun t => t.gals = s.gals) l dropUnread rfl fun t ht k _ => (gals_dropUnread t k).trans ht

theorem mem_adm_foldl_dropUnread (l : List Nat) {s : State} {c : AdminCmd} (hc : c ∈ s.adm) (hp : c.phase = .confirmed) :
    c ∈ (l.foldl dropUnread s).adm :=
  List.foldlRecOn (motive := fun t => c ∈ t.adm) l dropUnread hc fun _ ht _ _ => List.mem_filter.2 ⟨ht, by simp [hp]⟩

/-! ### Ceremonies -/

theorem gals_endCeremony (s : State) (k : Nat) : (endCeremony s k).gals = s.gals := by
  unfold endCeremony
  split
  · rfl
  · dsimp only
    refine List.foldlRecOn (motive := fun t : State => t.gals = s.gals) _ _ rfl fun t ht a _ => ?_
    exact (gals_completeAdmin t a .notAuthorised 0 0 []).trans ht

theorem gals_useCer (s : State) (g ref purpose n : Nat) : (useCer s g ref purpose n).2.2.gals = s.gals := by
  unfold useCer
  split
  · rfl
  · split
    · dsimp only
      split
      · exact gals_endCeremony _ _
      · rfl
    · rfl

/-- A ceremony that does not authorise is not used. -/
theorem useCer_of_refused {s : State} {g ref purpose n : Nat} (h : (useCer s g ref purpose n).1 = false) :
    (useCer s g ref purpose n).2.2 = s := by
  revert h
  unfold useCer
  split
  · exact fun _ => rfl
  · split
    · exact fun h => absurd h (by simp)
    · exact fun _ => rfl

/-! ### Gallery commands -/

section
variable {s : State} {g : Gallery} {q : QIndex} {op : Nat} {r : AdmRow} {c : AdminCmd} {i : Instr} {f : AdminCmd → State → State}

/-- The Curator's gallery command whose turn it is runs (R89). -/
theorem exec_galCmd_of_turn (hi : exec i s = .next (runAdmin s g q op fun s c => galCmd s c (f c))) (hrow : admRow op = some r)
    (hr : admRuns s g q op c) (ht : firstOf s (fun x => x.gal = 0 && 0x10 ≤ x.op && x.op ≤ 0x17) c = true) :
    exec i s = .next (f c s) := by
  rw [hi, runAdmin_of_admRuns _ hrow hr, galCmd, if_pos ht]

theorem exec_galCmd_of_notTurn (hi : exec i s = .next (runAdmin s g q op fun s c => galCmd s c (f c))) (hrow : admRow op = some r)
    (hr : admRuns s g q op c) (ht : firstOf s (fun x => x.gal = 0 && 0x10 ≤ x.op && x.op ≤ 0x17) c = false) :
    exec i s = .next s := by
  rw [hi, runAdmin_of_admRuns _ hrow hr, galCmd, if_neg (by simp [ht])]

end

/-- Step 1 of R94: gallery `n` is CLOSING; the entries of its queues and its programs' jobs that are not confirmed leave. -/
def closingBegun (s : State) (n : Nat) : State :=
  let s := updGal s n fun x => { x with state := .closing }
  let s := (sqsOf s n).foldl dropUnread s
  { s with jobs := s.jobs.filter fun j => !(j.gal = n && j.origin != .queue && (j.unconfirmed || j.phase == .redo)) }

theorem gals_closingBegun (s : State) (n : Nat) : (closingBegun s n).gals = (updGal s n fun x => { x with state := .closing }).gals :=
  gals_foldl_dropUnread _ _

theorem mem_adm_closingBegun {s : State} {c : AdminCmd} (hc : c ∈ s.adm) (hp : c.phase = .confirmed) (n : Nat) :
    c ∈ (closingBegun s n).adm :=
  mem_adm_foldl_dropUnread _ (s := updGal s n fun x => { x with state := .closing }) hc hp

section
variable {s : State} {g : Gallery} {q : QIndex} {c : AdminCmd}

theorem exec_galleryDestroy_of_turn (hr : admRuns s g q 0x11 c)
    (ht : firstOf s (fun x => x.gal = 0 && 0x10 ≤ x.op && x.op ≤ 0x17) c = true) :
    exec (.galleryDestroy g q) s = .next (
      if c.p 0 1 = 0 || (gal s (c.p 0 1)).state != .active then fails s c .badInput
      else keepRunning (updAdm (closingBegun s (c.p 0 1)) c fun x => { x with mark := 0 }) c) := by
  rw [exec_galCmd_of_turn rfl rfl hr ht]
  rfl

end

@[simp] theorem units_withFlags (x : Gal) (f : Nat) : (withFlags x f).units = x.units := rfl

/-- Settles O52: the Curator's rows wait for their turn (`exec_galCmd_of_notTurn`); in their turn each clause is one branch of the
row's checks, taken in their order, or the change of records that the last branch makes. -/
theorem galleryCommands : Obligations.GalleryCommands := by
  unfold Obligations.GalleryCommands
  intro s g q c ok key
  dsimp only
  refine ⟨fun ht e he hr => ?notTurn, fun ht => ⟨fun hr hn => ?create, fun hr => ?destroy, fun hr => ?setShare, fun hr => ?setLimits,
    fun hr => ?setFlags, fun hr hslot hact hlo hhi => ?bindAuthority, fun hr => ?poolQuery⟩, fun hr => ?query⟩
  case notTurn =>
    simp only [List.mem_cons, List.not_mem_nil, or_false] at he
    rcases he with rfl | rfl | rfl | rfl | rfl | rfl | rfl <;> exact exec_galCmd_of_notTurn rfl rfl hr ht
  case create =>
    have e : exec (.galleryCreate g q) s = _ := exec_galCmd_of_turn rfl rfl hr ht
    dsimp only at e
    refine ⟨fun h => by rw [e, if_pos (by rcases h with h | h | h | h <;> simp [h])], fun hst hc hd hl => ?_⟩
    rw [if_neg (by simp [hn, hst, hc, hd, hl])] at e
    refine ⟨fun hcl => by rw [e, if_pos (by simp [hcl])], fun hfree => ?_⟩
    rw [if_neg (by simp [hfree])] at e
    refine ⟨fun hf => by rw [e, if_pos hf], fun hf => ?_⟩
    rw [if_neg (by simp [hf])] at e
    refine ⟨fun h => by rw [e, if_pos (by simpa using h)], fun hm hb hu => ?_, fun hm hb hu => ?_⟩
    · rw [e, if_neg (by simp [hm, hb]), if_pos (by simp [hu])]
    · rw [if_neg (by simp [hm, hb]), if_neg (by simp [hu])] at e
      exact ⟨_, e, recordsCreated s _ _ _⟩
  case destroy =>
    have e := exec_galleryDestroy_of_turn hr ht
    refine ⟨fun h => by rw [e, if_pos (by simpa using h)], fun hn hact => ?_⟩
    rw [if_neg (by simp [hn, hact])] at e
    obtain ⟨hmem, hph⟩ := mem_adm_of_admAt hr.1
    refine ⟨_, e, carriesOn_keepRunning (mem_adm_updAdm (mem_adm_closingBegun hmem hph _) _) rfl rfl, ?_, fun m hm => ?_⟩
    · exact (gal_of_gals (gals_closingBegun s _) _).trans (gal_setGal_same s _ _)
    · exact (gal_of_gals (gals_closingBegun s _) m).trans (gal_setGal_ne s hm _)
  case setShare =>
    have e : exec (.gallerySetShare g q) s = _ := exec_galCmd_of_turn rfl rfl hr ht
    dsimp only at e
    refine ⟨fun h => by rw [e, if_pos (by simpa [or_assoc] using h)], fun hact hc hd => ?_⟩
    rw [if_neg (by simp [hact, hc, hd])] at e
    refine ⟨fun hb => by rw [e, if_pos (by simp [hb])], fun hb hu => ?_, fun hb hu => ?_⟩
    · rw [e, if_neg (by simp [hb]), if_pos (by simp [hu])]
    · rw [if_neg (by simp [hb]), if_neg (by simp [hu])] at e
      exact ⟨_, e, recordsSet_loadGrants (recordsSet_changed s _ _ rfl)⟩
  case setLimits =>
    have e : exec (.gallerySetLimits g q) s = _ := exec_galCmd_of_turn rfl rfl hr ht
    dsimp only at e
    refine ⟨fun h => by rw [e, if_pos (by simpa using h)], fun hact hl => ?_⟩
    rw [hl, if_neg (by simp [hact])] at e
    refine ⟨fun hb => by rw [e, if_pos (by simp [hb])], fun hb => ?_⟩
    rw [if_neg (by simp [hb])] at e
    exact ⟨_, e, recordsSet_changed s _ _ rfl⟩
  case setFlags =>
    have e : exec (.gallerySetFlags g q) s = _ := exec_galCmd_of_turn rfl rfl hr ht
    dsimp only at e
    refine ⟨fun h => by rw [e, if_pos (by simpa using h)], fun hact => ?_⟩
    rw [if_neg (by simp [hact])] at e
    refine ⟨fun hf => by rw [e, if_pos hf], fun hf => ?_⟩
    rw [if_neg (by simp [hf])] at e
    obtain ⟨hx, hkept, hev⟩ := recordsSet_changed s (c.p 0 1) (withFlags (gal s (c.p 0 1)) (c.p 1 1)) (b := 0b10) (i := 1) rfl
    exact ⟨_, e, hkept, hev, hx⟩
  case bindAuthority =>
    have e : exec (.galleryBindAuthority g q key) s = _ := exec_galCmd_of_turn rfl rfl hr ht
    dsimp only at e
    rw [if_neg (by simp [hslot]), if_neg (by simp [hact]; omega)] at e
    have href := @useCer_of_refused s c.gal (c.p 10 4) 1 (c.p 0 1)
    have hgals := gals_useCer s c.gal (c.p 10 4) 1 (c.p 0 1)
    rcases hu : useCer s c.gal (c.p 10 4) 1 (c.p 0 1) with ⟨authorised, secret, u⟩
    rw [hu] at e href hgals
    dsimp only at e href hgals ⊢
    refine ⟨fun h => by rw [e, if_pos (by simp [h]), href h], fun h => ⟨u, hgals, fun hk => ?_, fun b hk => ?_⟩⟩
    · rw [e, if_neg (by simp [h]), hk]; rfl
    · subst hk
      rw [if_neg (by simp [h])] at e
      refine ⟨_, e, ?_⟩
      rw [withRead]
      generalize padTo (if c.p 1 1 = 1 then 97 else 2592) b = k
      split
      · next hp => rw [if_pos (by simpa using hp)]
      · next hp =>
        rw [if_neg (by simpa using hp), gal_of_gals hgals]
        exact ⟨_, rfl, recordsSet_of_gals hgals (recordsSet_changed u _ _ rfl)⟩
  case poolQuery => rw [exec_galCmd_of_turn rfl rfl hr ht]
  case query =>
    have e : exec (.galleryQuery g q ok) s = _ := congrArg Host.Outcome.next (runAdmin_of_admRuns _ rfl hr)
    dsimp only at e
    refine ⟨fun hc hn => by rw [e, if_pos (by simp [hc, hn])], fun hc hno => ?_, fun hown hmay => ?_⟩
    · rw [e, if_neg (by simp [hc]), if_pos hc, galCmd, if_neg (by simp [hno])]
    · have hpage : exec (.galleryQuery g q ok) s = .next (
          if c.p 0 1 ≠ 0 && (gal s (c.p 0 1)).state != .active then fails s c .badInput else queryPage s c ok (c.p 0 1)) := by
        by_cases hc : c.gal = 0
        · rw [e, if_neg (by simp [hc]), if_pos hc, galCmd, if_pos (hmay.resolve_left (absurd hc))]
        · rw [e, if_neg (by simp [hown.resolve_left hc]), if_neg hc]
      exact ⟨fun hn hst => by rw [hpage, if_pos (by simp [hn, hst])],
        fun h => by rw [hpage, if_neg (by rcases h with h | h <;> simp [h])]⟩

/-! ### The mailbox -/

theorem raiseMbx_frame (s : State) : ∃ h o, raiseMbx s = { s with hst := h, out := o } := by
  unfold raiseMbx
  split
  · exact ⟨s.hst, s.out, rfl⟩
  · exact raise_frame s 0 1

theorem getLsbD_setBit_same {n : Nat} (v : BitVec n) {i : Nat} (h : i < n) : (setBit v i true).getLsbD i = true := by
  rw [setBit, if_pos rfl, BitVec.getLsbD_or, BitVec.getLsbD_ofNat, Nat.testBit_two_pow_self]
  simp [h]

theorem gv_updMbx_same (s : State) (n : Nat) (f : Mailbox → Mailbox) :
    gv (updMbx s n f) n = { gv s n with mbx := f (gv s n).mbx } := gv_updGv_same s n _

theorem mbx_of_galv_updMbx {s t : State} {n : Nat} (f : Mailbox → Mailbox) (h : t.galv = (updMbx s n f).galv) :
    (gv t n).mbx = f (gv s n).mbx := by
  rw [gv_of_galv h, gv_updMbx_same]

theorem gv_eventAtWindow_same (s : State) (n : Nat) (b : BitVec 6) :
    gv (eventAtWindow s n b) n = { gv s n with eventDue := (gv s n).eventDue ||| b } := gv_updGv_same s n _

/-- The Curator's doorbells change the gallery's volatile state alone. -/
theorem eventAtWindow_updMbx_frame (s : State) (n : Nat) (f : Mailbox → Mailbox) (b : BitVec 6) :
    ∃ v, eventAtWindow (updMbx s n f) n b = { s with galv := v } := ⟨_, rfl⟩

theorem hasMbx_of_active {s : State} {n : Nat} (hn : n ≠ 0) (h : (gal s n).state = .active) : hasMbx s n = true := by
  simp [hasMbx, hn, h]

/-! What the four doorbells of a mailbox do, each while its bit is one way and the other (R99, R100). -/

theorem mbxGalleryAck_of_clear {s : State} {n : Nat} (h : (gv s n).mbx.full = false) : mbxGalleryAck s n = s := by
  simp [mbxGalleryAck, h]

theorem mbxCuratorAck_of_clear {s : State} (h : (gv s s.mbxSel.toNat).mbx.busy = false) : mbxCuratorAck s = s := by
  simp [mbxCuratorAck, h]

theorem mbxInRing_of_ignored {s : State}
    (h : (gv s s.mbxSel.toNat).mbx.full = true ∨ 2032 < (gv s s.mbxSel.toNat).mbx.inLen.toNat) : mbxInRing s = s := by
  rcases h with h | h <;> simp [mbxInRing, h]

theorem mbxOutRing_of_ignored {s : State} {n : Nat} (h : (gv s n).mbx.busy = true ∨ 2032 < (gv s n).mbx.outLen.toNat) :
    mbxOutRing s n = s := by
  rcases h with h | h <;> simp [mbxOutRing, h]

section
variable {s : State} {n : Nat} (hm : hasMbx s n = true)
include hm

theorem mbxOutRing_of_ready (hb : (gv s n).mbx.busy = false) (hl : (gv s n).mbx.outLen.toNat ≤ 2032) :
    ∃ h o, mbxOutRing s n =
      { updMbx s n fun m => { m with busy := true } with mbxPending := setBit s.mbxPending n true, hst := h, out := o } := by
  rw [mbxOutRing, if_neg (by simp [hm, hb, hl])]
  exact raiseMbx_frame _

theorem mbxGalleryAck_of_full (h : (gv s n).mbx.full = true) :
    ∃ x o, mbxGalleryAck s n =
      { updMbx s n fun m => { m with full := false } with mbxAcked := setBit s.mbxAcked n true, hst := x, out := o } := by
  rw [mbxGalleryAck, if_neg (by simp [hm, h])]
  exact raiseMbx_frame _

/-- While BUSY is 1 the gallery's writes to its outgoing side are ignored (R100). -/
theorem mbxWrite_of_busy (hb : (gv s n).mbx.busy = true) {o : Nat} (ho : o < 0x7F8) (v : Word) : mbxWrite s n o v = s := by
  have hring := mbxOutRing_of_ignored (.inl hb)
  have hack : o ≠ 0xFF4 := by omega
  simp [mbxWrite, hm, hb, hring, hack]

end

section
variable {s : State} (hm : hasMbx s s.mbxSel.toNat = true)
include hm

theorem mbxCuratorAck_of_busy (h : (gv s s.mbxSel.toNat).mbx.busy = true) :
    mbxCuratorAck s =
      eventAtWindow (updMbx s s.mbxSel.toNat fun m => { m with busy := false }) s.mbxSel.toNat 0b100000 := by
  rw [mbxCuratorAck, if_neg (by simp [hm, h])]

theorem mbxInRing_of_ready (hf : (gv s s.mbxSel.toNat).mbx.full = false) (hl : (gv s s.mbxSel.toNat).mbx.inLen.toNat ≤ 2032) :
    mbxInRing s = eventAtWindow (updMbx s s.mbxSel.toNat fun m => { m with full := true }) s.mbxSel.toNat 0b10000 := by
  rw [mbxInRing, if_neg (by simp [hm, hf, hl])]

/-- While FULL is 1 the Curator's writes to the incoming side are ignored (R100). -/
theorem apertureWrite_of_full (hf : (gv s s.mbxSel.toNat).mbx.full = true) {o : Nat} (ho : 0x800 ≤ o) (v : Word) :
    apertureWrite s o v = s := by
  have hring := mbxInRing_of_ignored (.inl hf)
  have hack : o ≠ 0x7F4 := by omega
  simp [apertureWrite, hm, hf, hring, hack]

end

/-! ### Accesses to BAR0 -/

section
variable {s : State} {port : Half} {g : Gallery}

theorem windowOpen_of_takesAccess {fn : Nat} (h : takesAccess s port fn) : windowOpen s port fn = true := by
  obtain ⟨-, -, hflr⟩ := h
  simp [windowOpen, hflr]

theorem barOpen_of_takesAccess {fn : Nat} (h : takesAccess s port fn) (off : Nat) : barOpen s port fn off = true := by
  have hopen := windowOpen_of_takesAccess h
  obtain ⟨hoff, hrec, -⟩ := h
  simp [barOpen, hoff, hrec, hopen]

/-- A write to BAR0 reaches the registers (R19, R561). -/
theorem exec_registerWrite_bar0 (h : takesAccess s port g.toNat) (off : BitVec 21) (v : Word) :
    exec (.registerWrite port g (.bar0 off) v) s = .next (barWrite s g.toNat off v) := by
  change execRegisterWrite port g (.bar0 off) v s = _
  rw [execRegisterWrite, if_neg (by simp [h.1, windowOpen_of_takesAccess h]), cfgWrite, if_pos (barOpen_of_takesAccess h _)]

theorem exec_mbxOutRing (h : takesAccess s port g.toNat) : exec (.mbxOutRing port g) s = .next (mbxOutRing s g.toNat) := by
  change execMbxOutRing port g s = _
  rw [execMbxOutRing, if_pos (windowOpen_of_takesAccess h)]

theorem exec_mbxGalleryAck (h : takesAccess s port g.toNat) :
    exec (.mbxGalleryAck port g) s = .next (mbxGalleryAck s g.toNat) := by
  change execMbxGalleryAck port g s = _
  rw [execMbxGalleryAck, if_pos (windowOpen_of_takesAccess h)]

theorem exec_mbxCuratorAck (h : takesAccess s port 0) : exec (.mbxCuratorAck port) s = .next (mbxCuratorAck s) := by
  change execMbxCuratorAck port s = _
  rw [execMbxCuratorAck, if_pos (windowOpen_of_takesAccess h)]

theorem exec_mbxInRing (h : takesAccess s port 0) : exec (.mbxInRing port) s = .next (mbxInRing s) := by
  change execMbxInRing port s = _
  rw [execMbxInRing, if_pos (windowOpen_of_takesAccess h)]

end

theorem inRanges_of_mem {l : List (Nat × Nat)} {r : Nat × Nat} {o : Nat} (h : r ∈ l) (hlo : r.1 ≤ o) (hhi : o ≤ r.2) :
    inRanges l o = true :=
  List.any_eq_true.2 ⟨r, h, by simp [hlo, hhi]⟩

/-- The outgoing side stands at 0x1000 of a gallery's window. -/
theorem barWrite_mbxOut (s : State) {n : Nat} (hn : n ≠ 0) {off : BitVec 21} (hlo : 0x1000 ≤ off.toNat) (hhi : off.toNat < 0x17F8)
    (v : Word) (hst : (gal s n).state ≠ .free) : barWrite s n off v = mbxWrite s n (off.toNat % 0x1000) v := by
  have hass : assignedAt n off.toNat = true := by
    rw [assignedAt, if_pos hn]
    exact inRanges_of_mem (r := (0x1000, 0x17F4)) (by simp [assignedRanges]) (by dsimp only; omega) (by dsimp only; omega)
  rw [barWrite, if_neg (by simp [hass]), if_pos hn, galleryWrite, if_neg (by simp; omega), if_neg (by simp [hst]), if_neg (by omega),
    if_neg (by simp; omega), if_neg (by omega), if_pos (by simp; omega)]

/-- The incoming side stands at 0xF8800 of the physical function, in the Curator's aperture. -/
theorem barWrite_mbxIn (s : State) {off : BitVec 21} (hlo : 0xF8800 ≤ off.toNat) (hhi : off.toNat < 0xF8FF8) (v : Word) :
    barWrite s 0 off v = apertureWrite s (off.toNat % 65536 % 0x1000) v := by
  have hwin : off.toNat / 65536 = 0xF := by omega
  have hass : assignedAt 0 off.toNat = true := by
    rw [assignedAt, if_neg (by simp), hwin]
    exact inRanges_of_mem (r := (0x8800, 0x8FF4)) (by simp [assignedRanges]) (by dsimp only; omega) (by dsimp only; omega)
  rw [barWrite, if_neg (by simp [hass]), if_neg (by simp), hwin]
  change galWinWrite s (off.toNat % 65536) v = _
  rw [galWinWrite, if_neg (by simp; omega), if_neg (by omega), if_neg (by simp; omega), if_pos (by simp; omega)]

/-- Settles O16: each clause is one doorbell of the mailbox with its bit one way or the other, or a write to BAR0 that reaches the
side whose bit stands. -/
theorem mailboxHandshake : Obligations.MailboxHandshake := by
  unfold Obligations.MailboxHandshake
  intro s port g off v hg h0 hne hact hsel
  subst hsel
  have hn : s.mbxSel.toNat ≠ 0 := fun h => hne (BitVec.toNat_inj.1 h)
  have hm := hasMbx_of_active hn hact
  dsimp only
  refine ⟨fun hb hl => ?outRing, fun h => ?outIgnored, fun hb => ?curatorAck, fun hb => ?curatorIgnored, fun hf hl => ?inRing,
    fun h => ?inIgnored, fun hf => ?galleryAck, fun hf => ?galleryIgnored, fun hb hlo hhi => ?outWrite, fun hf hlo hhi => ?inWrite⟩
  case outRing =>
    obtain ⟨x, o, e⟩ := mbxOutRing_of_ready hm hb hl
    rw [exec_mbxOutRing hg, e]
    exact ⟨_, rfl, mbx_of_galv_updMbx (fun m => { m with busy := true }) rfl, getLsbD_setBit_same _ s.mbxSel.isLt, rfl, rfl, rfl, rfl⟩
  case outIgnored => rw [exec_mbxOutRing hg, mbxOutRing_of_ignored h]
  case curatorAck =>
    obtain ⟨x, e⟩ := eventAtWindow_updMbx_frame s s.mbxSel.toNat (fun m => { m with busy := false }) 0b100000
    rw [exec_mbxCuratorAck h0, mbxCuratorAck_of_busy hm hb]
    refine ⟨_, rfl, ?_, ?_, ?_, by rw [e]⟩ <;> simp [gv_eventAtWindow_same, gv_updMbx_same]
  case curatorIgnored => rw [exec_mbxCuratorAck h0, mbxCuratorAck_of_clear hb]
  case inRing =>
    obtain ⟨x, e⟩ := eventAtWindow_updMbx_frame s s.mbxSel.toNat (fun m => { m with full := true }) 0b10000
    rw [exec_mbxInRing h0, mbxInRing_of_ready hm hf hl]
    refine ⟨_, rfl, ?_, ?_, by rw [e]⟩ <;> simp [gv_eventAtWindow_same, gv_updMbx_same]
  case inIgnored => rw [exec_mbxInRing h0, mbxInRing_of_ignored h]
  case galleryAck =>
    obtain ⟨x, o, e⟩ := mbxGalleryAck_of_full hm hf
    rw [exec_mbxGalleryAck hg, e]
    exact ⟨_, rfl, mbx_of_galv_updMbx (fun m => { m with full := false }) rfl, getLsbD_setBit_same _ s.mbxSel.isLt⟩
  case galleryIgnored => rw [exec_mbxGalleryAck hg, mbxGalleryAck_of_clear hf]
  case outWrite =>
    rw [exec_registerWrite_bar0 hg, barWrite_mbxOut s hn hlo hhi v (by simp [hact]), mbxWrite_of_busy hm hb (by omega)]
  case inWrite =>
    rw [exec_registerWrite_bar0 (g := 0) h0]
    exact congrArg Host.Outcome.next ((barWrite_mbxIn s hlo hhi v).trans (apertureWrite_of_full hm hf (by omega) v))

end Sys2Proof.Machine

/-!
PROOFS. Patterns (R147, R174, R187, R220, R246): what a Pattern row leaves on the job that it names and in the rest of the
state, the function that each row applies to the job's step, and what the diagnostic Patterns and HASH give.
-/
namespace Sys2Proof.Machine

/-! ### A job of the state -/

theorem id_of_job {s : State} {id : Nat} {j : Job} (h : job s id = some j) : j.id = id := by
  simpa using List.find?_some h

/-- A change that leaves the jobs' numbers reaches the job that carries the number and no other. -/
theorem job_updJob (s : State) (id : Nat) {f : Job → Job} (hf : ∀ j, (f j).id = j.id) (id' : Nat) :
    job (updJob s id f) id' = (job s id').map fun j => if j.id = id then f j else j := by
  have hid : ((·.id == id') ∘ fun j => if j.id = id then f j else j) = fun j : Job => j.id == id' := by
    funext j
    by_cases h : j.id = id <;> simp [h, hf]
  simp only [job, updJob, List.find?_map, hid]

theorem job_updJob_same {s : State} {id : Nat} {j : Job} (h : job s id = some j) {f : Job → Job} (hf : ∀ j, (f j).id = j.id) :
    job (updJob s id f) id = some (f j) := by
  simp [job_updJob s id hf, h, id_of_job h]

theorem job_updJob_ne (s : State) {id id' : Nat} (hne : id' ≠ id) {f : Job → Job} (hf : ∀ j, (f j).id = j.id) :
    job (updJob s id f) id' = job s id' := by
  rw [job_updJob s id hf]
  cases h : job s id' with
  | none => rfl
  | some j => simp [id_of_job h, hne]

/-! ### What a Pattern row does (R147) -/

/-- The result `r` is held on job `id`. -/
def withResult (s : State) (id : Nat) (r : JobResult) : State := updJob s id fun j => { j with computed := some r }

theorem job_withResult_same {s : State} {id : Nat} {j : Job} (h : job s id = some j) (r : JobResult) :
    job (withResult s id r) id = some { j with computed := some r } := job_updJob_same h fun _ => rfl

theorem job_withResult_ne (s : State) {id id' : Nat} (hne : id' ≠ id) (r : JobResult) :
    job (withResult s id r) id' = job s id' := job_updJob_ne s hne fun _ => rfl

section
variable {s : State} {id n : Nat} {j : Job}

theorem phase_of_computes (hc : computes s j n = true) : j.phase = .confirmed := by
  simp only [computes, Bool.and_eq_true, beq_iff_eq] at hc
  obtain ⟨⟨hp, -⟩, -⟩ := hc
  exact hp

theorem pat_of_computes (hc : computes s j n = true) : j.pat = n := by
  simp only [computes, Bool.and_eq_true, decide_eq_true_eq] at hc
  obtain ⟨⟨-, hn⟩, -⟩ := hc
  exact hn

theorem computePat_of_computes (hj : job s id = some j) (hc : computes s j n = true) (f : Px → Booking → Nat → JobResult) :
    computePat s id n f = bump (withResult s id (stepWith s j f)) := by
  simp only [computePat, hj, hc, if_true, withResult]

theorem computePat_of_not_computes (hj : job s id = some j) (hc : computes s j n = false) (f : Px → Booking → Nat → JobResult) :
    computePat s id n f = s := by
  simp [computePat, hj, hc]

/-- A Cupola row outside the operation on its unit is the lane part in the booked slot. -/
theorem cupolaCompute_of_not_cupola (hj : job s id = some j) (hp : j.phase ≠ .cupola) :
    cupolaCompute s id n = computePat s id n (patFn n) := by
  simp [cupolaCompute, hj, hp]

/-- The operation on its unit, behind intake, leaves its result on the job. -/
theorem cupolaCompute_of_running (hj : job s id = some j) (hp : j.phase = .cupola) (hn : j.pat = n) {o : CupOp} {r : JobResult}
    (ho : (((s.cup.units.get j.half).filterMap fun u => if u.mask then u.op else none).find? fun o => o.job = some id) = some o)
    (hr : opResult s j o = some r) : cupolaCompute s id n = withResult s id r := by
  simp [cupolaCompute, hj, hp, hn, ho, hr, withResult]

end

/-- What the row of Pattern `n` applies to the job's step; LANE_CHECK's row brings the units that pass. -/
def rowFn (units : Byte) (n : Nat) : Px → Booking → Nat → JobResult :=
  if n = 0x0F03 then patLaneCheck units else patFn n

theorem rowFn_of_ne (units : Byte) {n : Nat} (h : n ≠ 0x0F03) : rowFn units n = patFn n := if_neg h

/-- The state behind the row of Pattern `n`. -/
def patternRow (s : State) (id : Nat) (units : Byte) (n : Nat) : State :=
  if cupolaPat n then cupolaCompute s id n else computePat s id n (rowFn units n)

theorem patternRow_of_not_cupola {s : State} {id : Nat} {j : Job} (hj : job s id = some j) (hp : j.phase ≠ .cupola)
    (units : Byte) (n : Nat) : patternRow s id units n = computePat s id n (rowFn units n) := by
  unfold patternRow
  split
  next hn =>
    have hne : n ≠ 0x0F03 := fun h => by simp [h, cupolaPat] at hn
    rw [cupolaCompute_of_not_cupola hj hp, rowFn_of_ne units hne]
  next => rfl

theorem cupolaPat_of_range {n : Nat} (h : 0x0900 ≤ n ∧ n < 0x0A00 ∨ n = 0x0510) : cupolaPat n = true := by
  simp only [cupolaPat, Bool.or_eq_true, Bool.and_eq_true, decide_eq_true_eq]
  omega

/-! ### What a step gives (R123, R226) -/

/-- A verdict of the usage checker ends the step without an output, whatever its Pattern. -/
theorem stepWith_of_verdict {s : State} {j : Job} {st : Status} (h : j.step.verdict = some st)
    (f : Px → Booking → Nat → JobResult) : (stepWith s j f).status = st ∧ (stepWith s j f).output = [] := by
  simp [stepWith, h]

/-- Settles O34: each row is `patternRow` of its number; a computing job is `.confirmed`, so its row is the lane part, and the
operation on a Cupola unit is the other arm of `cupolaCompute`. -/
theorem patternRowsCompute : Obligations.PatternRowsCompute := by
  unfold Obligations.PatternRowsCompute
  intro s id j units hj i n hrow
  have hexec : exec i s = .next (patternRow s id units n) := by
    suffices h : ∀ p : Instr × Nat, p ∈ _ → exec p.1 s = .next (patternRow s id units p.2) from h (i, n) hrow
    -- one goal for each row, its number decided, which its arm of `exec` meets as it stands
    simp only [List.mem_cons, List.not_mem_nil, or_false, forall_eq_or_imp, forall_eq]
    simp only [patternRow, cupolaPat, rowFn, Bool.or_eq_true, Bool.and_eq_true, decide_eq_true_eq, Nat.reduceLeDiff, Nat.reduceEqDiff,
      Std.le_refl, and_true, and_false, or_true, or_self, ↓reduceIte]
    and_intros <;> rfl
  refine ⟨fun hc => ?computed, fun hc hp => ?untouched, fun hn hp hpat o r ho hr => ?onUnit⟩
  case computed =>
    have hp : j.phase ≠ .cupola := by simp [phase_of_computes hc]
    rw [hexec, patternRow_of_not_cupola hj hp, computePat_of_computes hj hc]
    exact ⟨_, _, rfl, rfl, rfl, job_withResult_same hj _, fun id' hne => job_withResult_ne s hne _,
      fun hne => by rw [rowFn_of_ne units hne], fun st hst => stepWith_of_verdict hst _⟩
  case untouched =>
    rw [hexec, patternRow_of_not_cupola hj hp, computePat_of_not_computes hj hc]
  case onUnit =>
    rw [hexec, patternRow, if_pos (cupolaPat_of_range hn), cupolaCompute_of_running hj hp hpat ho hr]
    exact ⟨_, rfl, rfl, job_withResult_same hj r⟩

/-! ### Steps without a key -/

/-- The diagnostic Patterns and HASH, which read no key. -/
def keyless (n : Nat) : Prop := n = 0x0F00 ∨ n = 0x0F01 ∨ n = 0x0F02 ∨ n = 0x0F03 ∨ n = 0x0800

theorem roles_of_keyless {r : Req} (h : keyless r.pat) : r.roles = [none, none, none] := by
  obtain h | h | h | h | h := h <;> simp [Req.roles, h, cipherMode]

theorem stepKeys_of_keyless (s : State) (j : Job) {r : Req} (h : keyless r.pat) : (stepKeys s j r).1 = none := by
  simp [stepKeys, roles_of_keyless h, resolveKey, nth]

/-- The execution of the job's current step. -/
def stepPx (s : State) (j : Job) : Px where
  s := s
  r := j.req
  r0 := (nth {} j.steps j.lead).req
  lead := j.lead
  a := (stepKeys s j j.req).2.1
  b := (stepKeys s j j.req).2.2
  ctx := j.ctx
  idx := j.cur
  chain := j.chain

theorem stepWith_of_runs {s : State} {j : Job} {b : Booking} (hb : j.book = some b) (hv : j.step.verdict = none)
    (hk : (stepKeys s j j.req).1 = none) (ha : j.alien = false) (f : Px → Booking → Nat → JobResult) :
    stepWith s j f = f (stepPx s j) b (laneOf s j) := by
  change (stepKeys s j j.step.req).1 = none at hk
  simp only [stepWith, hv, hk, ha, hb, stepPx, Job.req, Option.getD_some, Bool.false_eq_true, if_false]

/-- A keyless row holds on the job what its Pattern makes of the step. -/
theorem holds_of_keyless {s : State} {id n : Nat} {j : Job} {b : Booking} (hj : job s id = some j) (hb : j.book = some b)
    (hv : j.step.verdict = none) (ha : j.alien = false) (hn : keyless n) (hc : computes s j n = true) {i : Instr}
    {f : Px → Booking → Nat → JobResult} (hi : exec i s = .next (computePat s id n f)) {r : JobResult}
    (hr : f (stepPx s j) b (laneOf s j) = r) {P : JobResult → Prop} (hP : P r) :
    ∃ t j' v, exec i s = .next t ∧ job t id = some j' ∧ j'.computed = some v ∧ P v := by
  have hk : (stepKeys s j j.req).1 = none := stepKeys_of_keyless s j ((pat_of_computes hc).symm ▸ hn : keyless j.pat)
  rw [computePat_of_computes hj hc, stepWith_of_runs hb hv hk ha, hr] at hi
  exact ⟨_, _, _, hi, job_withResult_same hj _, rfl, hP⟩

/-! ### Byte strings -/

theorem length_slice (b : Bytes) (o n : Nat) : (slice b o n).length = n := by simp [slice, tabulate]

theorem length_le (n v : Nat) : (le n v).length = n := by
  induction n generalizing v with
  | zero => rfl
  | succ n ih => simp [le, ih]

/-- Short bytes keep their place before the padding. -/
theorem padTo_of_length {n k : Nat} {b : Bytes} (h : b.length + k = n) : padTo n b = b ++ zeros k := by
  subst h
  simp only [padTo, zeros, List.take_length_add_append, List.take_replicate, Nat.min_eq_left (Nat.le_add_left k b.length)]

/-! ### What the diagnostic Patterns and HASH give (R174, R180, R246) -/

theorem out_of_short {x : Px} {m : Bytes} (h : x.r.outCap < m.length) :
    x.out m = { status := .outputShort, need := m.length, ctx := x.ctx } := if_pos h

theorem out_of_fits {x : Px} {m : Bytes} (h : ¬x.r.outCap < m.length) : x.out m = { output := m, ctx := x.ctx } := if_neg h

theorem patEcho_inline {x : Px} (h : x.r.inHost = false) : patEcho x = { result := slice x.r.par 0 16, ctx := x.ctx } := by
  have hpad : padTo 16 (slice x.r.par 0 16) = slice x.r.par 0 16 ++ zeros 0 := padTo_of_length (by rw [length_slice])
  simp [patEcho, h, Px.res, hpad, zeros]

theorem patEcho_of_fits {x : Px} (h : x.r.inHost = true) (hf : x.r.inLen ≤ x.r.outCap) :
    patEcho x = { output := slice x.r.inp 0 x.r.inLen, ctx := x.ctx } :=
  (if_pos h).trans (out_of_fits (by simpa [length_slice] using hf))

theorem patEcho_of_short {x : Px} (h : x.r.inHost = true) (hs : x.r.outCap < x.r.inLen) :
    patEcho x = { status := .outputShort, need := x.r.inLen, ctx := x.ctx } := by
  have ho := out_of_short (x := x) (m := slice x.r.inp 0 x.r.inLen) (by simpa [length_slice] using hs)
  rw [length_slice] at ho
  exact (if_pos h).trans ho

theorem patTickStamp_result (x : Px) (bk : Booking) (lane : Nat) :
    (patTickStamp x bk lane).result = le 7 (tick x.s) ++ le 1 bk.first ++ le 2 lane ++ zeros 6 :=
  padTo_of_length (by simp [length_le])

theorem patLaneCheck_result (units : Byte) (x : Px) (bk : Booking) (lane : Nat) :
    (patLaneCheck units x bk lane).result = le 2 lane ++ le 1 (units.toNat &&& unitMask x.s lane) ++ zeros 13 :=
  padTo_of_length (by simp [length_le])

/-- An entry that begins and ends its message hashes its own data alone. -/
theorem patHash_of_whole {x : Px} (hb : x.begins = true) (hl : x.r.last = true) :
    patHash x = x.out (digest (x.r.p 0) (slice x.r.inp 0 (x.r.p2 2))) := by
  simp [patHash, hb, hl]

/-- Settles O35: each Pattern is keyless, so its row holds what the Pattern's equation above says of the step. -/
theorem diagnosticAndHashResults : Obligations.DiagnosticAndHashResults := by
  unfold Obligations.DiagnosticAndHashResults
  intro s id j b units hj hb hv ha r gives d
  have held {n : Nat} {i : Instr} {f : Px → Booking → Nat → JobResult} {v : JobResult} {P : JobResult → Prop} (hn : keyless n)
      (hc : computes s j n = true) (hi : exec i s = .next (computePat s id n f)) (hr : f (stepPx s j) b (laneOf s j) = v) (hP : P v) :
      gives i P := holds_of_keyless hj hb hv ha hn hc hi hr hP
  refine ⟨fun hc hin => ?echoInline, fun hc hin hfits => ?echoFits, fun hc hin hshort => ?echoShort, fun hc => ?null,
    fun hc => ?tickStamp, fun hc => ?laneCheck, fun hc hlead hlast => ?hash⟩
  case echoInline => exact held (by simp [keyless]) hc rfl (patEcho_inline hin) ⟨rfl, rfl, rfl⟩
  case echoFits => exact held (by simp [keyless]) hc rfl (patEcho_of_fits hin hfits) ⟨rfl, rfl⟩
  case echoShort => exact held (by simp [keyless]) hc rfl (patEcho_of_short hin hshort) ⟨rfl, rfl, rfl⟩
  case null => exact held (by simp [keyless]) hc rfl rfl ⟨rfl, rfl, rfl⟩
  case tickStamp => exact held (by simp [keyless]) hc rfl rfl ⟨rfl, patTickStamp_result ..⟩
  case laneCheck => exact held (by simp [keyless]) hc rfl rfl ⟨rfl, patLaneCheck_result ..⟩
  case hash =>
    refine held (by simp [keyless]) hc rfl (patHash_of_whole (decide_eq_true hlead) hlast) ?_
    split
    next h => rw [out_of_short h]; exact ⟨rfl, rfl⟩
    next h => rw [out_of_fits h]; exact ⟨rfl, rfl⟩

end Sys2Proof.Machine

/-!
PROOFS. Slot commands (R299 to R308, R313, R316): what the end of a job leaves standing, what a written record leaves in the banks,
when a slot command waits, is refused and runs, and what each row then does.
-/
namespace Sys2Proof.Machine

/-! ### What the end of a job leaves standing (R118, R274) -/

/-- The galleries' records, the Strongroom, and which queues exist, with a submission queue's generation and completion queue. -/
structure Standing where
  gals : Tab Gal
  srm : Strongroom
  sq : Nat → Bool × BitVec 4 × Nat
  cq : Nat → Bool

def standing (s : State) : Standing where
  gals := s.gals
  srm := s.srm
  sq k := ((sq s k).exist, (sq s k).gen, (sq s k).cq)
  cq k := (cq s k).exist

theorem queuePair_of_standing {s t : State} {k gen : Nat} (hq : (standing t).sq = (standing s).sq) (hc : (standing t).cq = (standing s).cq)
    (h : queuePair s k gen) : queuePair t k gen := by
  obtain ⟨hex, hgen, hcq⟩ := h
  have hk := congrFun hq k
  simp only [standing, Prod.mk.injEq] at hk
  obtain ⟨hexk, hgenk, hcqk⟩ := hk
  have hkey : cqKey t k = cqKey s k := by rw [cqKey, hcqk, cqKey]
  exact ⟨hexk.trans hex, hgenk.trans hgen, (congrFun hc _).trans (hkey ▸ hcq)⟩

theorem standing_foldl {α : Type} {f : State → α → State} (hf : ∀ t a, standing (f t a) = standing t) (l : List α) (s : State) :
    standing (l.foldl f s) = standing s :=
  List.foldlRecOn (motive := fun t => standing t = standing s) l f rfl fun t ht a _ => (hf t a).trans ht

theorem standing_updCq (s : State) (k : Nat) {f : Cq → Cq} (hf : ∀ c, (f c).exist = c.exist) : standing (updCq s k f) = standing s := by
  have hk : ∀ j, (cq (updCq s k f) j).exist = (cq s j).exist := fun j => by
    by_cases hj : j = k
    · subst hj
      rw [cq_updCq_same, hf]
    · exact congrArg Cq.exist (Tab.get_put_ne _ _ hj _)
  simpa only [standing, Standing.mk.injEq, true_and] using ⟨rfl, rfl, rfl, funext hk⟩

theorem standing_updSq (s : State) (k : Nat) {f : Sq → Sq} (hf : ∀ q, ((f q).exist, (f q).gen, (f q).cq) = (q.exist, q.gen, q.cq)) :
    standing (updSq s k f) = standing s := by
  have hk : ∀ j, (standing (updSq s k f)).sq j = (standing s).sq j := fun j => by
    by_cases hj : j = k
    · subst hj
      have e : sq (updSq s j f) j = f (sq s j) := Tab.get_put_same _ _ _ _
      simp only [standing, e, hf]
    · have e : sq (updSq s k f) j = sq s j := Tab.get_put_ne _ _ hj _
      simp only [standing, e]
  exact congrArg (fun g => { standing s with sq := g }) (funext hk)

@[simp] theorem standing_updJob (s : State) (id : Nat) (f : Job → Job) : standing (updJob s id f) = standing s := rfl

@[simp] theorem standing_dropJob (s : State) (id : Nat) : standing (dropJob s id) = standing s := rfl

@[simp] theorem standing_partWrite (s : State) (h : Half) (p : Program) (o : Nat) (b : Bytes) :
    standing (partWrite s h p o b) = standing s := rfl

@[simp] theorem standing_partWords (s : State) (h : Half) (g : Nat) : standing (partWords s h g) = standing s := by
  unfold partWords
  split
  · rfl
  · simp

@[simp] theorem standing_updProgram (s : State) (h : Half) (g : Nat) (f : Program → Program) :
    standing (updProgram s h g f) = standing s := rfl

@[simp] theorem standing_signalPart (s : State) (h : Half) : standing (signalPart s h) = standing s := rfl

@[simp] theorem standing_recLatency (s : State) (j : Job) (t : Nat) : standing (recLatency s j t) = standing s := by
  unfold recLatency updLive
  split
  · split <;> rfl
  · rfl

@[simp] theorem standing_sendAt (s : State) (t : Nat) (m : Bytes) : standing (sendAt s t m) = standing s := by
  unfold sendAt
  split <;> rfl

@[simp] theorem standing_updSpn (s : State) (f : Span → Span) : standing (updSpn s f) = standing s := rfl

@[simp] theorem standing_release (s : State) (k n : Nat) : standing (release s k n) = standing s := standing_updCq s k fun _ => rfl

@[simp] theorem standing_produce (s : State) (k : Nat) (gen : BitVec 4) (reserved : Bool) (h : Held) :
    standing (produce s k gen reserved h) = standing s := by
  unfold produce
  dsimp only
  split
  · exact standing_updCq s _ fun _ => rfl
  · exact standing_updCq s _ fun _ => rfl

@[simp] theorem standing_endBatches (s : State) (k t : Nat) : standing (endBatches s k t) = standing s := by
  unfold endBatches
  dsimp only
  refine (standing_updSq _ _ ?batches).trans ((standing_foldl ?hold _ _).trans (standing_foldl ?completion _ s))
  case batches => exact fun _ => rfl
  case hold => exact fun _ _ => rfl
  case completion =>
    intro u b
    split
    · exact standing_produce ..
    · rfl

theorem standing_completeJob (s : State) (id : Nat) (st : Status) (detail outCount : Nat) (result : Bytes)
    (outs : List (BitVec 64 × Bytes)) (fChain : Bool) (t : Nat) :
    standing (completeJob s id st detail outCount result outs fChain t) = standing s := by
  unfold completeJob
  cases job s id with
  | none => rfl
  | some j =>
    dsimp only
    generalize hu : (if st = .faultUnresolved && j.phase == .cupola then _ else s : State) = u
    have hs : standing u = standing s := by
      subst hu
      split <;> rfl
    split
    · rw [standing_endBatches]
      refine (standing_updSq _ _ ?batches).trans ?_
      case batches => exact fun _ => rfl
      rw [standing_updJob]
      split
      · rw [standing_release]
        split <;> simp [hs]
      · simp [hs]
    · simp [hs]

theorem standing_completePartner (s : State) (j : Job) (st : Status) (detail outCount : Nat) (result : Bytes)
    (outs : List (BitVec 64 × Bytes)) (t : Nat) : standing (completePartner s j st detail outCount result outs t) = standing s := by
  unfold completePartner
  dsimp only
  split <;> simp

theorem standing_completeInternal (s : State) (j : Job) (st : Status) (detail outCount : Nat) (result : Bytes)
    (outs : List (BitVec 64 × Bytes)) : standing (completeInternal s j st detail outCount result outs) = standing s := by
  unfold completeInternal
  split
  · rfl
  · simp only [standing_partWords, standing_signalPart, standing_dropJob, standing_recLatency, standing_updProgram, standing_partWrite]
    exact standing_foldl (fun t o => standing_partWrite t _ _ _ _) outs s

theorem standing_endJob (s : State) (id : Nat) (st : Status) (detail outCount : Nat) (result : Bytes)
    (outs : List (BitVec 64 × Bytes)) (t : Nat) : standing (endJob s id st detail outCount result outs t) = standing s := by
  unfold endJob
  cases job s id with
  | none => rfl
  | some j =>
    dsimp only
    cases j.origin with
    | queue => exact standing_completeJob ..
    | partner => exact standing_completePartner ..
    | program => exact standing_completeInternal ..

/-- Operations that read a changed slot are abandoned; their jobs end (R274). -/
theorem standing_abandonOps (s : State) (ns : List Nat) : standing (abandonOps s ns) = standing s :=
  standing_foldl (by exact fun t j => standing_endJob (stopOp t j) j.id _ _ _ _ _ _) _ s

/-! ### The map and the banks -/

section
variable {s t : State}

theorem mapEnt_of_map (h : t.srm.map = s.srm.map) (k : Nat) : mapEnt t k = mapEnt s k := by rw [mapEnt, h, mapEnt]

theorem slotSpan_of_map (h : t.srm.map = s.srm.map) (k : Nat) : slotSpan t k = slotSpan s k := by
  rw [slotSpan, mapEnt_of_map h, slotSpan]

theorem copyOf_of_bank (h : t.srm.bank = s.srm.bank) (b : Half) (k : Nat) : copyOf t b k = copyOf s b k := by rw [copyOf, h, copyOf]

end

theorem Two.get_map {α β : Type} (f : α → β) (x : Two α) (h : Half) : (x.map f).get h = f (x.get h) := by cases h <;> rfl

/-- A change of the counter area leaves the records of a bank, and which banks are available. -/
theorem bank_writeArea (s : State) (b : Nat) (f : CounterArea → CounterArea) (h : Half) :
    ∃ a, (writeArea s b f).srm.bank.get h = { s.srm.bank.get h with area := a } := by
  simp only [writeArea, Two.get_map]
  split
  · exact ⟨_, rfl⟩
  · exact ⟨_, rfl⟩

theorem copyOf_writeArea (s : State) (b : Nat) (f : CounterArea → CounterArea) (h : Half) (k : Nat) :
    copyOf (writeArea s b f) h k = copyOf s h k := by
  obtain ⟨a, e⟩ := bank_writeArea s b f h
  rw [copyOf, e, copyOf]

theorem available_writeArea (s : State) (b : Nat) (f : CounterArea → CounterArea) (h : Half) :
    ((writeArea s b f).srm.bank.get h).available = (s.srm.bank.get h).available := by
  obtain ⟨a, e⟩ := bank_writeArea s b f h
  rw [e]

theorem available_writeRec (s : State) (n : Nat) (r : Rec) (m : Bytes) (h : Half) :
    ((writeRec s n r m).srm.bank.get h).available = (s.srm.bank.get h).available := by
  simp only [writeRec, bump, Two.get_map]
  split <;> rfl

theorem mapEnt_setMap (s : State) (n : Nat) (m : MapEnt) (k : Nat) :
    mapEnt (setMap s n m) k = if k = n then m else mapEnt s k := Tab.get_put ({} : MapEnt) s.srm.map n m k

theorem copyOf_setMap (s : State) (n : Nat) (m : MapEnt) (h : Half) (k : Nat) : copyOf (setMap s n m) h k = copyOf s h k :=
  copyOf_writeArea _ _ _ h k

theorem available_setMap (s : State) (n : Nat) (m : MapEnt) (h : Half) :
    ((setMap s n m).srm.bank.get h).available = (s.srm.bank.get h).available := available_writeArea _ _ _ h

/-- The directory's new entries leave the map and the banks. -/
theorem refreshDir_frame (s : State) (ns : List Nat) : ∃ d, refreshDir s ns = { s with srm := { s.srm with dir := d } } :=
  List.foldlRecOn (motive := fun t : State => ∃ d, t = { s with srm := { s.srm with dir := d } }) ns _ ⟨s.srm.dir, rfl⟩
    fun t ht k _ => by
      obtain ⟨d, rfl⟩ := ht
      exact ⟨_, rfl⟩

theorem map_refreshDir (s : State) (ns : List Nat) : (refreshDir s ns).srm.map = s.srm.map := by
  obtain ⟨d, e⟩ := refreshDir_frame s ns
  rw [e]

theorem bank_refreshDir (s : State) (ns : List Nat) : (refreshDir s ns).srm.bank = s.srm.bank := by
  obtain ⟨d, e⟩ := refreshDir_frame s ns
  rw [e]

/-! ### Entries of the map, set one after the other (R299) -/

section
variable {f : State → Nat → MapEnt}

/-- The map's entries of the slots `ns` become what `f` makes of each. -/
def setMaps (s : State) (f : State → Nat → MapEnt) (ns : List Nat) : State := ns.foldl (fun s k => setMap s k (f s k)) s

theorem copyOf_setMaps (s : State) (ns : List Nat) (h : Half) (k : Nat) : copyOf (setMaps s f ns) h k = copyOf s h k :=
  List.foldlRecOn (motive := fun t => copyOf t h k = copyOf s h k) ns _ rfl fun t ht n _ => (copyOf_setMap t n _ h k).trans ht

theorem available_setMaps (s : State) (ns : List Nat) (h : Half) :
    ((setMaps s f ns).srm.bank.get h).available = (s.srm.bank.get h).available :=
  List.foldlRecOn (motive := fun t : State => (t.srm.bank.get h).available = (s.srm.bank.get h).available) ns _ rfl
    fun t ht n _ => (available_setMap t n _ h).trans ht

/-- What every change makes true of a slot's entry, and no later change undoes, holds of each slot of the list. -/
theorem mapEnt_setMaps {p : Nat → MapEnt → Prop} (hp : ∀ t k, p k (f t k)) (ns : List Nat) (s : State) {k : Nat}
    (hk : k ∈ ns ∨ p k (mapEnt s k)) : p k (mapEnt (setMaps s f ns) k) := by
  induction ns generalizing s with
  | nil => exact hk.resolve_left (by simp)
  | cons n ns ih =>
    refine ih (setMap s n (f s n)) ?_
    rw [mapEnt_setMap]
    by_cases hn : k = n
    · subst hn
      exact .inr (by simpa using hp s k)
    · simpa [hn] using hk

end

/-! ### Emptying slots (R299, R306) -/

/-- The copy of slot `k` in bank `h` is an empty record. -/
def emptyIn (s : State) (h : Half) (k : Nat) : Prop := ∃ r, copyOf s h k = some r ∧ r.alg = 0

/-- From `s` to `t` the slots `ns` have become empty in every available bank; no empty slot has been filled, no bank has come or
gone, and the map is as it was. -/
def empties (s t : State) (ns : List Nat) : Prop :=
  t.srm.map = s.srm.map ∧ (∀ h, (t.srm.bank.get h).available = (s.srm.bank.get h).available) ∧
    ∀ h, (s.srm.bank.get h).available = true → ∀ k, k ∈ ns ∨ emptyIn s h k → emptyIn t h k

section
variable {s t u : State} {ns ms : List Nat}

theorem empties_nil (hm : t.srm.map = s.srm.map) (hb : t.srm.bank = s.srm.bank) : empties s t [] := by
  refine ⟨hm, fun h => by rw [hb], fun h _ k hk => ?_⟩
  simpa only [emptyIn, copyOf_of_bank hb] using hk.resolve_left (by simp)

theorem empties_trans (hst : empties s t ns) (htu : empties t u ms) : empties s u (ns ++ ms) := by
  obtain ⟨hm, ha, he⟩ := hst
  obtain ⟨hm', ha', he'⟩ := htu
  refine ⟨hm'.trans hm, fun h => (ha' h).trans (ha h), fun h hh k hk => he' h ((ha h).trans hh) k ?_⟩
  rw [List.mem_append, or_assoc, or_left_comm] at hk
  exact hk.imp_right (he h hh k)

/-- Steps that each empty slots which the map alone decides empty all of them. -/
theorem empties_foldl {α : Type} {f : State → α → State} {span : α → List Nat} (l : List α)
    (hf : ∀ t a, t.srm.map = s.srm.map → empties t (f t a) (span a)) : empties s (l.foldl f s) (l.flatMap span) := by
  suffices h : ∀ t, t.srm.map = s.srm.map → empties t (l.foldl f t) (l.flatMap span) from h s rfl
  induction l with
  | nil => exact fun t _ => empties_nil rfl rfl
  | cons a l ih =>
    intro t ht
    have h := hf t a ht
    exact empties_trans h (ih _ (h.1.trans ht))

theorem emptyIn_of_empties (h : empties s t ns) {k : Nat} (hk : k ∈ ns) {b : Half} (hb : (s.srm.bank.get b).available = true) :
    ∃ r, copyOf t b k = some r ∧ r.alg = 0 := by
  obtain ⟨-, -, he⟩ := h
  exact he b hb k (.inl hk)

end

/-- A record without an algorithm empties its slot. -/
theorem empties_writeRec (s : State) (n : Nat) {r : Rec} (hr : r.alg = 0) (m : Bytes) :
    empties s (drawFrom (writeRec s n r m) 2) [n] := by
  refine ⟨rfl, available_writeRec s n r m, fun h hh k hk => ?_⟩
  change ∃ x, copyOf (writeRec s n r m) h k = some x ∧ x.alg = 0
  rw [copyOf_writeRec]
  by_cases hn : k = n
  · rw [if_pos ⟨hn, hh⟩]
    exact ⟨_, rfl, hr⟩
  · rw [if_neg fun x => hn x.1]
    exact hk.resolve_left (by simpa using hn)

/-! ### The records of a slot, written and followed up (R286, R304, R306) -/

/-- The records of slot `n` are written, record `p` with 80 bytes of `m` from 80p on. -/
def slotWritten (s : State) (n : Nat) (mk : Nat → Rec) (m : Bytes) : State :=
  (slotSpan s n).foldl
    (fun s k => drawFrom (writeRec s k (mk (k - n)) (slice m (80 * (k - n)) (Nat.min 80 (m.length - 80 * (k - n))))) 2) s

/-- The state behind the writing of a slot, its operations abandoned last. -/
theorem standing_putSlot (s : State) (n : Nat) (mk : Nat → Rec) (m : Bytes) :
    standing (putSlot s n mk m) = standing (refreshDir (slotWritten s n mk m) (slotSpan s n)) :=
  (standing_abandonOps _ _).trans rfl

theorem bank_putSlot (s : State) (n : Nat) (mk : Nat → Rec) (m : Bytes) :
    (putSlot s n mk m).srm.bank = (slotWritten s n mk m).srm.bank :=
  (congrArg (fun x : Standing => x.srm.bank) (standing_putSlot s n mk m)).trans (bank_refreshDir _ _)

theorem map_putSlot (s : State) (n : Nat) (mk : Nat → Rec) (m : Bytes) :
    (putSlot s n mk m).srm.map = (slotWritten s n mk m).srm.map :=
  (congrArg (fun x : Standing => x.srm.map) (standing_putSlot s n mk m)).trans (map_refreshDir _ _)

/-- What stands beside the Strongroom. -/
def Standing.besideRoom (x : Standing) : Tab Gal × (Nat → Bool × BitVec 4 × Nat) × (Nat → Bool) := (x.gals, x.sq, x.cq)

/-- Writing a slot changes the Strongroom and leaves galleries and queues standing. -/
theorem besideRoom_putSlot (s : State) (n : Nat) (mk : Nat → Rec) (m : Bytes) :
    (standing (putSlot s n mk m)).besideRoom = (standing s).besideRoom := by
  obtain ⟨d, e⟩ := refreshDir_frame (slotWritten s n mk m) (slotSpan s n)
  rw [standing_putSlot, e]
  exact List.foldlRecOn (motive := fun t => (standing t).besideRoom = (standing s).besideRoom) (slotSpan s n) _ rfl fun _ ht _ _ => ht

/-! ### When a slot command waits, is refused and runs (R97, R302, R313, R462) -/

/-- The parts received of gallery `g`'s next key are discarded (R302). -/
def discardParts (s : State) (g : Nat) : State := updGv s g fun v => { v with wide := none }

theorem drawsIv_of_ready {s : State} (h : drbgReady s 2 = true) (c : AdminCmd) : drawsIv s c = false := by simp [drawsIv, h]

theorem drawsIv_of_notReady {s : State} {c : AdminCmd} (h : drbgReady s 2 = false) (hop : c.op ∈ [0x20, 0x22, 0x23, 0x26, 0x27]) :
    drawsIv s c = true := by
  simp only [drawsIv, h, List.contains_iff_mem.2 hop, Bool.not_false, Bool.and_self]

/-- A slot command without Reserve operations is one whose operations are none. -/
theorem slotCmd_eq_slotCmdOp (s : State) (c : AdminCmd) (f : State → Option WideParts → State) :
    slotCmd s c f = slotCmdOp s c [] f := by
  unfold slotCmdOp
  split
  next h => exact if_pos h
  next => simp [reserveOp]

section
variable {s u : State} {c : AdminCmd} {ticks : List Nat}

theorem slotCmdOp_waits (h : slotTurn s c.gal c = false ∨ drawsIv s c = true) (f : State → Option WideParts → State) :
    slotCmdOp s c ticks f = s := if_pos (by simpa using h)

theorem slotCmdOp_refused (ht : slotTurn s c.gal c = true) (hr : drbgReady s 2 = true) (h : hasVek s = false ∨ roomPaused s = true)
    (f : State → Option WideParts → State) : slotCmdOp s c ticks f = fails (discardParts s c.gal) c .reserveBusy := by
  have hwait : ¬(!slotTurn s c.gal c || drawsIv s c) = true := by simp [ht, drawsIv_of_ready hr]
  have hno : (!hasVek s || roomPaused s) = true := by simpa using h
  rw [slotCmdOp, if_neg hwait, if_pos hno]
  change slotCmd s c f = _
  rw [slotCmd, if_neg hwait]
  exact if_pos hno

theorem roomCmd_refused (hr : drbgReady s 2 = true) (h : hasVek s = false ∨ roomPaused s = true) (f : State → State) :
    roomCmd s c f = fails s c .reserveBusy := by
  rw [roomCmd, if_neg (by simp [drawsIv_of_ready hr]), if_pos (by simpa using h)]

/-- The Strongroom takes slot commands: it draws nonces, it has a Vault Epoch Key, and no session makes it stand still. -/
def roomOpen (s : State) : Prop := drbgReady s 2 = true ∧ hasVek s = true ∧ roomPaused s = false

theorem slotCmd_runs (ht : slotTurn s c.gal c = true) (ho : roomOpen s) (f : State → Option WideParts → State) :
    slotCmd s c f = f (discardParts s c.gal) (gv s c.gal).wide := by
  obtain ⟨hr, hv, hp⟩ := ho
  rw [slotCmd, if_neg (by simp [ht, drawsIv_of_ready hr])]
  refine if_neg ?_
  change ¬(!hasVek s || roomPaused s) = true
  simp [hv, hp]

theorem curatorSlotCmd_runs (ho : roomOpen s) (f : State → State) : curatorSlotCmd s c f = f (discardParts s c.gal) := by
  obtain ⟨hr, hv, hp⟩ := ho
  rw [curatorSlotCmd, roomCmd, if_neg (by simp [drawsIv_of_ready hr]), if_neg (by simp [hv, hp]), discardParts]

theorem slotCmdOp_open (ht : slotTurn s c.gal c = true) (ho : roomOpen s) (f : State → Option WideParts → State) :
    slotCmdOp s c ticks f = reserveOp s (cmdOwner c) ticks none fun u => slotCmd u c f := by
  obtain ⟨hr, hv, hp⟩ := ho
  rw [slotCmdOp, if_neg (by simp [ht, drawsIv_of_ready hr]), if_neg (by simp [hv, hp])]

theorem cup_of_opsDone {owner : Bytes} {half : Option Half} (h : opsDone s owner ticks half u) : ∃ x, u = { s with cup := x } := by
  obtain ⟨-, rfl⟩ | ⟨-, -, -, rfl⟩ := h
  · exact ⟨u.cup, rfl⟩
  · exact ⟨_, rfl⟩

/-- With the results of its operations the command runs (R266). -/
theorem slotCmdOp_runs (ht : slotTurn s c.gal c = true) (ho : roomOpen s) (hd : opsDone s (cmdOwner c) ticks none u)
    (f : State → Option WideParts → State) : slotCmdOp s c ticks f = f (discardParts u c.gal) (gv s c.gal).wide := by
  rw [slotCmdOp_open ht ho, reserveOp_done _ hd]
  obtain ⟨x, rfl⟩ := cup_of_opsDone hd
  exact slotCmd_runs (s := { s with cup := x }) ht ho f

end

/-! ### The rows -/

section
variable {s : State} {g : Gallery} {q : QIndex} {c : AdminCmd} {ok : Bool} {msg key : Option Bytes} {e : Nat × Instr}

/-- A row whose command passes the shared checks is what its meaning makes of the state. -/
theorem exec_of_admRuns {i : Instr} {op : Nat} {r : AdmRow} {f : State → AdminCmd → State} {t : State}
    (hi : exec i s = .next (runAdmin s g q op f)) (hrow : admRow op = some r) (hr : admRuns s g q op c) (ht : f s c = t) :
    exec i s = .next t := by rw [hi, runAdmin_of_admRuns f hrow hr, ht]

/-- The rows of a gallery in its turn are slot commands. -/
theorem exec_slotRow (he : e ∈ [(0x22, .slotUpdate g q msg key), (0x23, .slotDestroy g q), (0x24, .slotQuery g q ok),
    (0x25, .slotCounter g q), (0x26, .slotTransportKeys g q ok)]) (hr : admRuns s g q e.1 c) :
    ∃ ticks f, exec e.2 s = .next (slotCmdOp s c ticks f) := by
  simp only [List.mem_cons, List.not_mem_nil, or_false] at he
  rcases he with rfl | rfl | rfl | rfl | rfl
  · exact ⟨_, _, exec_of_admRuns rfl rfl hr rfl⟩
  · exact ⟨_, _, exec_of_admRuns rfl rfl hr (slotCmd_eq_slotCmdOp s c _)⟩
  · exact ⟨_, _, exec_of_admRuns rfl rfl hr (slotCmd_eq_slotCmdOp s c _)⟩
  · exact ⟨_, _, exec_of_admRuns rfl rfl hr (slotCmd_eq_slotCmdOp s c _)⟩
  · exact ⟨_, _, exec_of_admRuns rfl rfl hr rfl⟩

/-- The Curator's rows wait for no turn. -/
theorem exec_roomRow (he : e ∈ [(0x20, .slotAssign g q), (0x21, .slotRelease g q), (0x27, .slotReseal g q)])
    (hr : admRuns s g q e.1 c) : ∃ f, exec e.2 s = .next (roomCmd s c f) := by
  simp only [List.mem_cons, List.not_mem_nil, or_false] at he
  rcases he with rfl | rfl | rfl <;> exact ⟨_, exec_of_admRuns rfl rfl hr rfl⟩

/-- A row that draws nonces waits while the key-generation part of the entropy unit is not ready (R462). -/
theorem exec_drawingRow (he : e ∈ [(0x20, .slotAssign g q), (0x22, .slotUpdate g q msg key), (0x23, .slotDestroy g q),
    (0x26, .slotTransportKeys g q ok), (0x27, .slotReseal g q)]) (hr : admRuns s g q e.1 c) (hd : drbgReady s 2 = false) :
    exec e.2 s = .next s := by
  have hop : c.op = e.1 := by
    obtain ⟨-, hop, -⟩ := hr
    exact hop
  have hin : c.op ∈ [0x20, 0x22, 0x23, 0x26, 0x27] := hop ▸ List.mem_map_of_mem (f := Prod.fst) he
  have hiv := drawsIv_of_notReady hd hin
  have hrow : (∃ ticks f, exec e.2 s = .next (slotCmdOp s c ticks f)) ∨ ∃ f, exec e.2 s = .next (roomCmd s c f) := by
    simp only [List.mem_cons, List.not_mem_nil, or_false] at he
    rcases he with rfl | rfl | rfl | rfl | rfl
    · exact .inr (exec_roomRow (by simp) hr)
    · exact .inl (exec_slotRow (ok := ok) (msg := msg) (key := key) (by simp) hr)
    · exact .inl (exec_slotRow (ok := ok) (msg := msg) (key := key) (by simp) hr)
    · exact .inl (exec_slotRow (ok := ok) (msg := msg) (key := key) (by simp) hr)
    · exact .inr (exec_roomRow (by simp) hr)
  obtain ⟨ticks, f, h⟩ | ⟨f, h⟩ := hrow
  · rw [h, slotCmdOp_waits (.inr hiv)]
  · rw [h, roomCmd, if_pos hiv]

end

/-! ### What the discarding of parts leaves -/

theorem recNow_discardParts (s : State) (g n : Nat) : recNow (discardParts s g) n = recNow s n := rfl

theorem goodCopy_discardParts (s : State) (g : Nat) (h : Half) (n : Nat) : goodCopy (discardParts s g) h n = goodCopy s h n := rfl

/-! ### Assignment and release (R299) -/

section
variable {s : State}

theorem self_mem_slotSpan (s : State) (k : Nat) : k ∈ slotSpan s k := by
  unfold slotSpan
  split
  · exact List.mem_map.2 ⟨0, by simp, rfl⟩
  · exact List.mem_singleton.2 rfl

theorem notOwned_iff (m : MapEnt) (n : Nat) : (!m.assigned || decide (m.owner ≠ n)) = true ↔ ¬(m.assigned = true ∧ m.owner = n) := by
  cases m.assigned <;> simp

/-- A range is refused when it ends past the last slot or does not pass its check. -/
theorem lt_or_not_eq_not_le_and (n m : Nat) (b : Bool) : (decide (n < m) || !b) = !(decide (m ≤ n) && b) := by
  rw [Bool.not_and, ← decide_not, decide_eq_decide.2 Nat.not_le]

/-- The map's entry of slot `k` as SLOT_ASSIGN writes it. -/
def assignedEnt (target : Nat) (wide : Bool) (k : Nat) : MapEnt :=
  { owner := target, assigned := true, head := wide && decide (k % 16 = 0), member := wide && decide (k % 16 ≠ 0) }

/-- The slot with head `a` gets empty records of gallery `target`. -/
def emptyRecs (target : Nat) (s : State) (a : Nat) : State :=
  (slotSpan s a).foldl (fun t k => drawFrom (writeRec t k (emptyRec target (slotGen s a).toNat (partAt t k)) []) 2) s

/-- The slots `ns` are assigned to gallery `target`. -/
def slotsAssigned (s : State) (target : Nat) (wide : Bool) (ns : List Nat) : State :=
  refreshDir ((ns.filter fun k => !wide || decide (k % 16 = 0)).foldl (emptyRecs target)
    (setMaps s (fun _ k => assignedEnt target wide k) ns)) ns

theorem empties_foldl_writeRec {ns : List Nat} {r : State → Nat → Rec} (hr : ∀ t k, (r t k).alg = 0) (m : Nat → Bytes) :
    empties s (ns.foldl (fun t k => drawFrom (writeRec t k (r t k) (m k)) 2) s) ns := by
  have h := empties_foldl (s := s) (span := fun k => [k]) ns fun t k _ => empties_writeRec t k (hr t k) (m k)
  rwa [List.flatMap_singleton'] at h

theorem empties_emptyRecs (target : Nat) (s : State) (a : Nat) : empties s (emptyRecs target s a) (slotSpan s a) :=
  empties_foldl_writeRec (fun _ _ => rfl) fun _ => []

/-- Assignment empties the slots of every head. -/
theorem empties_slotsAssigned (target : Nat) (wide : Bool) (ns : List Nat) :
    empties (setMaps s (fun _ k => assignedEnt target wide k) ns) (slotsAssigned s target wide ns)
      ((ns.filter fun k => !wide || decide (k % 16 = 0)).flatMap
        (slotSpan (setMaps s (fun _ k => assignedEnt target wide k) ns))) := by
  generalize ht : setMaps s _ ns = t
  have h := empties_foldl (s := t) (f := emptyRecs target) (span := slotSpan t) (ns.filter fun k => !wide || decide (k % 16 = 0))
    fun u a hu => slotSpan_of_map hu a ▸ empties_emptyRecs target u a
  have h' := empties_trans h (empties_nil (map_refreshDir _ ns) (bank_refreshDir _ ns))
  rw [List.append_nil] at h'
  simpa only [slotsAssigned, ht] using h'

theorem mapEnt_slotsAssigned (target : Nat) (wide : Bool) {ns : List Nat} {k : Nat} (hk : k ∈ ns) :
    mapEnt (slotsAssigned s target wide ns) k = assignedEnt target wide k := by
  obtain ⟨hm, -⟩ := empties_slotsAssigned (s := s) target wide ns
  rw [mapEnt_of_map hm]
  exact mapEnt_setMaps (p := fun k m => m = assignedEnt target wide k) (fun _ _ => rfl) ns s (.inl hk)

/-- Every assigned slot lies in the slot of a head among them, when wide slots are assigned whole. -/
theorem mem_spans_of_mem (target : Nat) {wide : Bool} {first n : Nat} (hw : wide = true → first % 16 = 0 ∧ n % 16 = 0) {i : Nat} (hi : i < n) :
    let ns := (List.range n).map (first + ·)
    first + i ∈ (ns.filter fun k => !wide || decide (k % 16 = 0)).flatMap
      (slotSpan (setMaps s (fun _ k => assignedEnt target wide k) ns)) := by
  intro ns
  have hmem : ∀ j, j < n → first + j ∈ ns := fun j hj => List.mem_map.2 ⟨j, List.mem_range.2 hj, rfl⟩
  rw [List.mem_flatMap]
  cases wide with
  | false => exact ⟨first + i, List.mem_filter.2 ⟨hmem i hi, rfl⟩, self_mem_slotSpan _ _⟩
  | true =>
    obtain ⟨hfirst, hn⟩ := hw rfl
    have hhead : (first + i / 16 * 16) % 16 = 0 := by omega
    have hin : first + i / 16 * 16 ∈ ns := hmem _ (by omega)
    refine ⟨first + i / 16 * 16, List.mem_filter.2 ⟨hin, by simp [hhead]⟩, ?_⟩
    have he : mapEnt (setMaps s (fun _ k => assignedEnt target true k) ns) (first + i / 16 * 16) =
        assignedEnt target true (first + i / 16 * 16) :=
      mapEnt_setMaps (p := fun k m => m = assignedEnt target true k) (fun _ _ => rfl) ns s (.inl hin)
    rw [slotSpan, he, if_pos (by simp [assignedEnt, hhead])]
    exact List.mem_map.2 ⟨i % 16, List.mem_range.2 (by omega), by omega⟩

/-- Each slot of the range is assigned as asked, and empty in every available bank. -/
theorem slotsAssigned_spec (s : State) (target : Nat) {wide : Bool} {first n : Nat} (hw : wide = true → first % 16 = 0 ∧ n % 16 = 0)
    {i : Nat} (hi : i < n) :
    let u := slotsAssigned s target wide ((List.range n).map (first + ·))
    mapEnt u (first + i) = assignedEnt target wide (first + i) ∧
      ∀ h, (s.srm.bank.get h).available = true → ∃ r, copyOf u h (first + i) = some r ∧ r.alg = 0 :=
  ⟨mapEnt_slotsAssigned target wide (List.mem_map.2 ⟨i, List.mem_range.2 hi, rfl⟩), fun h hh =>
    emptyIn_of_empties (empties_slotsAssigned target wide _) (mem_spans_of_mem target hw hi) ((available_setMaps s _ h).trans hh)⟩

/-- The slots `ns` are no gallery's any more. -/
def slotsReleased (s : State) (ns : List Nat) : State := refreshDir (setMaps s (fun t k => { mapEnt t k with assigned := false }) ns) ns

theorem copyOf_slotsReleased (s : State) (ns : List Nat) (h : Half) (k : Nat) : copyOf (slotsReleased s ns) h k = copyOf s h k :=
  (copyOf_of_bank (bank_refreshDir _ ns) h k).trans (copyOf_setMaps s ns h k)

theorem assigned_slotsReleased (s : State) {ns : List Nat} {k : Nat} (hk : k ∈ ns) : (mapEnt (slotsReleased s ns) k).assigned = false := by
  rw [slotsReleased, mapEnt_of_map (map_refreshDir _ ns)]
  exact mapEnt_setMaps (p := fun _ m => m.assigned = false) (fun _ _ => rfl) ns s (.inl hk)

end

section
variable {s : State} {g : Gallery} {q : QIndex} {c : AdminCmd}

theorem exec_slotAssign (hr : admRuns s g q 0x20 c) (ho : roomOpen s) :
    let s1 := discardParts s c.gal
    let n := if c.p 5 1 = 1 then 16 * c.p 3 2 else c.p 3 2
    exec (.slotAssign g q) s = .next (
      if c.p 3 2 = 0 || 4096 < c.p 3 2 || 1 < c.p 5 1 || (c.p 5 1 = 1 && c.p 1 2 % 16 ≠ 0) || (gal s (c.p 0 1)).state != .active ||
          65536 < c.p 1 2 + n || (List.range n).any (fun i => (mapEnt s (c.p 1 2 + i)).assigned) then fails s1 c .badInput
      else if (gal s (c.p 0 1)).slotQuota < (slotsOf s (c.p 0 1)).length + n then fails s1 c .quota
      else done (slotsAssigned s1 (c.p 0 1) (decide (c.p 5 1 = 1)) ((List.range n).map (c.p 1 2 + ·))) c) :=
  exec_of_admRuns rfl rfl hr (curatorSlotCmd_runs ho _)

theorem exec_slotRelease (hr : admRuns s g q 0x21 c) (ho : roomOpen s) :
    let s1 := discardParts s c.gal
    exec (.slotRelease g q) s = .next (
      if 65536 < c.p 0 2 + c.p 2 2 || !((List.range (c.p 2 2)).all fun i => releasable s (c.p 0 2) (c.p 2 2) (c.p 0 2 + i)) then
        fails s1 c .badInput
      else done (slotsReleased s1 ((List.range (c.p 2 2)).map (c.p 0 2 + ·))) c) :=
  exec_of_admRuns rfl rfl hr (curatorSlotCmd_runs ho _)

/-- A fresh Vault Epoch Key in the other register, which becomes the active one, and the Reseal from the first slot on (R308). -/
def resealBegun (s : State) : State :=
  updSrm (bump (drawFrom (setEpochReg s (!s.srm.epoch) (some (mkShares s 1 (freeBytes s 32)))) 2))
    fun r => { r with epoch := !r.epoch, reseal := true, resealPos := ⟨0, 0⟩ }

theorem exec_slotReseal (hr : admRuns s g q 0x27 c) (ho : roomOpen s) :
    let s1 := discardParts s c.gal
    exec (.slotReseal g q) s = .next (
      if s.srm.reseal || s.srm.overwrite || rootSel s = 2 then fails s1 c .reserveBusy else done (resealBegun s1) c) :=
  exec_of_admRuns rfl rfl hr (curatorSlotCmd_runs ho _)

theorem resealBegun_spec (s : State) : (resealBegun s).srm.epoch = (!s.srm.epoch) ∧ (resealBegun s).srm.reseal = true ∧
    (resealBegun s).srm.resealPos = ⟨0, 0⟩ ∧ (resealBegun s).srm.bank = s.srm.bank ∧ hasVek (resealBegun s) = true := by
  cases h : s.srm.epoch <;> simp [resealBegun, setEpochReg, drawFrom, setDrbg, hasVek, epochReg, h]

end

/-! ### Destruction (R306, R307) -/

theorem standing_addPending (s : State) (g n : Nat) : standing (addPending s g n) = standing s := by
  unfold addPending
  dsimp only
  split
  · rfl
  · split
    · rfl
    · split <;> rfl

/-- A slot is emptied as its empty records are written: the jobs and the pair's list that follow leave the rest standing. -/
theorem standing_emptySlot (s : State) (n w : Nat) (replicate : Bool) :
    standing (emptySlot s n w replicate) = standing (putSlot s n (emptyRec (mapEnt s n).owner (slotGen s n).toNat) []) := by
  unfold emptySlot
  dsimp only
  split
  · exact standing_addPending _ _ _
  · rfl

theorem queuePair_emptySlot {s : State} {k gen : Nat} (h : queuePair s k gen) (n w : Nat) (replicate : Bool) :
    queuePair (emptySlot s n w replicate) k gen := by
  have hb : (standing (emptySlot s n w replicate)).besideRoom = (standing s).besideRoom := by
    rw [standing_emptySlot, besideRoom_putSlot]
  simp only [Standing.besideRoom, Prod.mk.injEq] at hb
  obtain ⟨-, hq, hc⟩ := hb
  exact queuePair_of_standing hq hc h

theorem emptyIn_emptySlot (s : State) (n w : Nat) (replicate : Bool) {h : Half} (hh : (s.srm.bank.get h).available = true) :
    ∃ r, copyOf (emptySlot s n w replicate) h n = some r ∧ r.alg = 0 := by
  have hb : (emptySlot s n w replicate).srm.bank = _ :=
    (congrArg (fun x : Standing => x.srm.bank) (standing_emptySlot s n w replicate)).trans (bank_putSlot s n _ _)
  rw [copyOf_of_bank hb]
  exact emptyIn_of_empties (empties_foldl_writeRec (fun _ _ => rfl) _) (self_mem_slotSpan s n) hh

section
variable {s : State} {g : Gallery} {q : QIndex} {c : AdminCmd}

/-- The destroyed slot's command, its completion held until the jobs that began before have ended (R307). -/
def slotDestroyed (s : State) (n : Nat) (c : AdminCmd) : State :=
  produceAdmin (emptySlot s n (tick s) true) c
    { cmdId := leAt c.entry 4 2, tick := tick s + 3, index := c.index, covers := [(c.index, 1)] }

theorem exec_slotDestroy (hr : admRuns s g q 0x23 c) (ht : slotTurn s c.gal c = true) (ho : roomOpen s) (hc : c.p 2 4 = 0) :
    let s1 := discardParts s c.gal
    let n := c.p 0 2
    exec (.slotDestroy g q) s = .next (
      if !(mapEnt s n).assigned || (mapEnt s n).owner ≠ c.gal then fails s1 c .notAuthorised
      else if (mapEnt s n).member then fails s1 c .badInput
      else if (recNow s n).any fun r => r.alg ≠ 0 && dualControl r.attr then fails s1 c .notAuthorised
      else if (dirEnt s n).state == .empty then done s1 c
      else slotDestroyed s1 n c) := by
  intro s1 n
  refine exec_of_admRuns rfl rfl hr ((slotCmd_runs ht ho _).trans ?_)
  simp only [hc, if_true, Bool.not_false, Bool.true_and, ne_eq, not_true_eq_false, decide_false, Bool.false_or]
  rfl

theorem slotDestroyed_spec {s : State} {c : AdminCmd} (hp : queuePair s c.key c.sqGen) (n : Nat) :
    answered (slotDestroyed s n c) c .done 0 [] ∧
      ∀ h, (s.srm.bank.get h).available = true → ∃ r, copyOf (slotDestroyed s n c) h n = some r ∧ r.alg = 0 := by
  have hp' := queuePair_emptySlot hp n (tick s) true
  refine ⟨⟨completed_produceAdmin hp' _ rfl, by simp [slotDestroyed, adm_produceAdmin hp']⟩, fun h hh => ?_⟩
  obtain ⟨x, e⟩ := produceAdmin_frame (emptySlot s n (tick s) true) c
    { cmdId := leAt c.entry 4 2, tick := tick s + 3, index := c.index, covers := [(c.index, 1)] }
  rw [slotDestroyed, e]
  exact emptyIn_emptySlot s n (tick s) true hh

end

/-! ### Update (R303, R304) -/

theorem padTo_padTo (n : Nat) (b : Bytes) : padTo n (padTo n b) = padTo n b := by
  have h : (padTo n b).length = n := by simp [padTo, zeros]
  rw [padTo, List.take_append_of_le_length (Nat.le_of_eq h.symm), List.take_of_length_le (Nat.le_of_eq h)]

/-- Material fills its record with zeros (R286). -/
theorem sealRec_padTo (s : State) (r : Rec) (m iv : Bytes) : sealRec s r (padTo 80 m) iv = sealRec s r m iv := by
  simp only [sealRec, Rec.sealWith, padTo_padTo]

section
variable {s : State}

theorem slotWritten_of_narrow {n : Nat} (hn : (mapEnt s n).head = false) (mk : Nat → Rec) (m : Bytes) :
    slotWritten s n mk m = drawFrom (writeRec s n (mk 0) (slice m 0 (Nat.min 80 m.length))) 2 := by
  simp [slotWritten, slotSpan, hn]

theorem standing_applyKey (s : State) (n alg : Nat) (attr : Word) (hash keyLen : Nat) (m : Bytes) (replicate : Bool) :
    standing (applyKey s n alg attr hash keyLen m replicate) = standing (putSlot s n
      (fun p => { gal := (mapEnt s n).owner, alg, attr, gen := slotGen s n, part := p, hash, keyLen }) m) := by
  unfold applyKey
  dsimp only
  split
  · exact standing_addPending _ _ _
  · rfl

theorem gals_applyKey (s : State) (n alg : Nat) (attr : Word) (hash keyLen : Nat) (m : Bytes) (replicate : Bool) :
    (applyKey s n alg attr hash keyLen m replicate).gals = s.gals :=
  (congrArg Standing.gals (standing_applyKey s n alg attr hash keyLen m replicate)).trans
    (congrArg Prod.fst (besideRoom_putSlot s n _ m))

/-- A key of a narrow slot stands in every available bank (R304). -/
theorem recorded_applyKey {n : Nat} (hn : (mapEnt s n).head = false) (alg : Nat) (attr : Word) (hash keyLen : Nat) (m : Bytes)
    (replicate : Bool) : recorded s (applyKey s n alg attr hash keyLen m replicate) n alg attr hash keyLen
      (padTo 80 (slice m 0 (Nat.min 80 m.length))) := by
  intro h hh
  have hb : (applyKey s n alg attr hash keyLen m replicate).srm.bank = _ :=
    (congrArg (fun x : Standing => x.srm.bank) (standing_applyKey s n alg attr hash keyLen m replicate)).trans (bank_putSlot s n _ m)
  rw [slotWritten_of_narrow hn] at hb
  rw [copyOf_of_bank hb]
  refine ⟨freeBytes s 12, (copyOf_writeRec s n _ _ h n).trans ?_⟩
  rw [if_pos ⟨rfl, hh⟩, sealRec_padTo]

theorem nextGen_setCounter (s : State) (g : Nat) (v : BitVec 64) (n : Nat) : nextGen (setCounter s g v) n = nextGen s n := by
  simp only [nextGen, setCounter, copyOf_writeArea, available_writeArea]
  rfl

theorem slotGen_setCounter (s : State) (g : Nat) (v : BitVec 64) (n : Nat) : slotGen (setCounter s g v) n = slotGen s n := by
  simp only [slotGen, nextGen_setCounter]
  rfl

/-- What a slot's records hold does not depend on the gallery's update counter. -/
theorem recorded_of_setCounter {s t : State} {g : Nat} {v : BitVec 64} {n alg : Nat} {attr : Word} {hash keyLen : Nat} {m : Bytes}
    (h : recorded (setCounter s g v) t n alg attr hash keyLen m) : recorded s t n alg attr hash keyLen m := by
  intro b hb
  obtain ⟨iv, e⟩ := h b ((available_writeArea _ _ _ b).trans hb)
  rw [slotGen_setCounter] at e
  exact ⟨iv, e⟩

theorem gal_setCounter_same (s : State) (g : Nat) (v : BitVec 64) : (gal (setCounter s g v) g).counter = v :=
  congrArg Gal.counter (gal_setGal_same s g _)

end

/-- A message that passes every check names a slot of its gallery with the width of its algorithm (check 2 of R303). -/
theorem slotFits_of_sumCheck {s : State} {g : Nat} {x : Sum} {len : Nat} {key : Bytes} {cer : Bool} {w : Option WideParts}
    (h : sumCheck s g x len key cer w = none) : slotFits s g x.slot x.alg = true := by
  cases hf : slotFits s g x.slot x.alg with
  | true => rfl
  | false =>
    unfold sumCheck at h
    dsimp only at h
    split at h
    · exact nomatch h
    · rw [if_pos (by rw [hf, Bool.not_false, Bool.or_true])] at h
      exact nomatch h

theorem head_of_slotFits {s : State} {g n alg : Nat} (h : slotFits s g n alg = true) : (mapEnt s n).head = wideAlg alg := by
  simp only [slotFits, Bool.and_eq_true, beq_iff_eq] at h
  exact h.2

/-- The whole key of a narrow slot takes effect with its counter (R304). -/
theorem sumApply_of_whole {x : Sum} (hop : x.op = 1) (ht : x.total = 1) (s : State) (g : Nat) (w : Option WideParts) (c : AdminCmd) :
    sumApply s g x w c = done (applyKey (setCounter s g (BitVec.ofNat 64 x.counter)) x.slot x.alg x.attr x.hash x.keyLen
      (stored x.alg ((sumOpen s x).getD [])) true) c := by
  simp [sumApply, hop, ht]

section
variable {s : State} {g : Gallery} {q : QIndex} {c : AdminCmd}

/-- SLOT_UPDATE reads its message and its key and answers with the first check that fails, else applies the message (R303). -/
def sumAnswer (s : State) (c : AdminCmd) (w : Option WideParts) (b k : Bytes) : State :=
  let x := Sum.of (padTo (c.p 8 2) b)
  (sumCheck s c.gal x (c.p 8 2) k false w).elim (sumApply s c.gal x w c) fun e => completeAdmin s c e.2 e.1 0 []

theorem exec_slotUpdate_of_noMessage (hr : admRuns s g q 0x22 c) (ht : slotTurn s c.gal c = true) (ho : roomOpen s)
    (hc : c.p 18 4 = 0) (key : Option Bytes) :
    exec (.slotUpdate g q none key) s = .next (completeAdmin (discardParts s c.gal) c .dmaError 1 0 []) := by
  refine exec_of_admRuns rfl rfl hr ((slotCmdOp_runs ht ho (.inl ⟨.inl rfl, rfl⟩) _).trans ?_)
  simp [hc, withRead]

theorem exec_slotUpdate_of_ops (hr : admRuns s g q 0x22 c) (ht : slotTurn s c.gal c = true) (ho : roomOpen s)
    (hc : c.p 18 4 = 0) (hk : c.p 10 8 ≠ 0) (b k : Bytes) {u : State} (hu : opsDone s (cmdOwner c) (sumTicks b) none u) :
    exec (.slotUpdate g q (some b) (some k)) s = .next (sumAnswer (discardParts u c.gal) c (gv s c.gal).wide b k) := by
  refine exec_of_admRuns rfl rfl hr ((slotCmdOp_runs ht ho hu _).trans ?_)
  simp only [hc, hk, withRead, if_true, if_false, ne_eq, not_true_eq_false, decide_false, Bool.false_and, Bool.false_eq_true]
  unfold sumAnswer
  dsimp only
  generalize sumCheck _ _ _ _ _ _ _ = r
  cases r <;> rfl

theorem exec_slotUpdate_queues (hr : admRuns s g q 0x22 c) (ht : slotTurn s c.gal c = true) (ho : roomOpen s) (b : Bytes)
    (key : Option Bytes) (hf : opsFresh s (cmdOwner c) (sumTicks b) none) :
    ∃ t, exec (.slotUpdate g q (some b) key) s = .next t ∧ opsQueued s t (cmdOwner c) (sumTicks b) none :=
  ⟨_, exec_of_admRuns rfl rfl hr (slotCmdOp_open ht ho _), reserveOp_fresh _ hf⟩

theorem sumAnswer_of_failed {x : Sum} {w : Option WideParts} {b k : Bytes} {n : Nat} {st : Status} (hx : x = Sum.of (padTo (c.p 8 2) b))
    (h : sumCheck s c.gal x (c.p 8 2) k false w = some (n, st)) : sumAnswer s c w b k = completeAdmin s c st n 0 [] := by
  rw [sumAnswer, ← hx, h]
  rfl

theorem sumAnswer_of_passed {x : Sum} {w : Option WideParts} {b k : Bytes} (hx : x = Sum.of (padTo (c.p 8 2) b))
    (h : sumCheck s c.gal x (c.p 8 2) k false w = none) : sumAnswer s c w b k = sumApply s c.gal x w c := by
  rw [sumAnswer, ← hx, h]
  rfl

/-- The whole key of a narrow slot that passes its checks is recorded, and the counter is the message's (R304). -/
theorem sumApply_recorded {x : Sum} {len : Nat} {k : Bytes} {cer : Bool} {w : Option WideParts}
    (h : sumCheck s c.gal x len k cer w = none) (hop : x.op = 1) (ht : x.total = 1) (hw : wideAlg x.alg = false) {m : Bytes}
    (hm : (sumOpen s x).getD [] = m) :
    ∃ v, sumApply s c.gal x w c = done v c ∧ (gal v c.gal).counter = BitVec.ofNat 64 x.counter ∧
      recorded s v x.slot x.alg x.attr x.hash x.keyLen
        (padTo 80 (slice (stored x.alg m) 0 (Nat.min 80 (stored x.alg m).length))) := by
  have hn : (mapEnt s x.slot).head = false := (head_of_slotFits (slotFits_of_sumCheck h)).trans hw
  have hrec := recorded_applyKey (s := setCounter s c.gal (BitVec.ofNat 64 x.counter)) hn x.alg x.attr x.hash x.keyLen (stored x.alg m) true
  refine ⟨_, (sumApply_of_whole hop ht s c.gal w c).trans (by rw [hm]), ?_, recorded_of_setCounter hrec⟩
  rw [gal_of_gals (gals_applyKey _ _ _ _ _ _ _ _), gal_setCounter_same]

end

/-! ### Queries (R305, R316) -/

section
variable {s : State} {g : Gallery} {q : QIndex} {c : AdminCmd}

theorem exec_slotQuery (hr : admRuns s g q 0x24 c) (ht : slotTurn s c.gal c = true) (ho : roomOpen s) (ok : Bool) :
    let s1 := discardParts s c.gal
    let n := c.p 0 2
    exec (.slotQuery g q ok) s = .next (
      if !(mapEnt s n).assigned || (mapEnt s n).owner ≠ c.gal then fails s1 c .notAuthorised
      else query s1 c 2 ok (padTo 32 (((recNow s n).elim (zeros 16) Rec.head) ++ le 1 (dirEnt s n).state.code ++
        le 1 (b2n (goodCopy s .cope n).isSome + 2 * b2n (goodCopy s .drag n).isSome))) []) := by
  refine exec_of_admRuns rfl rfl hr ((slotCmd_runs ht ho _).trans ?_)
  dsimp only
  rw [recNow_discardParts, goodCopy_discardParts, goodCopy_discardParts]
  cases recNow s (c.p 0 2) <;> rfl

theorem exec_slotCounter (hr : admRuns s g q 0x25 c) (ht : slotTurn s c.gal c = true) (ho : roomOpen s) :
    exec (.slotCounter g q) s = .next (doneWith (discardParts s c.gal) c (le 8 (gal s c.gal).counter.toNat)) :=
  exec_of_admRuns rfl rfl hr (slotCmd_runs ht ho _)

theorem exec_slotTransportKeys_queues (hr : admRuns s g q 0x26 c) (ht : slotTurn s c.gal c = true) (ho : roomOpen s) (ok : Bool)
    (hf : opsFresh s (cmdOwner c) [80] none) :
    ∃ t, exec (.slotTransportKeys g q ok) s = .next t ∧ opsQueued s t (cmdOwner c) [80] none :=
  ⟨_, exec_of_admRuns rfl rfl hr (slotCmdOp_open ht ho _), reserveOp_fresh _ hf⟩

theorem exec_slotTransportKeys_of_ops (hr : admRuns s g q 0x26 c) (ht : slotTurn s c.gal c = true) (ho : roomOpen s) (ok : Bool)
    {u : State} (hu : opsDone s (cmdOwner c) [80] none u) :
    exec (.slotTransportKeys g q ok) s = .next (query (bump (drawFrom (discardParts u c.gal) 2)) c 0 ok
      (transportKeys (discardParts u c.gal) 1) []) :=
  exec_of_admRuns rfl rfl hr (slotCmdOp_runs ht ho hu _)

end

/-- Settles O53: a row waits or is refused as the shared lemmas on slot commands say, and asks its Reserve operations twice (entry 38);
in an open Strongroom each clause is one branch of the row's checks, and what the last branch writes is said by `slotsAssigned_spec`,
`resealBegun_spec`, `sumApply_recorded` and `slotDestroyed_spec`. -/
theorem slotCommands : Obligations.SlotCommands := by
  unfold Obligations.SlotCommands
  intro s g q c ok msg key
  dsimp only
  refine ⟨fun ht e he hr => ?notTurn, fun hd e he hr => exec_drawingRow he hr hd, fun hd hno => ⟨fun e he hr ht => ?refused,
    fun e he hr => ?curatorRefused⟩, fun hd hv hp => ?opened⟩
  case notTurn =>
    obtain ⟨ticks, f, h⟩ := exec_slotRow he hr
    rw [h, slotCmdOp_waits (.inl ht)]
  case refused =>
    obtain ⟨ticks, f, h⟩ := exec_slotRow he hr
    rw [h, slotCmdOp_refused ht hd hno, discardParts]
  case curatorRefused =>
    obtain ⟨f, h⟩ := exec_roomRow he hr
    rw [h, roomCmd_refused hd hno]
  have ho : roomOpen s := ⟨hd, hv, hp⟩
  refine ⟨fun hr hwide hlo hhi => ⟨fun hact hend halign hfree => ?assign, fun i hi hat => ?assigned⟩, fun hr => ?release, fun hr => ?reseal,
    fun ht => ⟨fun hr hmsg hc => ?noMessage, fun b k hr hmsg hkey hk hc => ⟨fun hf => ?updateQueues, fun u hu => ?update⟩,
      fun hr hc => ?destroy, fun hr => ?slotQuery, fun hr => exec_slotCounter hr ht ho,
      fun hr => ⟨fun hf => exec_slotTransportKeys_queues hr ht ho ok hf, fun u hu => exec_slotTransportKeys_of_ops hr ht ho ok hu⟩⟩⟩
  case assign =>
    have e := exec_slotAssign hr ho
    simp only [decide_eq_true_eq] at hend halign hfree ⊢
    dsimp only at e
    generalize hn : (if c.p 5 1 = 1 then 16 * c.p 3 2 else c.p 3 2) = n at e hend hfree ⊢
    have hany : ((List.range n).any fun i => (mapEnt s (c.p 1 2 + i)).assigned) = false := by simpa using hfree
    rw [hany, if_neg (by simp [hact]; omega)] at e
    refine ⟨fun hq => ⟨_, e.trans (by rw [if_neg (by omega)]), fun i hi => ?_⟩, fun hq => by rw [e, if_pos hq, discardParts]⟩
    refine slotsAssigned_spec (discardParts s c.gal) (c.p 0 1) (fun hw => ?_) hi
    have hw : c.p 5 1 = 1 := by simpa using hw
    exact ⟨halign hw, by rw [← hn, if_pos hw]; omega⟩
  case assigned =>
    have e := exec_slotAssign hr ho
    simp only [decide_eq_true_eq] at hi
    rw [e, if_pos, discardParts]
    simp only [Bool.or_eq_true, List.any_eq_true, List.mem_range]
    exact .inr ⟨i, hi, hat⟩
  case release =>
    have e := exec_slotRelease hr ho
    dsimp only at e
    rw [lt_or_not_eq_not_le_and] at e
    refine ⟨fun h => ?_, fun h => ?_⟩
    · rw [h, if_neg (by decide)] at e
      exact ⟨_, e, fun h k => copyOf_slotsReleased _ _ h k,
        fun i hi => assigned_slotsReleased _ (List.mem_map.2 ⟨i, List.mem_range.2 hi, rfl⟩)⟩
    · rw [e, h, if_pos (by decide), discardParts]
  case reseal =>
    have e := exec_slotReseal hr ho
    dsimp only at e
    refine ⟨fun hre hov hroot => ?_, fun h => ?_⟩
    · rw [if_neg (by simp [hre, hov, hroot])] at e
      exact ⟨_, e, resealBegun_spec _⟩
    · rw [e, if_pos (by simpa [or_assoc] using h), discardParts]
  case noMessage =>
    subst hmsg
    exact exec_slotUpdate_of_noMessage hr ht ho hc key
  case updateQueues =>
    subst hmsg hkey
    exact exec_slotUpdate_queues hr ht ho b (some k) hf
  case update =>
    subst hmsg hkey
    refine ⟨_, exec_slotUpdate_of_ops hr ht ho hc hk b k hu, ?_⟩
    split
    next n st h => exact sumAnswer_of_failed rfl h
    next h => exact fun hop htot hw => sumAnswer_of_passed rfl h ▸ sumApply_recorded h hop htot hw rfl
  case destroy =>
    have e := exec_slotDestroy hr ht ho hc
    dsimp only at e
    refine ⟨fun h => ?_, fun ⟨has, hown⟩ hm => ?_, fun ⟨has, hown⟩ hm hsingle => ?_⟩
    · rw [e, if_pos ((notOwned_iff _ _).2 h), discardParts]
    · rw [e, if_neg (by simp [has, hown]), if_pos hm, discardParts]
    · have hdual : ((recNow s (c.p 0 2)).any fun r => r.alg ≠ 0 && dualControl r.attr) = false := by
        cases hrec : recNow s (c.p 0 2) with
        | none => rfl
        | some r => rcases hsingle r hrec with h | h <;> simp [h]
      rw [if_neg (by simp [has, hown]), if_neg (by simp [hm]), if_neg (Bool.eq_false_iff.1 hdual)] at e
      refine ⟨fun hst => by rw [e, if_pos (by simp [hst]), discardParts], fun hst hpair => ?_⟩
      rw [if_neg (by simp [hst])] at e
      exact ⟨_, e, slotDestroyed_spec (s := discardParts s c.gal) hpair (c.p 0 2)⟩
  case slotQuery =>
    have e := exec_slotQuery hr ht ho ok
    dsimp only at e
    refine ⟨fun h => ?_, fun ⟨has, hown⟩ r hrec => ?_⟩
    · rw [e, if_pos ((notOwned_iff _ _).2 h), discardParts]
    · rw [e, if_neg (by simp [has, hown]), hrec]
      rfl

end Sys2Proof.Machine

/-!
PROOFS. The end of ceremonies (R336, R340): what it erases and what it leaves as it was.
-/
namespace Sys2Proof.Machine

/-! ### Elements of a list, entries of a table -/

theorem lt_length_of_nth_eq_some {α : Type} {l : List (Option α)} {i : Nat} {x : α} (h : nth none l i = some x) : i < l.length := by
  induction l generalizing i with
  | nil => exact nomatch h
  | cons a t ih =>
    cases i with
    | zero => exact Nat.zero_lt_succ _
    | succ i => exact Nat.succ_lt_succ (ih h)

theorem nth_setNth_same {α : Type} (d : α) {l : List α} {i : Nat} (h : i < l.length) (b : α) : nth d (setNth l i b) i = b := by
  rw [nth_setNth, if_pos ⟨rfl, h⟩]

/-- A change of every entry changes entry `k`, when it keeps the default and does not make the entry the default. -/
theorem Tab.get_mapAll {α : Type} [DecidableEq α] {d : α} {f : Nat → α → α} (t : Tab α) {k : Nat} (hd : f k d = d)
    (h : f k (t.get d k) ≠ d) : (t.mapAll d f).get d k = f k (t.get d k) := by
  induction t with
  | nil => exact absurd hd h
  | cons e t ih =>
    obtain ⟨j, a⟩ := e
    by_cases hj : j = k
    · subst hj
      simp only [Tab.get, if_true] at h ⊢
      rw [Tab.mapAll, if_neg h, Tab.get, if_pos rfl]
    · simp only [Tab.get, if_neg hj] at h ⊢
      rw [Tab.mapAll]
      split
      · exact ih h
      · rw [Tab.get, if_neg hj, ih h]

/-! ### Completions of admin commands -/

/-- From `s` to `t` admin commands have completed: the admin unit and the hold of completion queues have changed alone. -/
def onlyCompletes (s t : State) : Prop := (∃ a q, t = { s with adm := a, cqs := q }) ∧ ∀ k, (cq t k).exist = (cq s k).exist

theorem onlyCompletes_refl (s : State) : onlyCompletes s s := ⟨⟨s.adm, s.cqs, rfl⟩, fun _ => rfl⟩

theorem onlyCompletes_trans {s t u : State} (h : onlyCompletes s t) (k : onlyCompletes t u) : onlyCompletes s u := by
  obtain ⟨⟨a, q, rfl⟩, hx⟩ := h
  obtain ⟨⟨a', q', rfl⟩, hx'⟩ := k
  exact ⟨⟨a', q', rfl⟩, fun k => (hx' k).trans (hx k)⟩

theorem onlyCompletes_foldl {α : Type} {f : State → α → State} (hf : ∀ t a, onlyCompletes t (f t a)) (l : List α) (s : State) :
    onlyCompletes s (l.foldl f s) :=
  List.foldlRecOn l f (onlyCompletes_refl s) fun t ht a _ => onlyCompletes_trans ht (hf t a)

theorem cq_exist_produceAdmin (s : State) (c : AdminCmd) (h : Held) (k : Nat) :
    (cq (produceAdmin s c h) k).exist = (cq s k).exist := by
  have hs : standing (produceAdmin s c h) = standing s := by
    unfold produceAdmin
    dsimp only
    split
    · exact standing_produce ..
    · refine (standing_updCq _ _ (by exact fun _ => rfl)).trans ?_
      split
      · exact standing_release ..
      · rfl
  exact congrFun (congrArg Standing.cq hs) k

theorem onlyCompletes_completeAdmin (s : State) (c : AdminCmd) (st : Status) (detail n : Nat) (b : Bytes) :
    onlyCompletes s (completeAdmin s c st detail n b) := by
  obtain ⟨q, e⟩ := produceAdmin_frame s c _
  exact ⟨⟨_, q, e⟩, cq_exist_produceAdmin s c _⟩

/-! ### The end of a ceremony (R336, R340) -/

/-- The ceremony in register `k` is erased, with its Reliquary line and the shares under the line's key. -/
def ceremonyErased (s : State) (k : Nat) : State :=
  updSrm (updCus (dropShares s (24 + k)) fun u => { u with cer := setNth u.cer k none, event := u.event ||| 8 }) fun r =>
    { r with lines := r.lines.put [] (24 + k) [] }

/-- The commands that wait for the ceremony fail. -/
theorem endCeremony_of_some {s : State} {k : Nat} {x : Ceremony} (h : nth none s.cus.cer k = some x) :
    onlyCompletes (ceremonyErased s k) (endCeremony s k) := by
  unfold endCeremony
  rw [h]
  exact onlyCompletes_foldl (fun t a => onlyCompletes_completeAdmin t a _ _ _ _) _ _

/-- From `s` to `t` ceremonies have lost uses or ended, and commands have completed. -/
def onlyEnds (s t : State) : Prop :=
  (∃ p e v l a q, t = { s with
    cus := { s.cus with ports := p, cer := e, event := v }, srm := { s.srm with lines := l }, adm := a, cqs := q }) ∧
    ∀ k, (cq t k).exist = (cq s k).exist

theorem onlyEnds_refl (s : State) : onlyEnds s s := ⟨⟨_, _, _, _, _, _, rfl⟩, fun _ => rfl⟩

theorem onlyEnds_trans {s t u : State} (h : onlyEnds s t) (k : onlyEnds t u) : onlyEnds s u := by
  obtain ⟨⟨p, e, v, l, a, q, rfl⟩, hx⟩ := h
  obtain ⟨⟨p', e', v', l', a', q', rfl⟩, hx'⟩ := k
  exact ⟨⟨p', e', v', l', a', q', rfl⟩, fun k => (hx' k).trans (hx k)⟩

theorem onlyEnds_of_onlyCompletes {s t : State} (h : onlyCompletes s t) : onlyEnds s t := by
  obtain ⟨⟨a, q, rfl⟩, hx⟩ := h
  exact ⟨⟨_, _, _, _, a, q, rfl⟩, hx⟩

theorem onlyEnds_foldl {α : Type} {f : State → α → State} (hf : ∀ t a, onlyEnds t (f t a)) (l : List α) (s : State) :
    onlyEnds s (l.foldl f s) :=
  List.foldlRecOn l f (onlyEnds_refl s) fun t ht a _ => onlyEnds_trans ht (hf t a)

theorem onlyEnds_ceremonyErased (s : State) (k : Nat) : onlyEnds s (ceremonyErased s k) :=
  ⟨⟨_, _, _, _, s.adm, s.cqs, rfl⟩, fun _ => rfl⟩

theorem onlyEnds_setCer (s : State) (e : List (Option Ceremony)) : onlyEnds s (updCus s fun u => { u with cer := e }) :=
  ⟨⟨_, e, _, _, s.adm, s.cqs, rfl⟩, fun _ => rfl⟩

theorem onlyEnds_endCeremony (s : State) (k : Nat) : onlyEnds s (endCeremony s k) := by
  cases h : nth none s.cus.cer k with
  | none =>
    have e : endCeremony s k = s := by rw [endCeremony, h]
    rw [e]
    exact onlyEnds_refl s
  | some x => exact onlyEnds_trans (onlyEnds_ceremonyErased s k) (onlyEnds_of_onlyCompletes (endCeremony_of_some h))

section
variable {s : State} {k : Nat} {x : Ceremony}

theorem cer_endCeremony (h : nth none s.cus.cer k = some x) : (endCeremony s k).cus.cer = setNth s.cus.cer k none := by
  obtain ⟨⟨a, q, e⟩, -⟩ := endCeremony_of_some h
  rw [e]
  rfl

theorem nth_cer_endCeremony (h : nth none s.cus.cer k = some x) : nth none (endCeremony s k).cus.cer k = none := by
  rw [cer_endCeremony h, nth_setNth_same none (lt_length_of_nth_eq_some h)]

theorem lines_endCeremony (h : nth none s.cus.cer k = some x) (l : Nat) :
    (endCeremony s k).srm.lines.get [] l = if l = 24 + k then [] else s.srm.lines.get [] l := by
  obtain ⟨⟨a, q, e⟩, -⟩ := endCeremony_of_some h
  rw [e]
  exact Tab.get_put [] s.srm.lines (24 + k) [] l

theorem event_endCeremony (h : nth none s.cus.cer k = some x) : (endCeremony s k).cus.event = s.cus.event ||| 8 := by
  obtain ⟨⟨a, q, e⟩, -⟩ := endCeremony_of_some h
  rw [e]
  rfl

end

section
variable {s t : State} (h : onlyEnds s t)
include h

theorem commit_of_onlyEnds : t.cus.commit = s.cus.commit := by
  obtain ⟨⟨p, e, v, l, a, q, rfl⟩, -⟩ := h; rfl

theorem run_of_onlyEnds : t.cus.run = s.cus.run := by
  obtain ⟨⟨p, e, v, l, a, q, rfl⟩, -⟩ := h; rfl

theorem installed_of_onlyEnds : t.cus.installed = s.cus.installed := by
  obtain ⟨⟨p, e, v, l, a, q, rfl⟩, -⟩ := h; rfl

theorem arc_of_onlyEnds : t.arc = s.arc := by
  obtain ⟨⟨p, e, v, l, a, q, rfl⟩, -⟩ := h; rfl

theorem queuePair_of_onlyEnds {k gen : Nat} (hp : queuePair s k gen) : queuePair t k gen := by
  obtain ⟨⟨p, e, v, l, a, q, rfl⟩, hx⟩ := h
  obtain ⟨hsq, hgen, hcq⟩ := hp
  exact ⟨hsq, hgen, (hx _).trans hcq⟩

end

end Sys2Proof.Machine

/-!
PROOFS. Custodian cards (R319 to R324, R329, R337, R601): the rules of a card port's operations, what each step of a card's session
does.
-/
namespace Sys2Proof.Machine

/-! ### Reading a card port -/

@[simp] theorem card_setCard_same (s : State) (n : Nat) (p : CardPort) : card (setCard s n p) n = p :=
  Tab.get_put_same ({} : CardPort) s.cus.ports n p

theorem card_setCard_ne (s : State) {n m : Nat} (h : m ≠ n) (p : CardPort) : card (setCard s n p) m = card s m :=
  Tab.get_put_ne ({} : CardPort) s.cus.ports h p

@[simp] theorem card_updCard_same (s : State) (n : Nat) (f : CardPort → CardPort) : card (updCard s n f) n = f (card s n) :=
  card_setCard_same s n _

theorem card_updCard_ne (s : State) {n m : Nat} (h : m ≠ n) (f : CardPort → CardPort) : card (updCard s n f) m = card s m :=
  card_setCard_ne s h _

theorem card_of_ports {s t : State} (h : t.cus.ports = s.cus.ports) (n : Nat) : card t n = card s n := by rw [card, h, card]

@[simp] theorem card_sendCard (s : State) (n : Nat) (b : Bytes) (m : Nat) : card (sendCard s n b) m = card s m := rfl

@[simp] theorem card_emitPins (s : State) (n : Nat) (l : List CardPin) (m : Nat) : card (emitPins s n l) m = card s m := rfl

/-! ### What operations on card ports may change -/

/-- From `s` to `t` the card ports and the part's outputs have changed alone. -/
def onlyPorts (s t : State) : Prop := ∃ p o, t = { s with cus := { s.cus with ports := p }, out := o }

theorem onlyPorts_refl (s : State) : onlyPorts s s := ⟨s.cus.ports, s.out, rfl⟩

theorem onlyPorts_trans {s t u : State} (h : onlyPorts s t) (k : onlyPorts t u) : onlyPorts s u := by
  obtain ⟨p, o, rfl⟩ := h
  obtain ⟨p', o', rfl⟩ := k
  exact ⟨p', o', rfl⟩

theorem onlyPorts_foldl {α : Type} {f : State → α → State} (hf : ∀ t a, onlyPorts t (f t a)) (l : List α) (s : State) :
    onlyPorts s (l.foldl f s) :=
  List.foldlRecOn l f (onlyPorts_refl s) fun t ht a _ => onlyPorts_trans ht (hf t a)

theorem onlyPorts_setCard (s : State) (n : Nat) (p : CardPort) : onlyPorts s (setCard s n p) := ⟨_, s.out, rfl⟩

theorem deactivate_frame (s : State) (n : Nat) : ∃ o, deactivate s n = { s with out := o } := by
  unfold deactivate
  split
  · exact ⟨_, rfl⟩
  · exact ⟨s.out, rfl⟩

@[simp] theorem cus_deactivate (s : State) (n : Nat) : (deactivate s n).cus = s.cus := by
  obtain ⟨o, e⟩ := deactivate_frame s n
  rw [e]

@[simp] theorem card_deactivate (s : State) (n m : Nat) : card (deactivate s n) m = card s m :=
  card_of_ports (congrArg Custodians.ports (cus_deactivate s n)) m

theorem onlyPorts_deactivate (s : State) (n : Nat) : onlyPorts s (deactivate s n) := by
  obtain ⟨o, e⟩ := deactivate_frame s n
  exact ⟨s.cus.ports, o, e⟩

theorem onlyPorts_activate (s : State) (n : Nat) (b : Bool) : onlyPorts s (activate s n b) :=
  onlyPorts_trans (onlyPorts_deactivate s n) ⟨_, _, rfl⟩

theorem onlyPorts_cardError (s : State) (n r : Nat) : onlyPorts s (cardError s n r) :=
  onlyPorts_trans (onlyPorts_deactivate s n) (onlyPorts_setCard _ n _)

theorem cusFrame_of_onlyPorts {s t : State} (h : onlyPorts s t) : ∃ p, t.cus = { s.cus with ports := p } := by
  obtain ⟨p, o, rfl⟩ := h
  exact ⟨p, rfl⟩

/-! ### Activation, errors, refusal (R320, R324) -/

@[simp] theorem card_activate_same (s : State) (n : Nat) (b : Bool) :
    card (activate s n b) n = { state := .activating, power := true, waits := .power, present := true, noPps1 := b } :=
  card_setCard_same _ n _

theorem card_activate_ne (s : State) {n m : Nat} (h : m ≠ n) (b : Bool) : card (activate s n b) m = card s m :=
  (card_setCard_ne _ h _).trans (card_deactivate s n m)

@[simp] theorem card_cardError_same (s : State) (n r : Nat) :
    card (cardError s n r) n = { state := .error, reason := BitVec.ofNat 4 r, present := (card s n).present } := by
  rw [cardError, card_updCard_same, card_deactivate]

theorem card_cardError_ne (s : State) {n m : Nat} (h : m ≠ n) (r : Nat) : card (cardError s n r) m = card s m :=
  (card_updCard_ne _ h _).trans (card_deactivate s n m)

theorem toNat_satInc31 (c : BitVec 31) : (satInc31 c).toNat = Nat.min (2 ^ 31 - 1) (c.toNat + 1) := by
  unfold satInc31
  have hlt := c.isLt
  split
  next h => simp [h]
  next h =>
    have hne : c.toNat ≠ 2 ^ 31 - 1 := fun e => h (BitVec.eq_of_toNat_eq (by simpa using e))
    have hadd : (c + 1).toNat = (c.toNat + 1) % 2 ^ 31 := BitVec.toNat_add c 1
    rw [hadd, Nat.mod_eq_of_lt (by omega)]
    exact (Nat.min_eq_right (by omega)).symm

/-- The card in port `n` is refused with reason `r`, deactivated and counted (R324). -/
def cardRefused (s t : State) (n : Nat) (r : BitVec 4) : Prop :=
  (card t n).state = .refused ∧ (card t n).reason = r ∧ (card t n).power = false ∧
    t.cus.refused.toNat = Nat.min (2 ^ 31 - 1) (s.cus.refused.toNat + 1)

theorem cardRefused_refuseCard (s : State) (n r : Nat) : cardRefused s (refuseCard s n r) n (BitVec.ofNat 4 r) := by
  have hcard : card (refuseCard s n r) n = _ := card_updCard_same _ n _
  have hcount : (refuseCard s n r).cus.refused = satInc31 s.cus.refused :=
    congrArg (fun u : Custodians => satInc31 u.refused) (cus_deactivate s n)
  rw [cardRefused, hcard, hcount, toNat_satInc31]
  exact ⟨rfl, rfl, rfl, rfl⟩

/-! ### Blocks (R319, R322, R323) -/

/-- Block `b` leaves for the card in port `n`. -/
def cardSent (s t : State) (n : Nat) (b : Bytes) : Prop := t.out.card = s.out.card ++ [(n, b)]

@[simp] theorem card_sendIfs_same (s : State) (n : Nat) : card (sendIfs s n) n = { card s n with waits := .ifs, attempts := 0 } := by
  simp [sendIfs]

theorem cardSent_sendIfs (s : State) (n : Nat) : cardSent s (sendIfs s n) n (cardBlock 0xC1 [254]) := rfl

@[simp] theorem card_sendApdu_same (s : State) (n : Nat) (b : Bytes) :
    card (sendApdu s n b) n = { card s n with tx := b, txPos := 0, rx := [], attempts := 0, waits := .apdu (nth 0 b 1) } := by
  rw [sendApdu, sendChunk, card_sendCard, card_updCard_same]

/-- An APDU that fits into the card's information field leaves as one block. -/
theorem cardSent_sendApdu {s : State} {n : Nat} {b : Bytes} (h : b.length ≤ (card s n).ifsc.toNat) :
    cardSent s (sendApdu s n b) n (cardBlock (if (card s n).ns then 0x40 else 0) b) := by
  have hpcb : BitVec.ofNat 8 (64 * b2n (card s n).ns + 32 * b2n false) = if (card s n).ns then 0x40 else 0 := by
    cases (card s n).ns <;> rfl
  have hm : decide (b.length > (card s n).ifsc.toNat) = false := by simpa using h
  rw [sendApdu, sendChunk, card_updCard_same]
  dsimp only
  rw [List.drop_zero, hm, hpcb, List.take_of_length_le h]
  rfl

theorem cardSent_sendR_error (s : State) (n : Nat) :
    cardSent s (sendR s n 1) n (cardBlock (if (card s n).nr then 0x91 else 0x81) []) := by
  have hpcb : BitVec.ofNat 8 (0x80 + 16 * b2n (card s n).nr + 1) = if (card s n).nr then 0x91 else 0x81 := by
    cases (card s n).nr <;> rfl
  rw [sendR, hpcb]
  rfl

/-- A block that is missing or bad is asked for again, at the first and second attempt (R323). -/
theorem badBlock_asksAgain {s : State} {n : Nat} (h : (card s n).attempts < 2) :
    badBlock s n false = sendR (updCard s n fun p => { p with attempts := p.attempts + 1, wtx := 0 }) n 1 := by
  simp [badBlock, h]

theorem gotIfs_answers {s : State} {n : Nat} {size : Byte} (hlo : 16 ≤ size.toNat) (hhi : size.toNat ≤ 254) :
    gotIfs s n size = sendCard (updCard s n fun p => { p with ifsc := size, attempts := 0 }) n (cardBlock 0xE1 [size]) := by
  simp [gotIfs, hlo, hhi]

theorem selectApplet_spec {s : State} {n : Nat} (h : 16 ≤ (card s n).ifsc.toNat) :
    let t := selectApplet s n
    (card t n).state = .authenticating ∧ (card t n).waits = .apdu 0xA4 ∧
      cardSent s t n (cardBlock (if (card s n).ns then 0x40 else 0) ([0x00, 0xA4, 0x04, 0x00, 7] ++ aidBytes)) := by
  have hs : cardSent (updCard s n fun p => { p with state := .authenticating }) (selectApplet s n) n _ :=
    cardSent_sendApdu (by rw [card_updCard_same]; exact Nat.le_trans (by decide) h)
  rw [card_updCard_same] at hs
  exact ⟨by simp [selectApplet], by simp [selectApplet, nth], hs⟩

/-- A second bad answer refuses the card, a first one brings a warm reset (R321). -/
theorem badAtr_refuses {s : State} {n : Nat} (h : (card s n).retried = true) (r : Nat) :
    cardRefused s (badAtr s n r) n (BitVec.ofNat 4 r) := by
  rw [badAtr, if_pos h]
  exact cardRefused_refuseCard s n r

theorem card_badAtr_of_first {s : State} {n : Nat} (h : (card s n).retried = false) (r : Nat) :
    card (badAtr s n r) n = { card s n with retried := true, waits := .atr } := by
  rw [badAtr, if_neg (by simp [h]), card_emitPins, card_updCard_same]

/-! ### Detection, answer to reset, PPS (R319 to R322) -/

section
variable {s : State} {port : Fin 16} (hl : cardLive s port.val = true)
include hl

theorem exec_cardDetect_powers (hp : (card s port.val).present = false) (hv : s.pwr.vcardOk = true) :
    exec (.cardDetect port) s = .next (activate (periphPort (cusEvent s 1)) port.val false) := by
  change execCardDetect port s = _
  dsimp only [execCardDetect]
  rw [if_neg (by simp [hl, hp]), if_pos (by exact hv)]

omit hl in
theorem exec_cardDetect_of_present (hp : (card s port.val).present = true) : exec (.cardDetect port) s = .next s := by
  change execCardDetect port s = _
  simp [execCardDetect, hp]

theorem exec_cardPowerTimeout_of_waits (hw : (card s port.val).waits = .power) :
    exec (.cardPowerTimeout port) s = .next (cardError s port.val 11) := by
  change execCardPowerTimeout port s = _
  simp [execCardPowerTimeout, hl, hw]

omit hl in
theorem exec_cardPowerTimeout_of_not (hw : (card s port.val).waits ≠ .power) : exec (.cardPowerTimeout port) s = .next s := by
  change execCardPowerTimeout port s = _
  simp [execCardPowerTimeout, hw]

section
variable (hw : (card s port.val).waits = .atr)
include hw

theorem exec_cardAtr_of_fault {a : Atr} {r : Nat} (hf : atrFault s a = some r) :
    exec (.cardAtr port a) s = .next (badAtr s port.val r) := by
  change execCardAtr port a s = _
  simp [execCardAtr, hl, hw, waitsAtr, hf]

theorem exec_cardAtr_sendsIfs {a : Atr} (hf : atrFault s a = none) (ht : a.ta1 = none) :
    exec (.cardAtr port a) s = .next (sendIfs (updCard s port.val fun p => { p with ifsc := a.ta3 }) port.val) := by
  change execCardAtr port a s = _
  simp [execCardAtr, hl, hw, waitsAtr, hf, ht]

/-- The card offers a TA1 that the part supports: PPS asks for it. -/
theorem exec_cardAtr_asksPps {a : Atr} {v : Byte} (hf : atrFault s a = none) (ht : a.ta1 = some v) (hs : a.specific = false)
    (hok : ta1Ok v = true) (hn : (card s port.val).noPps1 = false) :
    ∃ t, exec (.cardAtr port a) s = .next t ∧ (card t port.val).waits = .pps ∧ cardSent s t port.val (ppsRequest (some v)) := by
  refine ⟨sendCard (updCard (updCard s port.val fun p => { p with ifsc := a.ta3 }) port.val fun p =>
    { p with waits := .pps, offered := some v }) port.val (ppsRequest (some v)), ?_, by simp, rfl⟩
  change execCardAtr port a s = _
  simp [execCardAtr, hl, hw, waitsAtr, hf, ht, hs, hok, hn]

theorem exec_cardAtrTimeout_of_waits : exec (.cardAtrTimeout port) s = .next (badAtr s port.val 1) := by
  change execCardAtrTimeout port s = _
  simp [execCardAtrTimeout, hl, hw, waitsAtr]

end

theorem exec_cardPpsResponse_of_waits (hw : (card s port.val).waits = .pps) (echoed : Bool) :
    exec (.cardPpsResponse port echoed) s = .next (gotPps s port.val echoed) := by
  change execCardPpsResponse port echoed s = _
  simp [execCardPpsResponse, hl, hw]

/-! ### Blocks and APDUs of a card in activation (R322, R323, R325) -/

section
variable (hw : (card s port.val).waits = .ifs) (hk : cardWorking s port.val = false)
include hw hk

theorem exec_cardBlockReceived_ifsRequest (size : Byte) :
    exec (.cardBlockReceived port (.ifsRequest size)) s = .next (gotIfs s port.val size) := by
  change execCardBlockReceived port (.ifsRequest size) s = _
  simp [execCardBlockReceived, hl, hw, hk, waitsBlock]

theorem exec_cardBlockReceived_ifsResponse :
    exec (.cardBlockReceived port (.ifsResponse 254)) s = .next (selectApplet s port.val) := by
  change execCardBlockReceived port (.ifsResponse 254) s = _
  simp [execCardBlockReceived, hl, hw, hk, waitsBlock]

theorem exec_missingBlock {i : Instr} (hi : i ∈ [Instr.cardWaitTimeExpiry port, .cardBlockReceived port .invalid]) :
    exec i s = .next (badBlock s port.val false) := by
  simp only [List.mem_cons, List.not_mem_nil, or_false] at hi
  rcases hi with rfl | rfl
  · change execCardWaitTimeExpiry port s = _
    simp [execCardWaitTimeExpiry, hl, hw, hk, waitsBlock]
  · change execCardBlockReceived port .invalid s = _
    simp [execCardBlockReceived, hl, hw, hk, waitsBlock]

end

section
variable (hw : (card s port.val).waits = .apdu 0xA4) (hr : (card s port.val).rx = [])
include hw hr

theorem exec_cardApduResponse_selected (data : Bytes) :
    exec (.cardApduResponse port data 0x9000) s = .next (sendApdu s port.val [0x80, 0x10, 0x00, 0x00, 249]) := by
  change execCardApduResponse port data 0x9000 s = _
  simp [execCardApduResponse, hl, hw, hr]

theorem exec_cardApduResponse_refused (data : Bytes) {sw : BitVec 16} (hsw : sw ≠ 0x9000) :
    exec (.cardApduResponse port data sw) s = .next (refuseCard s port.val 8) := by
  change execCardApduResponse port data sw s = _
  dsimp only [execCardApduResponse]
  rw [if_neg (by simp [hl, hr]), hw]
  dsimp only
  rw [if_pos hsw]

end

end

/-! ### The holder is asked again (R329) -/

section
variable {s : State} {port : Fin 16}

theorem exec_holderRecheck_waits (h : s.gen.a.toNat < (card s port.val).holderTick + 1000000 ∨ drbgReady s 2 = false) :
    exec (.holderRecheck port) s = .next s := by
  change execHolderRecheck port s = _
  dsimp only [execHolderRecheck]
  rw [if_pos (by rcases h with h | h <;> simp [tick, h])]

theorem exec_holderRecheck_of_due (hl : cardLive s port.val = true) (hst : (card s port.val).state = .waitHolder)
    (ht : (card s port.val).holderTick + 1000000 ≤ s.gen.a.toNat) (hd : drbgReady s 2 = true) :
    exec (.holderRecheck port) s = .next (
      if runWants s port.val || cerWants s port.val then
        reserveOp s (cardOwner port.val (card s port.val).challenge) [78] none fun s => authenticate s port.val
      else park s port.val .ready) := by
  have hdue : decide (tick s < (card s port.val).holderTick + 1000000) = false := decide_eq_false (Nat.not_lt.2 ht)
  change execHolderRecheck port s = _
  dsimp only [execHolderRecheck]
  rw [if_neg (by simp [hl, hst, hd, hdue])]

end

/-- The card gets a fresh challenge and answers for itself and its holder (step 2 of R327). -/
theorem card_authenticate (s : State) (n : Nat) :
    let t := authenticate s n
    (card t n).state = .authenticating ∧ (card t n).challenge = freeBytesAt s 1 32 ∧ (card t n).waits = .apdu 0x12 := by
  simp [authenticate, nth]

/-! ### Shares join a ceremony (R337, R338) -/

/-- The card in port `n` has given its share. -/
def shareTaken (s : State) (n : Nat) : State :=
  updCard s n fun p => { p with state := .done, share := [], setId := [], shareLine := 0 }

/-- The share of the card in port `n`, enciphered under the key of ceremony `k` (R336). -/
def shareFor (s : State) (n k : Nat) : Bytes :=
  let p := card s n
  if p.shareLine = 24 + k then p.share else lineCipher s (24 + k) (cardIndex p) (lineCipher s p.shareLine (cardIndex p) p.share)

/-- The secret that the shares of ceremony `k` give. -/
def joinedSecret (s : State) (k : Nat) (shares : List (Nat × Bytes)) : Bytes :=
  shamirJoin (shares.map fun e => (e.1, lineCipher s (24 + k) e.1 e.2))

/-- The ceremony with its M shares, complete: its secret stays, enciphered under its key (R336). -/
def completeWith (s : State) (k : Nat) (x : Ceremony) : Ceremony :=
  { x with complete := true, shares := [], secret := lineCipher s (24 + k) 0 (joinedSecret s k x.shares) }

section
variable {s : State} {k : Nat} {x : Ceremony}

theorem judge_of_few (h : x.shares.length < s.cus.m) : judge s k x = s := if_pos h

theorem judge_of_match (h : ¬x.shares.length < s.cus.m) (hc : commitment (joinedSecret s k x.shares) = s.cus.commit) :
    onlyCompletes (cusEvent (updCus s fun u => { u with cer := setNth u.cer k (some (completeWith s k x)) }) 4) (judge s k x) := by
  rw [judge, if_neg h]
  dsimp only
  rw [if_pos (by exact hc)]
  exact onlyCompletes_foldl (fun t a => onlyCompletes_completeAdmin t a _ _ _ _) _ _

theorem judge_of_mismatch (h : ¬x.shares.length < s.cus.m) (hc : commitment (joinedSecret s k x.shares) ≠ s.cus.commit) :
    judge s k x = endCeremony (updCus s fun u => { u with refused := satInc31 u.refused }) k := by
  rw [judge, if_neg h]
  exact if_neg hc

theorem card_of_onlyCompletes {s t : State} (h : onlyCompletes s t) (n : Nat) : card t n = card s n := by
  obtain ⟨⟨a, q, rfl⟩, -⟩ := h
  rfl

/-- A card that holds no share of ceremony `k` is as it was when the ceremony ends. -/
theorem card_endCeremony {n : Nat} (h : nth none s.cus.cer k = some x) (hl : (card s n).shareLine = 0) (hne : card s n ≠ {}) :
    card (endCeremony s k) n = card s n := by
  have hkeep : ∀ p : CardPort, p.shareLine = 0 →
      (if p.shareLine = 24 + k then { p with share := [], setId := [], shareLine := 0 } else p) = p := fun p hp =>
    if_neg (by omega)
  rw [card_of_onlyCompletes (endCeremony_of_some h)]
  exact (Tab.get_mapAll s.cus.ports (hkeep {} rfl) fun e => hne ((hkeep _ hl).symm.trans e)).trans (hkeep _ hl)

/-- The judgement of a ceremony leaves the card whose share has been taken. -/
theorem card_judge {n : Nat} (h : nth none s.cus.cer k = some x) (hl : (card s n).shareLine = 0) (hne : card s n ≠ {}) :
    card (judge s k x) n = card s n := by
  by_cases hlen : x.shares.length < s.cus.m
  · rw [judge_of_few hlen]
  · by_cases hc : commitment (joinedSecret s k x.shares) = s.cus.commit
    · exact card_of_onlyCompletes (judge_of_match hlen hc) n
    · rw [judge_of_mismatch hlen hc]
      exact card_endCeremony (s := updCus s _) h hl hne

/-- With fewer than M shares the ceremony waits for more; M shares complete it, or end it when their secret is another (R338). -/
theorem nth_cer_judge (h : nth none s.cus.cer k = some x) :
    let t := judge s k x
    if x.shares.length < s.cus.m then nth none t.cus.cer k = some x
    else if commitment (joinedSecret s k x.shares) = s.cus.commit then nth none t.cus.cer k = some (completeWith s k x)
    else nth none t.cus.cer k = none := by
  dsimp only
  split
  next hlen => rw [judge_of_few hlen, h]
  next hlen =>
    split
    next hc =>
      obtain ⟨⟨a, q, e⟩, -⟩ := judge_of_match hlen hc
      rw [e]
      exact nth_setNth_same none (lt_length_of_nth_eq_some h) _
    next hc =>
      rw [judge_of_mismatch hlen hc]
      exact nth_cer_endCeremony (s := updCus s _) h

end

section
variable {s : State} {port : Fin 16}

theorem exec_shareGiven_of_noShare (h : (card s port.val).share = []) : exec (.shareGiven port) s = .next s := by
  change execShareGiven port s = _
  simp [execShareGiven, h]

/-- The state in which ceremony `k` has become `x` by the share of the card in port `n`. -/
def shareJoined (s : State) (n k : Nat) (x : Ceremony) : State :=
  updCus (shareTaken s n) fun u => { u with cer := setNth u.cer k (some x) }

theorem exec_shareGiven_joins (hl : cardLive s port.val = true) (hst : (card s port.val).state = .ready)
    (hsh : (card s port.val).share ≠ []) (hrun : s.cus.run = none) {k : Nat} {x : Ceremony}
    (hel : eligible s port.val (cardIndex (card s port.val)) = some k) (hx : nth none s.cus.cer k = some x) :
    let y := { x with shares := x.shares ++ [(cardIndex (card s port.val), shareFor s port.val k)] }
    exec (.shareGiven port) s = .next (judge (shareJoined s port.val k y) k y) := by
  intro y
  have hwant : runWants s port.val = false := by rw [runWants, hrun]; rfl
  change execShareGiven port s = _
  dsimp only [execShareGiven]
  rw [if_neg (by simp [hl, hst, hsh]), hwant, if_neg Bool.false_ne_true]
  dsimp only
  rw [hel]
  dsimp only
  rw [hx]
  rfl

theorem card_shareJoined (s : State) (n k : Nat) (x : Ceremony) :
    card (shareJoined s n k x) n = { card s n with state := .done, share := [], setId := [], shareLine := 0 } :=
  card_updCard_same s n fun p => { p with state := .done, share := [], setId := [], shareLine := 0 }

theorem nth_cer_shareJoined {k : Nat} {x : Ceremony} (h : nth none s.cus.cer k = some x) (n : Nat) (y : Ceremony) :
    nth none (shareJoined s n k y).cus.cer k = some y := nth_setNth_same none (lt_length_of_nth_eq_some h) _

theorem lineCipher_shareJoined (s : State) (n k : Nat) (x : Ceremony) : lineCipher (shareJoined s n k x) = lineCipher s := rfl

theorem joinedSecret_shareJoined (s : State) (n k : Nat) (x : Ceremony) : joinedSecret (shareJoined s n k x) = joinedSecret s := by
  unfold joinedSecret
  rw [lineCipher_shareJoined]

theorem completeWith_shareJoined (s : State) (n k : Nat) (x : Ceremony) : completeWith (shareJoined s n k x) = completeWith s := by
  unfold completeWith
  rw [lineCipher_shareJoined, joinedSecret_shareJoined]

/-- What a given share leaves of its card and of its ceremony. -/
theorem shareJoined_spec {n k : Nat} {x : Ceremony} (h : nth none s.cus.cer k = some x) (y : Ceremony) :
    let t := judge (shareJoined s n k y) k y
    (card t n).state = .done ∧ (card t n).share = [] ∧
      if y.shares.length < s.cus.m then nth none t.cus.cer k = some y
      else if commitment (joinedSecret s k y.shares) = s.cus.commit then nth none t.cus.cer k = some (completeWith s k y)
      else nth none t.cus.cer k = none := by
  intro t
  have hy := nth_cer_shareJoined h n y
  have hcard : card t n = { card s n with state := .done, share := [], setId := [], shareLine := 0 } := by
    rw [← card_shareJoined s n k y]
    refine card_judge hy ?_ fun e => ?_
    · rw [card_shareJoined]
    · rw [card_shareJoined] at e
      exact nomatch congrArg CardPort.state e
  have hcer := nth_cer_judge hy
  rw [joinedSecret_shareJoined, completeWith_shareJoined] at hcer
  rw [hcard]
  exact ⟨rfl, rfl, hcer⟩

end

/-! ### Removal and VCARD_IO (R324, R601) -/

/-- A card port that is live belongs to a part that runs, and is not disabled. -/
theorem runs_of_cardLive {s : State} {n : Nat} (h : cardLive s n = true) : s.pwr.phase ≠ .off ∧ (card s n).state ≠ .disabled := by
  simp only [cardLive, Bool.and_eq_true, bne_iff_ne] at h
  obtain ⟨⟨⟨hp, -⟩, hd⟩, -⟩ := h
  exact ⟨hp, hd⟩

theorem exec_cardRemoved_empties {s : State} {port : Fin 16} (hl : cardLive s port.val = true)
    (hp : (card s port.val).present = true) (hv : s.pwr.vcardOk = true) :
    exec (.cardRemoved port) s = .next (setCard (deactivate (periphPort (cusEvent s 2)) port.val) port.val {}) := by
  have hcard : card (periphPort (cusEvent s 2)) port.val = card s port.val := rfl
  have hpwr : (periphPort (cusEvent s 2)).pwr = s.pwr := rfl
  obtain ⟨-, hst⟩ := runs_of_cardLive hl
  change execCardRemoved port s = _
  dsimp only [execCardRemoved]
  rw [if_neg (by simp [hp]), hcard, hpwr, if_neg (by simpa using hst), if_neg (by simp [hv])]

/-- Steps that each change one card port, by what stands in it. -/
theorem card_foldl {f : State → Nat → State} {g : CardPort → CardPort} (hsame : ∀ t n, card (f t n) n = g (card t n))
    (hne : ∀ t n m, m ≠ n → card (f t n) m = card t m) {l : List Nat} (hl : l.Nodup) (s : State) (m : Nat) :
    card (l.foldl f s) m = if m ∈ l then g (card s m) else card s m := by
  induction l generalizing s with
  | nil => rfl
  | cons n l ih =>
    obtain ⟨hn, hl⟩ := List.nodup_cons.1 hl
    rw [List.foldl_cons, ih hl]
    by_cases hm : m = n
    · subst hm
      rw [if_neg hn, hsame, if_pos List.mem_cons_self]
    · simp only [hne s n m hm, List.mem_cons, hm, false_or]

/-- What stands in a card port outside the range of VCARD_IO. -/
def outOfRangePort (p : CardPort) : CardPort :=
  if p.state = .disabled then p else { state := .error, reason := 11, present := p.present }

def leaveRange (s : State) (n : Nat) : State := if (card s n).state == .disabled then s else cardError s n 11

theorem card_leaveRange_same (s : State) (n : Nat) : card (leaveRange s n) n = outOfRangePort (card s n) := by
  by_cases h : (card s n).state = .disabled
  · rw [leaveRange, if_pos (by simp [h]), outOfRangePort, if_pos h]
  · rw [leaveRange, if_neg (by simp [h]), outOfRangePort, if_neg h]
    exact card_cardError_same s n 11

theorem card_leaveRange_ne (s : State) (n m : Nat) (h : m ≠ n) : card (leaveRange s n) m = card s m := by
  unfold leaveRange
  split
  · rfl
  · exact card_cardError_ne s h 11

theorem onlyPorts_leaveRange (s : State) (n : Nat) : onlyPorts s (leaveRange s n) := by
  unfold leaveRange
  split
  · exact onlyPorts_refl s
  · exact onlyPorts_cardError s n 11

/-- What stands in a card port that an error of VCARD_IO closed, back in the range. -/
def inRangePort (p : CardPort) : CardPort :=
  if p.state = .error ∧ p.reason = 11 then
    if p.present then { state := .activating, power := true, waits := .power, present := true } else {}
  else p

def enterRange (s : State) (n : Nat) : State :=
  if (card s n).state == .error && (card s n).reason = 11 then
    if (card s n).present then activate s n false else setCard s n {}
  else s

theorem card_enterRange_same (s : State) (n : Nat) : card (enterRange s n) n = inRangePort (card s n) := by
  by_cases h : (card s n).state = .error ∧ (card s n).reason = 11
  · rw [enterRange, if_pos (by simpa using h), inRangePort, if_pos h]
    split
    · exact card_activate_same s n false
    · exact card_setCard_same s n {}
  · rw [enterRange, if_neg (by simpa using h), inRangePort, if_neg h]

theorem card_enterRange_ne (s : State) (n m : Nat) (h : m ≠ n) : card (enterRange s n) m = card s m := by
  unfold enterRange
  split
  · split
    · exact card_activate_ne s h false
    · exact card_setCard_ne s h {}
  · rfl

theorem onlyPorts_enterRange (s : State) (n : Nat) : onlyPorts s (enterRange s n) := by
  unfold enterRange
  split
  · split
    · exact onlyPorts_activate s n false
    · exact onlyPorts_setCard s n {}
  · exact onlyPorts_refl s

section
variable {s : State}

theorem pwr_of_onlyPorts {t : State} (h : onlyPorts s t) : t.pwr = s.pwr := by
  obtain ⟨p, o, rfl⟩ := h
  rfl

theorem exec_vcardIoOutOfRange_of_inRange (hph : s.pwr.phase ≠ .off) (hv : s.pwr.vcardOk = true) :
    exec .vcardIoOutOfRange s =
      .next ((List.range 16).foldl leaveRange (updPwr s fun p => { p with vcardOk := false })) := by
  change execVcardIoOutOfRange s = _
  rw [execVcardIoOutOfRange, if_neg (by simp [hph, hv])]
  rfl

theorem exec_vcardIoInRange_of_outOfRange (hv : s.pwr.vcardOk = false) :
    exec .vcardIoInRange s = .next ((List.range 16).foldl enterRange (updPwr s fun p => { p with vcardOk := true })) := by
  change execVcardIoInRange s = _
  rw [execVcardIoInRange, if_neg (by simp [hv])]
  rfl

theorem exec_vcardIoInRange_of_inRange (hv : s.pwr.vcardOk = true) : exec .vcardIoInRange s = .next s := by
  change execVcardIoInRange s = _
  rw [execVcardIoInRange, if_pos hv]

end

/-- Settles O40: each clause is one branch of its step (`exec_…`), with what the branch's operation leaves in the card port and
sends (`card_…`, `cardSent_…`); a recheck queues its Reserve operation or uses its result (`reserveOp_fresh`, `reserveOp_done`,
entry 38), and what a given share leaves of its ceremony is said by `shareJoined_spec`. -/
theorem cardSession : Obligations.CardSession := by
  unfold Obligations.CardSession
  intro s port a size data sw hl
  dsimp only
  obtain ⟨hphase, -⟩ := runs_of_cardLive hl
  refine ⟨fun hp hv => ?detect, exec_cardDetect_of_present, fun hw => ?powerTimeout, exec_cardPowerTimeout_of_not,
    fun hw t ht => ⟨fun hf hta => ?noTa1, fun v hf hta hs hok hn => ?asksPps, fun r hf hret => ?badTwice, fun r hf hret => ?badOnce⟩,
    fun hw => ⟨⟨_, rfl⟩, fun hret => ?silentTwice, fun hret => ?silentOnce⟩,
    fun hw => ⟨?echoed, fun hn => ?notEchoed, fun hn => ?neverEchoed⟩,
    fun hw hk => ⟨fun hlo hhi => ?newIfsc, fun hs hc => ?ifsAgreed, fun ha i hi => ?missing⟩,
    fun hw hr => ⟨fun hsw hc => ?selected, fun hsw => ?statusWord⟩,
    fun _ ht => exec_holderRecheck_waits (.inl ht), fun _ hd => exec_holderRecheck_waits (.inr hd),
    fun hst ht hd => ⟨fun hwant => ⟨fun u hu => ?challenged, fun hf => ?queued⟩, fun hwant => ?unwanted⟩,
    fun k x hst hsh hrun hel hx => ?share, exec_shareGiven_of_noShare, fun hp hv => ?removed, fun hv => ?outOfRange, fun hv => ?inRange,
    exec_vcardIoInRange_of_inRange⟩
  case detect =>
    refine ⟨_, exec_cardDetect_powers hl hp hv, card_activate_same _ _ _, ?_⟩
    obtain ⟨q, e⟩ := cusFrame_of_onlyPorts (onlyPorts_activate (periphPort (cusEvent s 1)) port.val false)
    rw [e]
    exact ⟨rfl, rfl⟩
  case powerTimeout => exact ⟨_, exec_cardPowerTimeout_of_waits hl hw, card_cardError_same s port.val 11⟩
  case noTa1 =>
    rw [exec_cardAtr_sendsIfs hl hw hf hta] at ht
    cases ht
    exact ⟨by simp, by simp, cardSent_sendIfs (updCard s port.val _) port.val⟩
  case asksPps =>
    obtain ⟨u, e, hpps⟩ := exec_cardAtr_asksPps hl hw hf hta hs hok hn
    rw [e] at ht
    cases ht
    exact hpps
  case badTwice =>
    rw [exec_cardAtr_of_fault hl hw hf] at ht
    cases ht
    exact badAtr_refuses hret r
  case badOnce =>
    rw [exec_cardAtr_of_fault hl hw hf] at ht
    cases ht
    exact card_badAtr_of_first hret r
  case silentTwice => exact ⟨_, exec_cardAtrTimeout_of_waits hl hw, badAtr_refuses hret 1⟩
  case silentOnce => exact ⟨_, exec_cardAtrTimeout_of_waits hl hw, card_badAtr_of_first hret 1⟩
  case echoed => exact ⟨_, exec_cardPpsResponse_of_waits hl hw true, by simp [gotPps], by simp [gotPps],
    cardSent_sendIfs (updCard s port.val _) port.val⟩
  case notEchoed =>
    refine ⟨_, exec_cardPpsResponse_of_waits hl hw false, ?_⟩
    rw [gotPps, if_neg Bool.false_ne_true, if_neg (by simpa using hn)]
    exact card_activate_same s port.val true
  case neverEchoed =>
    refine ⟨_, exec_cardPpsResponse_of_waits hl hw false, ?_⟩
    rw [gotPps, if_neg Bool.false_ne_true, if_pos hn, card_cardError_same]
    exact ⟨rfl, rfl⟩
  case newIfsc =>
    refine ⟨_, exec_cardBlockReceived_ifsRequest hl hw hk size, ?_⟩
    rw [gotIfs_answers hlo hhi, card_sendCard, card_updCard_same]
    exact ⟨rfl, rfl⟩
  case ifsAgreed =>
    subst hs
    exact ⟨_, exec_cardBlockReceived_ifsResponse hl hw hk, selectApplet_spec hc⟩
  case missing =>
    have hs := cardSent_sendR_error (updCard s port.val fun q => { q with attempts := q.attempts + 1, wtx := 0 }) port.val
    rw [card_updCard_same] at hs
    refine ⟨_, (exec_missingBlock hl hw hk hi).trans (by rw [badBlock_asksAgain ha]), ?_, hs⟩
    rw [sendR, card_sendCard, card_updCard_same]
  case selected =>
    subst hsw
    refine ⟨_, exec_cardApduResponse_selected hl hw hr data, ?_, cardSent_sendApdu (Nat.le_trans (by decide) hc)⟩
    rw [card_sendApdu_same]
    rfl
  case statusWord => exact ⟨_, exec_cardApduResponse_refused hl hw hr data hsw, cardRefused_refuseCard s port.val 8⟩
  case challenged =>
    refine ⟨authenticate u port.val, ?_, ?_⟩
    · rw [exec_holderRecheck_of_due hl hst ht hd, if_pos hwant, reserveOp_done _ hu]
    · obtain ⟨c, rfl⟩ := cup_of_opsDone hu
      exact card_authenticate _ port.val
  case queued =>
    exact ⟨_, (exec_holderRecheck_of_due hl hst ht hd).trans (by rw [if_pos hwant]), reserveOp_fresh _ hf⟩
  case unwanted =>
    refine ⟨park s port.val .ready, ?_, ?_⟩
    · rw [exec_holderRecheck_of_due hl hst ht hd, if_neg (by simp [hwant])]
    · rw [park, card_updCard_same]
  case share => exact ⟨_, exec_shareGiven_joins hl hst hsh hrun hel hx, shareJoined_spec hx _⟩
  case removed =>
    refine ⟨_, exec_cardRemoved_empties hl hp hv, card_setCard_same _ port.val {}, ?_⟩
    exact congrArg Custodians.event (cus_deactivate (periphPort (cusEvent s 2)) port.val)
  case outOfRange =>
    refine ⟨_, exec_vcardIoOutOfRange_of_inRange hphase hv, ?_, fun k hk hst => ?_⟩
    · rw [pwr_of_onlyPorts (onlyPorts_foldl onlyPorts_leaveRange _ _)]
      rfl
    · rw [card_foldl card_leaveRange_same card_leaveRange_ne List.nodup_range, if_pos (List.mem_range.2 hk)]
      change (outOfRangePort (card s k)).state = _ ∧ (outOfRangePort (card s k)).reason = _
      rw [outOfRangePort, if_neg hst]
      exact ⟨rfl, rfl⟩
  case inRange =>
    refine ⟨_, exec_vcardIoInRange_of_outOfRange hv, ?_, fun k hk hst hre => ?_⟩
    · rw [pwr_of_onlyPorts (onlyPorts_foldl onlyPorts_enterRange _ _)]
      rfl
    · rw [card_foldl card_enterRange_same card_enterRange_ne List.nodup_range, if_pos (List.mem_range.2 hk)]
      change (inRangePort (card s k)).state = _
      rw [inRangePort, if_pos ⟨hst, hre⟩]
      split <;> rfl

end Sys2Proof.Machine

/-!
PROOFS. Archive media (R342, R347 to R350) and the windows of ceremonies and set commands (R332, R340): the rules of an archive
port's operations, what the end of a write or of a set command leaves.
-/
namespace Sys2Proof.Machine

/-! ### The ceremony that a reference names (R339, R340) -/

theorem nth_of_cerOf {s : State} {ref k : Nat} {x : Ceremony} (h : cerOf s ref = some (k, x)) : nth none s.cus.cer k = some x := by
  obtain ⟨i, -, hi⟩ := List.exists_of_findSome?_eq_some h
  split at hi
  next y hy =>
    split at hi
    · cases hi
      exact hy
    · exact nomatch hi
  next => exact nomatch hi

theorem onlyEnds_dropCer (s : State) (ref : Nat) : onlyEnds s (dropCer s ref) := by
  unfold dropCer
  split
  next k x h =>
    split
    · exact onlyEnds_endCeremony s k
    · exact onlyEnds_refl s
  next => exact onlyEnds_refl s

/-- The lines below those of the ceremonies stay. -/
theorem lines_dropCer (s : State) (ref : Nat) {l : Nat} (hl : l < 24) :
    (dropCer s ref).srm.lines.get [] l = s.srm.lines.get [] l := by
  unfold dropCer
  split
  next k x h =>
    split
    · rw [lines_endCeremony (nth_of_cerOf h), if_neg (by omega)]
    · rfl
  next => rfl

theorem dropCer_of_none {s : State} {ref : Nat} (h : cerOf s ref = none) : dropCer s ref = s := by rw [dropCer, h]

/-! ### The end of a set command (R331, R332) -/

theorem onlyPorts_giveUp (s : State) (n : Nat) : onlyPorts s (giveUp s n) := by
  unfold giveUp
  dsimp only
  split
  · exact onlyPorts_refl s
  · split
    · exact ⟨_, _, rfl⟩
    · exact onlyPorts_refl s

/-- The set command has given up its cards' APDUs, and its key is erased. -/
def runErased (s : State) : State :=
  let ports := (s.cus.run.map (·.ports)).getD 0
  let s := (List.range 16).foldl (fun s n => if ports.getLsbD n then giveUp s n else s) s
  updSrm (updCus (dropShares s 23) fun u => { u with run := none }) fun r => { r with lines := r.lines.put [] 23 [] }

theorem closeRun_some (s : State) (c : AdminCmd) : closeRun s (some c) = dropCer (runErased s) (c.p 16 4) := rfl

/-- No set command runs, its key is gone, and the installed set is as it was. -/
theorem runErased_spec (s : State) :
    let t := runErased s
    t.cus.run = none ∧ t.srm.lines.get [] 23 = [] ∧ t.cus.installed = s.cus.installed ∧ t.cus.commit = s.cus.commit := by
  have hgive : ∀ b : BitVec 16, onlyPorts s ((List.range 16).foldl (fun s n => if b.getLsbD n then giveUp s n else s) s) := fun b =>
    onlyPorts_foldl (fun t n => by
      split
      · exact onlyPorts_giveUp t n
      · exact onlyPorts_refl t) _ s
  obtain ⟨p, o, e⟩ := hgive ((s.cus.run.map (·.ports)).getD 0)
  dsimp only
  rw [runErased, e]
  exact ⟨rfl, Tab.get_put_same [] s.srm.lines 23 [], rfl, rfl⟩

theorem closeRun_spec (s : State) (c : AdminCmd) :
    let t := closeRun s (some c)
    t.cus.run = none ∧ t.srm.lines.get [] 23 = [] ∧ t.cus.installed = s.cus.installed ∧ t.cus.commit = s.cus.commit := by
  obtain ⟨hrun, hline, hinst, hcom⟩ := runErased_spec s
  have hends := onlyEnds_dropCer (runErased s) (c.p 16 4)
  dsimp only
  rw [closeRun_some, run_of_onlyEnds hends, lines_dropCer _ _ (by decide), installed_of_onlyEnds hends, commit_of_onlyEnds hends]
  exact ⟨hrun, hline, hinst, hcom⟩

/-! ### Windows (R332, R340) -/

section
variable {s : State} {k : Fin 8}

theorem exec_ceremonyWindowExpiry_of_none (h : nth none s.cus.cer k.val = none) : exec (.ceremonyWindowExpiry k) s = .next s := by
  change execCeremonyWindowExpiry k s = _
  rw [execCeremonyWindowExpiry, h]

theorem exec_ceremonyWindowExpiry_ends {x : Ceremony} (h : nth none s.cus.cer k.val = some x) (hw : s.gen.windowDone = true)
    (hd : x.deadline ≤ tick s) (hc : citing s x.ref = none) : exec (.ceremonyWindowExpiry k) s = .next (endCeremony s k.val) := by
  have hdue : decide (tick s < x.deadline) = false := decide_eq_false (Nat.not_lt.2 hd)
  change execCeremonyWindowExpiry k s = _
  rw [execCeremonyWindowExpiry, h]
  dsimp only
  rw [if_neg (by simp [hdue, hw]), hc]

theorem exec_setCreateWindowExpiry_of_none (h : s.cus.run = none) : exec .setCreateWindowExpiry s = .next s := by
  change execSetCreateWindowExpiry s = _
  rw [execSetCreateWindowExpiry, h]

theorem exec_setCreateWindowExpiry_fails {r : SetRun} {c : AdminCmd} (h : s.cus.run = some r) (hw : s.gen.windowDone = true)
    (hd : r.deadline ≤ tick s) (hc : setCmd s r = some c) :
    exec .setCreateWindowExpiry s = .next (fails (closeRun s (some c)) c .notAuthorised) := by
  change execSetCreateWindowExpiry s = _
  rw [execSetCreateWindowExpiry, h]
  dsimp only
  rw [if_pos (by simp [hd, hw]), failRun, hc]

end

/-! ### Reading an archive port -/

@[simp] theorem arcAt_setArcPort_same (s : State) (n : Nat) (p : ArcPort) : arcAt (setArcPort s n p) n = p :=
  Tab.get_put_same ({} : ArcPort) s.arc.ports n p

theorem arcAt_setArcPort_ne (s : State) {n m : Nat} (h : m ≠ n) (p : ArcPort) : arcAt (setArcPort s n p) m = arcAt s m :=
  Tab.get_put_ne ({} : ArcPort) s.arc.ports h p

@[simp] theorem arcAt_updArcPort_same (s : State) (n : Nat) (f : ArcPort → ArcPort) : arcAt (updArcPort s n f) n = f (arcAt s n) :=
  Tab.get_put_same ({} : ArcPort) s.arc.ports n _

theorem arcAt_updArcPort_ne (s : State) {n m : Nat} (h : m ≠ n) (f : ArcPort → ArcPort) : arcAt (updArcPort s n f) m = arcAt s m :=
  Tab.get_put_ne ({} : ArcPort) s.arc.ports h _

theorem arcAt_of_arc {s t : State} (h : t.arc = s.arc) (n : Nat) : arcAt t n = arcAt s n := by rw [arcAt, h, arcAt]

/-! ### Records and CMD27 on their way to the card (R347, R348) -/

theorem emitRecord_frame (s : State) : ∃ o, emitRecord s = { s with out := o } := by
  unfold emitRecord
  split
  · dsimp only
    split
    · exact ⟨s.out, rfl⟩
    · split <;> exact ⟨_, rfl⟩
  · exact ⟨s.out, rfl⟩

@[simp] theorem arc_emitRecord (s : State) : (emitRecord s).arc = s.arc := by
  obtain ⟨o, e⟩ := emitRecord_frame s
  rw [e]

section
variable {s : State} {w : ArcWrite} (hw : s.arc.write = some w) (hc : w.waitCard = false) (hp : writable (arcAt s w.port) = true)
include hw hc hp

theorem out_emitRecord_of_record (h : w.protecting = false) :
    (emitRecord s).out.arc = s.out.arc ++ [(w.port, w.block, nth [] w.records 0)] := by
  have hport : s.arc.ports.get {} w.port = arcAt s w.port := rfl
  rw [emitRecord, hw]
  dsimp only
  rw [hport, if_neg (by simp [hc, hp]), if_neg (by simp [h])]
  rfl

theorem emitRecord_of_protecting (h : w.protecting = true) :
    emitRecord s = emitSd s w.port (readCsd (arcAt s w.port) ++ programCsd (arcAt s w.port) false true) := by
  have hport : s.arc.ports.get {} w.port = arcAt s w.port := rfl
  rw [emitRecord, hw]
  dsimp only
  rw [hport, if_neg (by simp [hc, hp]), if_pos h]

end

/-! ### The end of ARCHIVE_WRITE (R340, R347, R349) -/

/-- The write has left its port. -/
def arcWriteLeft (s : State) (w : ArcWrite) : State :=
  updArcPort (updArc s fun a => { a with write := none }) w.port fun p => if p.state == .busy then { p with state := .ready } else p

/-- Ceremonies without a use may end with the write. -/
theorem closeArcWrite_of_some {s : State} {w : ArcWrite} (h : s.arc.write = some w) :
    onlyEnds (arcWriteLeft s w) (closeArcWrite s) := by
  rw [closeArcWrite, h]
  refine onlyEnds_foldl (fun t k => ?_) _ _
  split
  · split
    · exact onlyEnds_endCeremony t k
    · exact onlyEnds_refl t
  · exact onlyEnds_refl t

section
variable {s : State} {w : ArcWrite} (h : s.arc.write = some w)
include h

theorem write_closeArcWrite : (closeArcWrite s).arc.write = none := by
  rw [arc_of_onlyEnds (closeArcWrite_of_some h)]
  rfl

theorem arcAt_closeArcWrite (hb : (arcAt s w.port).state = .busy) :
    arcAt (closeArcWrite s) w.port = { arcAt s w.port with state := .ready } := by
  have hbusy : ((arcAt s w.port).state == .busy) = true := by simp [hb]
  rw [arcAt_of_arc (arc_of_onlyEnds (closeArcWrite_of_some h)), arcWriteLeft, arcAt_updArcPort_same]
  exact if_pos hbusy

theorem queuePair_closeArcWrite {k gen : Nat} (hp : queuePair s k gen) : queuePair (closeArcWrite s) k gen :=
  queuePair_of_onlyEnds (closeArcWrite_of_some h) hp

end

theorem arc_completeAdmin (s : State) (c : AdminCmd) (st : Status) (detail n : Nat) (b : Bytes) :
    (completeAdmin s c st detail n b).arc = s.arc :=
  arc_of_onlyEnds (onlyEnds_of_onlyCompletes (onlyCompletes_completeAdmin s c st detail n b))

/-! ### The bank's level (R342) -/

theorem setV18_frame (s : State) (v : Bool) : ∃ x, setV18 s v = { s with arc := { s.arc with v18 := v, vselAt := x } } := by
  unfold setV18
  split
  next h => exact ⟨s.arc.vselAt, by rw [← h]⟩
  next => exact ⟨_, rfl⟩

/-- From `s` to `t` other archive ports than `n` have changed alone. -/
def keepsPort (n : Nat) (s t : State) : Prop := (∃ p, t = { s with arc := { s.arc with ports := p } }) ∧ arcAt t n = arcAt s n

theorem keepsPort_refl (n : Nat) (s : State) : keepsPort n s s := ⟨⟨s.arc.ports, rfl⟩, rfl⟩

theorem keepsPort_trans {n : Nat} {s t u : State} (h : keepsPort n s t) (k : keepsPort n t u) : keepsPort n s u := by
  obtain ⟨⟨p, rfl⟩, hn⟩ := h
  obtain ⟨⟨q, rfl⟩, hn'⟩ := k
  exact ⟨⟨q, rfl⟩, hn'.trans hn⟩

theorem write_of_keepsPort {n : Nat} {s t : State} (h : keepsPort n s t) : t.arc.write = s.arc.write := by
  obtain ⟨⟨p, rfl⟩, -⟩ := h
  rfl

/-- A card that 1.8 V left unused is initialised at 3.3 V. -/
def initAt33 (s : State) (n : Nat) : State :=
  if (arcAt s n).no18 then
    resumeArc (updArcPort s n fun p => { p with state := .ready, no18 := false, speed := if p.highSpeed then 1 else 0 }) n
  else s

/-- No write runs but at port `n`. -/
def onlyWriteAt (s : State) (n : Nat) : Prop := ∀ w, s.arc.write = some w → w.port = n

theorem onlyWriteAt_of_none {s : State} (h : s.arc.write = none) (n : Nat) : onlyWriteAt s n := fun _ hw =>
  absurd (h.symm.trans hw) nofun

theorem resumeArc_of_noWrite {s : State} (h : s.arc.write = none) (n : Nat) : resumeArc s n = s := by rw [resumeArc, h]

theorem resumeArc_of_otherPort {s : State} {n k : Nat} (h : onlyWriteAt s n) (hk : n ≠ k) : resumeArc s k = s := by
  cases hw : s.arc.write with
  | none => exact resumeArc_of_noWrite hw k
  | some w =>
    rw [resumeArc, hw]
    exact if_neg (by simp [h w hw, hk])

section
variable {n : Nat} {s : State} (hw : onlyWriteAt s n) (hn : (arcAt s n).no18 = false)
include hw hn

theorem keepsPort_initAt33 (k : Nat) : keepsPort n s (initAt33 s k) := by
  unfold initAt33
  split
  next h =>
    have hk : n ≠ k := fun e => by rw [e, h] at hn; exact nomatch hn
    have hres : ∀ f, resumeArc (updArcPort s k f) k = updArcPort s k f := fun f =>
      resumeArc_of_otherPort (n := n) hw hk
    rw [hres]
    exact ⟨⟨_, rfl⟩, arcAt_updArcPort_ne s hk _⟩
  next => exact keepsPort_refl n s

/-- The bank at rest: a port without a card for 1.8 V, and the write that waits at it, are as they were. -/
theorem keepsPort_bankIdle :
    keepsPort n (if (List.range 4).any fun k => arcActive (arcAt s k) then s else setV18 s false) (bankIdle s) := by
  unfold bankIdle
  split
  · exact keepsPort_refl n s
  · obtain ⟨x, e⟩ := setV18_frame s false
    refine List.foldlRecOn (motive := keepsPort n (setV18 s false)) _ _ (keepsPort_refl n _) fun t ht k _ =>
      keepsPort_trans ht (keepsPort_initAt33 (fun w h => hw w ?_) ?_ k)
    · rw [write_of_keepsPort ht, e] at h
      exact h
    · obtain ⟨-, hport⟩ := ht
      rw [hport, e]
      exact hn

theorem bankIdle_frame : ∃ p v x, bankIdle s = { s with arc := { s.arc with ports := p, v18 := v, vselAt := x } } := by
  obtain ⟨⟨p, e⟩, -⟩ := keepsPort_bankIdle hw hn
  split at e
  · exact ⟨p, _, _, e⟩
  · obtain ⟨x, e'⟩ := setV18_frame s false
    exact ⟨p, false, x, by rw [e, e']⟩

theorem arcAt_bankIdle : arcAt (bankIdle s) n = arcAt s n := by
  obtain ⟨-, e⟩ := keepsPort_bankIdle hw hn
  rw [e]
  split
  · rfl
  · obtain ⟨x, e'⟩ := setV18_frame s false
    rw [e']
    rfl

theorem v18_bankIdle : (bankIdle s).arc.v18 = (s.arc.v18 && (List.range 4).any fun k => arcActive (arcAt s k)) := by
  obtain ⟨⟨p, e⟩, -⟩ := keepsPort_bankIdle hw hn
  rw [e]
  split
  next h => rw [h, Bool.and_true]
  next h =>
    obtain ⟨x, e'⟩ := setV18_frame s false
    rw [e', Bool.eq_false_iff.2 h, Bool.and_false]

end

/-- With its own port empty, a card's bank is active when another card is. -/
theorem any_arcActive_setArcPort (s : State) (n : Nat) :
    ((List.range 4).any fun k => arcActive (arcAt (setArcPort s n {}) k)) = othersActive s n := by
  unfold othersActive
  congr 1
  funext k
  by_cases hk : k = n
  · subst hk
    rw [arcAt_setArcPort_same]
    simp [arcActive]
  · rw [arcAt_setArcPort_ne s hk]
    simp [hk]

/-! ### Cards of the archive ports come and go (R341, R342, R349) -/

/-- Initialisation of the card raises the bank to 1.8 V, or finds it there (R342). -/
def raises18 (s : State) (n : Nat) (sd : SdCard) : Bool := sd.s18a && (s.arc.v18 || s.arc.uhsEn && !othersActive s n)

/-- The commands of the card's initialisation have left. -/
def initSent (s : State) (n : Nat) (sd : SdCard) : State :=
  emitSd s n (initFrames sd (s.arc.v18 || s.arc.uhsEn && !othersActive s n) (raises18 s n sd))

section
variable {s : State} {port : Fin 4}

theorem exec_arcCardDetect_of_notEmpty (sd : SdCard) (h : (arcAt s port.val).state ≠ .empty) :
    exec (.arcCardDetect port sd) s = .next s := by
  change execArcCardDetect port sd s = _
  dsimp only [execArcCardDetect]
  rw [if_pos (by simp [h])]

section
variable {sd : SdCard} (hl : arcLive s port.val = true) (he : (arcAt s port.val).state = .empty)
include hl he

theorem exec_arcCardDetect_of_empty : exec (.arcCardDetect port sd) s = .next (
    let t := initSent s port.val sd
    if !sd.responds then setArcPort t port.val { state := .error, reason := 1 }
    else if !sd.crcOk then setArcPort t port.val { state := .error, reason := 2 }
    else if raises18 s port.val sd && !sd.switchOk then setArcPort t port.val { state := .error, reason := 5 }
    else if s.arc.v18 && !raises18 s port.val sd then
      setArcPort t port.val { initSd sd false with state := .init, no18 := true }
    else resumeArc (setArcPort (setV18 t (raises18 s port.val sd)) port.val (initSd sd (raises18 s port.val sd))) port.val) := by
  change execArcCardDetect port sd s = _
  dsimp only [execArcCardDetect]
  rw [if_neg (by simp [hl, he])]
  rfl

/-- A card that does not answer, fails a CRC or the switch to 1.8 V is in ERROR with the reason (R350). -/
theorem exec_arcCardDetect_fails
    (h : sd.responds = false ∨ sd.crcOk = false ∨ raises18 s port.val sd = true ∧ sd.switchOk = false) :
    exec (.arcCardDetect port sd) s = .next (setArcPort (initSent s port.val sd) port.val
      { state := .error, reason := if !sd.responds then 1 else if !sd.crcOk then 2 else 5 }) := by
  rw [exec_arcCardDetect_of_empty hl he]
  dsimp only
  cases hr : sd.responds with
  | false => rfl
  | true =>
    cases hc : sd.crcOk with
    | false => rfl
    | true =>
      obtain ⟨hup, hsw⟩ := (h.resolve_left (by simp [hr])).resolve_left (by simp [hc])
      rw [hup, hsw]
      rfl

section
variable (hr : sd.responds = true) (hc : sd.crcOk = true)
include hr hc

/-- A good card is initialised at the bank's level. -/
theorem exec_arcCardDetect_inits (hw : s.arc.write = none) (hv : s.arc.v18 = false) (hs : sd.switchOk = true) :
    exec (.arcCardDetect port sd) s = .next (setArcPort (setV18 (initSent s port.val sd) (raises18 s port.val sd)) port.val
      (initSd sd (raises18 s port.val sd))) := by
  rw [exec_arcCardDetect_of_empty hl he]
  dsimp only
  rw [if_neg (by simp [hr]), if_neg (by simp [hc]), if_neg (by simp [hs]), if_neg (by simp [hv])]
  have hnone : (setV18 (initSent s port.val sd) (raises18 s port.val sd)).arc.write = none := by
    obtain ⟨x, e⟩ := setV18_frame (initSent s port.val sd) (raises18 s port.val sd)
    rw [e]
    exact hw
  exact congrArg Host.Outcome.next (resumeArc_of_noWrite (s := setArcPort _ _ _) hnone _)

/-- A card without 1.8 V stays unused while the bank is at 1.8 V. -/
theorem exec_arcCardDetect_leavesUnused (hv : s.arc.v18 = true) (hs : sd.s18a = false) :
    exec (.arcCardDetect port sd) s =
      .next (setArcPort (initSent s port.val sd) port.val { initSd sd false with state := .init, no18 := true }) := by
  have hup : raises18 s port.val sd = false := by rw [raises18, hs, Bool.false_and]
  rw [exec_arcCardDetect_of_empty hl he]
  dsimp only
  rw [if_neg (by simp [hr]), if_neg (by simp [hc]), if_neg (by simp [hup]), if_pos (by simp [hv, hup])]

end

end

theorem exec_arcCardRemoved_of_empty (h : (arcAt s port.val).state = .empty) : exec (.arcCardRemoved port) s = .next s := by
  change execArcCardRemoved port s = _
  dsimp only [execArcCardRemoved]
  rw [if_pos (by simp [h])]

section
variable (he : (arcAt s port.val).state ≠ .empty) (hd : (arcAt s port.val).state ≠ .disabled)
include he hd

/-- A card without a write leaves its port empty. -/
theorem exec_arcCardRemoved_of_noWrite (hw : s.arc.write = none) :
    exec (.arcCardRemoved port) s = .next (bankIdle (setArcPort s port.val {})) := by
  have hw' : (setArcPort s port.val {}).arc.write = none := hw
  change execArcCardRemoved port s = _
  dsimp only [execArcCardRemoved]
  rw [if_neg (by simp [he, hd]), hw', if_neg (by simp)]

/-- A write waits for its card (R349). -/
theorem exec_arcCardRemoved_of_write {w : ArcWrite} (hw : s.arc.write = some w) (hp : w.port = port.val) (hc : w.waitCard = false) :
    exec (.arcCardRemoved port) s = .next (bankIdle (updArc (setArcPort s port.val {}) fun a => { a with
      write := some { w with block := if w.protecting then w.block else w.block + 1, attempts := 0, waitCard := true } })) := by
  have hw' : (setArcPort s port.val {}).arc.write = some w := hw
  change execArcCardRemoved port s = _
  dsimp only [execArcCardRemoved]
  rw [if_neg (by simp [he, hd]), hw', if_pos (by simp [hp, hc]), arcNotWritten, hw']
  rfl

end

end

/-! ### Records of a running write (R347 to R349) -/

theorem exec_arc_of_noWrite {s : State} (h : s.arc.write = none) :
    exec .arcRecordWritten s = .next s ∧ exec .arcBusyTimeout s = .next s := by
  constructor
  · change execArcRecordWritten s = _
    rw [execArcRecordWritten, h]
  · change execArcBusyTimeout s = _
    rw [execArcBusyTimeout, h]

/-- The running write is `w`. -/
def withWrite (s : State) (w : ArcWrite) : State := updArc s fun a => { a with write := some w }

section
variable {s : State} {w : ArcWrite} (hc : w.waitCard = false) (hp : writable (arcAt s w.port) = true)
include hc hp

theorem out_emitRecord_withWrite_of_record (h : w.protecting = false) :
    (emitRecord (withWrite s w)).out.arc = s.out.arc ++ [(w.port, w.block, nth [] w.records 0)] :=
  out_emitRecord_of_record (s := withWrite s w) rfl hc hp h

theorem out_emitRecord_withWrite_of_protecting (h : w.protecting = true) : (emitRecord (withWrite s w)).out.sd =
    s.out.sd ++ (readCsd (arcAt s w.port) ++ programCsd (arcAt s w.port) false true).map fun b => (w.port, b) := by
  rw [emitRecord_of_protecting (s := withWrite s w) rfl hc hp h]
  rfl

end

section
variable {s : State} {w : ArcWrite} (hw : s.arc.write = some w) (hc : w.waitCard = false) (hl : arcLive s w.port = true)
include hw hc hl

theorem exec_arcRecordWritten_next {r : Bytes} {rs : List Bytes} (hpr : w.protecting = false) (ht : w.records.tail = r :: rs) :
    exec .arcRecordWritten s = .next (emitRecord (withWrite s
      { w with records := r :: rs, seq := w.seq + 1, block := w.block + 1, attempts := 0 })) := by
  change execArcRecordWritten s = _
  rw [execArcRecordWritten, hw]
  dsimp only
  rw [if_neg (by simp [hc, hl]), if_neg (by simp [hpr]), ht]
  rfl

theorem exec_arcRecordWritten_last (hpr : w.protecting = false) (ht : w.records.tail = []) :
    exec .arcRecordWritten s = .next (emitRecord (withWrite s { w with records := [], protecting := true, attempts := 0 })) := by
  change execArcRecordWritten s = _
  rw [execArcRecordWritten, hw]
  dsimp only
  rw [if_neg (by simp [hc, hl]), if_neg (by simp [hpr]), ht]
  rfl

theorem exec_arcRecordWritten_closes {c : AdminCmd} (hpr : w.protecting = true) (hcmd : arcCmd s = some c) :
    exec .arcRecordWritten s =
      .next (doneWith (closeArcWrite (updArcPort s w.port fun p => { p with tmpWp := true })) c w.archiveId) := by
  change execArcRecordWritten s = _
  rw [execArcRecordWritten, hw]
  dsimp only
  rw [if_neg (by simp [hc, hl]), if_pos hpr, arcClosed, hcmd]

/-- A busy card gets the record in the next block (R349). -/
theorem exec_arcBusyTimeout_again (hpr : w.protecting = false) (ha : w.attempts < 2) :
    exec .arcBusyTimeout s = .next (emitRecord (withWrite (updArc s fun a => { a with rewrites := satInc31 a.rewrites })
      { w with block := w.block + 1, attempts := w.attempts + 1 })) := by
  have hn : arcNotWritten s false = emitRecord (withWrite (updArc s fun a => { a with rewrites := satInc31 a.rewrites })
      { w with block := w.block + 1, attempts := w.attempts + 1 }) := by
    rw [arcNotWritten, hw]
    dsimp only
    rw [if_neg Bool.false_ne_true, if_neg (by omega), hpr]
    rfl
  change execArcBusyTimeout s = _
  rw [execArcBusyTimeout, hw]
  dsimp only
  rw [if_neg (by simp [hc, hl]), hn, arc_emitRecord]
  exact congrArg Host.Outcome.next (if_neg Bool.false_ne_true)

/-- At the third failure the command ends, and the port is in ERROR. -/
theorem exec_arcBusyTimeout_ends {c : AdminCmd} (ha : 2 ≤ w.attempts) (hcmd : arcCmd s = some c) :
    exec .arcBusyTimeout s = .next (bankIdle (updArcPort (completeAdmin (closeArcWrite s) c .faultUnresolved (w.seq % 65536) 0 [])
      w.port fun p => { p with state := .error, reason := 3 })) := by
  have hn : arcNotWritten s false = completeAdmin (closeArcWrite s) c .faultUnresolved (w.seq % 65536) 0 [] := by
    rw [arcNotWritten, hw]
    dsimp only
    rw [if_neg Bool.false_ne_true, if_pos ha, hcmd]
  change execArcBusyTimeout s = _
  rw [execArcBusyTimeout, hw]
  dsimp only
  rw [if_neg (by simp [hc, hl]), hn, arc_completeAdmin, write_closeArcWrite hw]
  rfl

end

/-- What a completion left stands while nothing but the archive ports changes. -/
theorem answered_of_arc {s : State} {c : AdminCmd} {st : Status} {detail : Nat} {b : Bytes} (a : Archive)
    (h : answered s c st detail b) : answered { s with arc := a } c st detail b := h

theorem vselAt_setV18_of_low {s : State} (h : s.arc.v18 = false) (v : Bool) :
    (setV18 s v).arc.vselAt = if v then some (tick s) else s.arc.vselAt := by
  cases v with
  | false => rw [setV18, if_pos h, if_neg Bool.false_ne_true]
  | true =>
    rw [setV18, if_neg (by simp [h])]
    rfl

/-- What the third failure leaves: the command has failed, its port is in ERROR with reason 3, no write runs (R349, R350). -/
theorem arcWriteFailed_spec {s : State} {w : ArcWrite} {c : AdminCmd} (hw : s.arc.write = some w)
    (hb : (arcAt s w.port).state = .busy) (hn : (arcAt s w.port).no18 = false) (hq : queuePair s c.key c.sqGen) (hu : c.unread = false) :
    let t := bankIdle (updArcPort (completeAdmin (closeArcWrite s) c .faultUnresolved (w.seq % 65536) 0 []) w.port fun p =>
      { p with state := .error, reason := 3 })
    answered t c .faultUnresolved (w.seq % 65536) [] ∧ t.arc.write = none ∧ (arcAt t w.port).state = .error ∧
      (arcAt t w.port).reason = 3 := by
  have hans := answered_completeAdmin (queuePair_closeArcWrite hw hq) hu .faultUnresolved (w.seq % 65536) []
  generalize hv : completeAdmin (closeArcWrite s) c .faultUnresolved (w.seq % 65536) 0 [] = v at hans
  have harc : v.arc = (closeArcWrite s).arc := hv ▸ arc_completeAdmin _ _ _ _ _ _
  have hnone : v.arc.write = none := by rw [harc, write_closeArcWrite hw]
  have hport : arcAt v w.port = { arcAt s w.port with state := .ready } := (arcAt_of_arc harc _).trans (arcAt_closeArcWrite hw hb)
  generalize hx : updArcPort v w.port _ = x
  have herr : arcAt x w.port = { arcAt s w.port with state := .error, reason := 3 } := by
    rw [← hx, arcAt_updArcPort_same, hport]
  have hxw : x.arc.write = none := hx ▸ hnone
  have hxp := onlyWriteAt_of_none hxw w.port
  have hxn : (arcAt x w.port).no18 = false := by rw [herr]; exact hn
  have hidle := arcAt_bankIdle hxp hxn
  obtain ⟨p, l, y, e⟩ := bankIdle_frame hxp hxn
  dsimp only
  rw [hidle, herr, e]
  subst hx
  exact ⟨answered_of_arc _ hans, hnone, rfl, rfl⟩

/-- Settles O41: each clause is one branch of its step (`exec_…`); what then stands is said by the rules of the operations: the end
of a ceremony (`lines_endCeremony`), of a set command (`closeRun_spec`) and of a write (`closeArcWrite_of_some`), and the bank's
return to 3.3 V, which leaves the port in question alone (`keepsPort_bankIdle`). -/
theorem ceremonyWindowsAndArchiveMedia : Obligations.CeremonyWindowsAndArchiveMedia := by
  unfold Obligations.CeremonyWindowsAndArchiveMedia
  intro s k x run c port sd w
  dsimp only
  refine ⟨fun hx hd hdl hcit => ?ceremony, exec_ceremonyWindowExpiry_of_none, fun hrun hd hdl hcmd => ?setCommand,
    exec_setCreateWindowExpiry_of_none, fun hl he h => ?cardFails, fun hl he hw hv hr hc hs => ?cardInits,
    fun hl he hv hs hr hc => ?cardUnused, exec_arcCardDetect_of_notEmpty sd, fun hst hw => ?removed, exec_arcCardRemoved_of_empty,
    fun hw hp hc hb => ⟨?removedInWrite, fun hl hwr hn => ?writing⟩, exec_arc_of_noWrite⟩
  case ceremony =>
    refine ⟨_, exec_ceremonyWindowExpiry_ends hx hd hdl hcit, nth_cer_endCeremony hx, ?_, event_endCeremony hx,
      commit_of_onlyEnds (onlyEnds_endCeremony s k.val)⟩
    rw [lines_endCeremony hx, if_pos rfl]
  case setCommand => exact ⟨_, exec_setCreateWindowExpiry_fails hrun hd hdl hcmd, closeRun_spec s c⟩
  case cardFails => exact ⟨_, exec_arcCardDetect_fails hl he h, arcAt_setArcPort_same _ _ _, rfl, rfl⟩
  case cardInits =>
    have hup : raises18 s port.val sd = (sd.s18a && s.arc.uhsEn && !othersActive s port.val) := by
      rw [raises18, hv, Bool.false_or, Bool.and_assoc]
    refine ⟨_, exec_arcCardDetect_inits hl he hr hc hw hv hs, ?_⟩
    rw [← hup]
    refine ⟨?_, arcAt_setArcPort_same _ _ _, ?_, ?_⟩
    · obtain ⟨v, e⟩ := setV18_frame (initSent s port.val sd) (raises18 s port.val sd)
      rw [e]
      rfl
    · rw [arcAt_setArcPort_same]
      rfl
    · exact vselAt_setV18_of_low (s := initSent s port.val sd) hv _
  case cardUnused =>
    refine ⟨_, exec_arcCardDetect_leavesUnused hl he hr hc hv hs, ?_⟩
    rw [arcAt_setArcPort_same]
    exact ⟨rfl, rfl, hv⟩
  case removed =>
    have hw' : onlyWriteAt (setArcPort s port.val {}) port.val := onlyWriteAt_of_none hw port.val
    have hn : (arcAt (setArcPort s port.val {}) port.val).no18 = false := by rw [arcAt_setArcPort_same]
    refine ⟨_, exec_arcCardRemoved_of_noWrite (by simp [hst]) (by simp [hst]) hw, ?_, ?_⟩
    · rw [arcAt_bankIdle hw' hn, arcAt_setArcPort_same]
    · rw [v18_bankIdle hw' hn, any_arcActive_setArcPort]
      rfl
  case removedInWrite =>
    refine ⟨_, exec_arcCardRemoved_of_write (by simp [hb]) (by simp [hb]) hw hp hc, ?_⟩
    generalize ht : updArc (setArcPort s port.val {}) _ = t
    have hwt : onlyWriteAt t port.val := fun w' h => by
      subst ht
      cases h
      exact hp
    have hnt : (arcAt t port.val).no18 = false := by
      subst ht
      exact congrArg ArcPort.no18 (arcAt_setArcPort_same s port.val {})
    obtain ⟨p, v, y, e⟩ := bankIdle_frame hwt hnt
    rw [e]
    subst ht
    exact ⟨rfl, rfl⟩
  case writing =>
    rw [← hp] at hl hwr hn hb ⊢
    refine ⟨fun r rs hpr ht => ?next, fun hpr ht => ?last, fun hpr hcmd => ?closes, fun hpr ha => ?again, fun ha hcmd hq hu => ?ends⟩
    case next =>
      refine ⟨_, exec_arcRecordWritten_next hw hc hl hpr ht, ?_, out_emitRecord_withWrite_of_record hc hwr hpr⟩
      rw [arc_emitRecord]
      rfl
    case last =>
      refine ⟨_, exec_arcRecordWritten_last hw hc hl hpr ht, ?_, ?_⟩
      · rw [arc_emitRecord]
        rfl
      · exact out_emitRecord_withWrite_of_protecting hc hwr rfl
    case closes =>
      have hw' : (updArcPort s w.port fun p => { p with tmpWp := true }).arc.write = some w := hw
      refine ⟨_, exec_arcRecordWritten_closes hw hc hl hpr hcmd, ?_⟩
      rw [arcAt_closeArcWrite hw' (by rw [arcAt_updArcPort_same]; exact hb), arcAt_updArcPort_same]
      exact ⟨rfl, rfl, write_closeArcWrite hw'⟩
    case again =>
      refine ⟨_, exec_arcBusyTimeout_again hw hc hl hpr ha, ?_, ?_, out_emitRecord_withWrite_of_record hc hwr hpr⟩
      · rw [arc_emitRecord]
        rfl
      · rw [arc_emitRecord]
        exact toNat_satInc31 s.arc.rewrites
    case ends => exact ⟨_, exec_arcBusyTimeout_ends hw hc hl ha hcmd, arcWriteFailed_spec hw hb hn hq hu⟩

end Sys2Proof.Machine

/-!
PROOFS. The custodian and archive commands 0x30 to 0x37 (R332 to R340, R347, R352 to R355): what their shared steps leave as it
was, the branches of each row.
-/
namespace Sys2Proof.Machine

/-! ### What the rows share -/

section
variable {s : State} {g : Gallery} {q : QIndex} {op : Nat} {r : AdmRow} {c : AdminCmd} {i : Instr} {f : AdminCmd → State → State}

/-- Outside an inspection session a row whose command passes the shared checks runs (R340). -/
theorem exec_custodianRow (hs : s.lcs.session = false)
    (hi : exec i s = .next (runAdmin s g q op fun s c => noSession s c (f c))) (hrow : admRow op = some r) (hr : admRuns s g q op c) :
    exec i s = .next (f c s) :=
  exec_of_admRuns hi hrow hr (if_neg (by simp [hs]))

end

theorem mem_adm_of_admRuns {s : State} {g : Gallery} {q : QIndex} {op : Nat} {c : AdminCmd} (h : admRuns s g q op c) : c ∈ s.adm := by
  obtain ⟨hat, -⟩ := h
  exact (mem_adm_of_admAt hat).1

theorem drawMany_frame (s : State) (i n : Nat) : ∃ r, drawMany s i n = { s with rng := r } :=
  List.foldlRecOn (motive := fun t : State => ∃ r, t = { s with rng := r }) (List.range n) _ ⟨s.rng, rfl⟩ fun t ht _ _ => by
    obtain ⟨r, rfl⟩ := ht
    exact ⟨_, rfl⟩

/-! ### Uses of a ceremony (R339, R340) -/

theorem onlyEnds_useCer (s : State) (g ref purpose n : Nat) : onlyEnds s (useCer s g ref purpose n).2.2 := by
  unfold useCer
  split
  · exact onlyEnds_refl s
  · split
    · dsimp only
      split
      · exact onlyEnds_trans (onlyEnds_setCer s _) (onlyEnds_endCeremony _ _)
      · exact onlyEnds_setCer s _
    · exact onlyEnds_refl s

/-- A use by a command that runs on changes the ceremonies alone. -/
theorem useCerLong_frame (s : State) (cited : Bool) (g ref purpose n : Nat) :
    ∃ e, (useCerLong s cited g ref purpose n).2.2 = updCus s fun u => { u with cer := e } := by
  unfold useCerLong
  split
  · exact ⟨s.cus.cer, rfl⟩
  · split
    · exact ⟨s.cus.cer, rfl⟩
    · split
      · exact ⟨_, rfl⟩
      · exact ⟨s.cus.cer, rfl⟩

theorem arcLive_of_onlyEnds {s t : State} (h : onlyEnds s t) (n : Nat) : arcLive t n = arcLive s n := by
  obtain ⟨⟨p, e, v, l, a, q, rfl⟩, -⟩ := h
  rfl

/-! ### Cards that a command wakes (R329, R332, R337) -/

theorem cer_storeShare (s : State) (n : Nat) (r : SetRun) (i : Nat) : (storeShare s n r i).cus.cer = s.cus.cer := rfl

theorem cer_wantCard (s : State) (n : Nat) : (wantCard s n).cus.cer = s.cus.cer := by
  unfold wantCard
  dsimp only
  split
  · rfl
  · split
    · split
      · split <;> rfl
      · split
        · rfl
        · split <;>
            (split
             · rfl
             · exact cer_storeShare _ _ _ _)
    · split <;> rfl

theorem cer_wakeCards (s : State) (b : BitVec 16) : (wakeCards s b).cus.cer = s.cus.cer :=
  List.foldlRecOn (motive := fun t : State => t.cus.cer = s.cus.cer) (List.range 16) _ rfl fun t ht n _ => by
    dsimp only
    split
    · exact (cer_wantCard t n).trans ht
    · exact ht

theorem onlyPorts_restartCards (s : State) (b : BitVec 16) : onlyPorts s (restartCards s b) :=
  onlyPorts_foldl (fun t n => by
    split
    · exact onlyPorts_activate t n false
    · exact onlyPorts_refl t) _ s

/-! ### Ceremonies (R334 to R340) -/

section
variable {s : State} {g : Gallery} {q : QIndex} {c : AdminCmd} (hs : s.lcs.session = false)
include hs

section
variable (hr : admRuns s g q 0x30 c)
include hr

theorem exec_ceremonyOpen_badInput (hm : mayOpen c.gal (c.p 0 1) (c.p 1 1) = true) (hf : fieldOk (c.p 0 1) (c.p 1 1) = false) :
    exec (.ceremonyOpen g q) s = .next (fails s c .badInput) := by
  have e : exec (.ceremonyOpen g q) s = _ := exec_custodianRow hs rfl rfl hr
  dsimp only at e
  rw [e]
  split
  · rfl
  · rw [if_neg (by simp [hm]), if_pos (by simp [hf])]

theorem exec_ceremonyOpen_notAuthorised (hp : hasRange (c.p 0 1) 1 9 = true) (hm : mayOpen c.gal (c.p 0 1) (c.p 1 1) = false) :
    exec (.ceremonyOpen g q) s = .next (fails s c .notAuthorised) := by
  have e : exec (.ceremonyOpen g q) s = _ := exec_custodianRow hs rfl rfl hr
  dsimp only at e
  rw [e, if_neg (by simp [hp]), if_pos (by simp [hm])]

end

end

/-- A reference: the register index below, a free value above. -/
def ceremonyRef (s : State) (k : Nat) : Nat := 8 * (1 + fromLe (freeBytes s 4) % (2 ^ 29 - 1)) + k

theorem ceremonyRef_mod (s : State) {k : Nat} (h : k < 8) : ceremonyRef s k % 8 = k := by
  rw [ceremonyRef]
  omega

theorem ceremonyRef_lt (s : State) {k : Nat} (h : k < 8) : ceremonyRef s k < 2 ^ 32 := by
  have hmod : fromLe (freeBytes s 4) % (2 ^ 29 - 1) < 2 ^ 29 - 1 := Nat.mod_lt _ (by decide)
  rw [ceremonyRef]
  omega

/-- The ceremony that CEREMONY_OPEN puts into register `k` (R335, R336). -/
def openedCer (s : State) (c : AdminCmd) (k : Nat) : Ceremony :=
  { ref := BitVec.ofNat 32 (ceremonyRef s k), seq := c.seq, purpose := c.p 0 1, gallery := c.p 1 1, opener := c.gal
    ports := BitVec.ofNat 16 (c.p 2 2), uses := c.p 4 2, deadline := tick s + c.p 6 4 }

/-- The ceremony is in its register, its key in its Reliquary line, and the cards of its ports are woken. -/
def ceremonyOpened (s : State) (c : AdminCmd) (k : Nat) : State :=
  let t := updCus (bump (drawFrom s 2)) fun u => { u with cer := setNth u.cer k (some (openedCer s c k)) }
  wakeCards (updSrm t fun r => { r with lines := r.lines.put [] (24 + k) (sharedLine s 40 (freeBytesAt s 1 32)) })
    (openedCer s c k).ports

theorem cer_ceremonyOpened (s : State) (c : AdminCmd) (k : Nat) :
    (ceremonyOpened s c k).cus.cer = setNth s.cus.cer k (some (openedCer s c k)) := cer_wakeCards _ _

section
variable {s : State} {g : Gallery} {q : QIndex} {c : AdminCmd} (hs : s.lcs.session = false)
include hs

theorem exec_ceremonyOpen_opens (hr : admRuns s g q 0x30 c) {k : Nat} (hf : fieldOk (c.p 0 1) (c.p 1 1) = true)
    (hu : hasRange (c.p 4 2) 1 8191 = true) (hw : 1000000 ≤ c.p 6 4) (hm : mayOpen c.gal (c.p 0 1) (c.p 1 1) = true)
    (hset : setThere s = true) (hk : (List.range 8).find? (fun i => (nth none s.cus.cer i).isNone) = some k)
    (hd : drbgReady s 2 = true) :
    exec (.ceremonyOpen g q) s = .next (doneWith (ceremonyOpened s c k) c (le 4 (ceremonyRef s k))) := by
  have hp : hasRange (c.p 0 1) 1 9 = true := by
    simp only [fieldOk, Bool.and_eq_true] at hf
    obtain ⟨hp, -⟩ := hf
    exact hp
  have hwin : ¬c.p 6 4 < 1000000 := Nat.not_lt.2 hw
  have e : exec (.ceremonyOpen g q) s = _ := exec_custodianRow hs rfl rfl hr
  dsimp only at e
  rw [e, if_neg (by simp [hp]), if_neg (by simp [hm]), if_neg (by simp [hf, hu, hwin]), if_neg (by simp [hset]), hk]
  dsimp only
  rw [if_neg (by simp [hd])]
  rfl

theorem exec_ceremonyWait_of_some (hr : admRuns s g q 0x31 c) {k : Nat} {x : Ceremony} (h : cerOf s (c.p 0 4) = some (k, x)) :
    exec (.ceremonyWait g q) s = .next (if x.complete then done s c else keepRunning s c) := by
  have e : exec (.ceremonyWait g q) s = _ := exec_custodianRow hs rfl rfl hr
  rw [e, h]

theorem exec_ceremonyWait_of_none (hr : admRuns s g q 0x31 c) (h : cerOf s (c.p 0 4) = none) :
    exec (.ceremonyWait g q) s = .next (fails s c .notAuthorised) := by
  have e : exec (.ceremonyWait g q) s = _ := exec_custodianRow hs rfl rfl hr
  rw [e, h]

theorem exec_ceremonyClose_of_some (hr : admRuns s g q 0x32 c) {k : Nat} {x : Ceremony} (h : cerOf s (c.p 0 4) = some (k, x)) :
    exec (.ceremonyClose g q) s = .next (if x.opener = c.gal then done (closeCer s k x) c else fails s c .notAuthorised) := by
  have e : exec (.ceremonyClose g q) s = _ := exec_custodianRow hs rfl rfl hr
  rw [e, h]

theorem exec_ceremonyClose_of_none (hr : admRuns s g q 0x32 c) (h : cerOf s (c.p 0 4) = none) :
    exec (.ceremonyClose g q) s = .next (fails s c .notAuthorised) := by
  have e : exec (.ceremonyClose g q) s = _ := exec_custodianRow hs rfl rfl hr
  rw [e, h]

/-! ### Set commands (R332, R333) -/

theorem exec_setCommand (adopt : Bool) (point : Option Bytes) (hr : admRuns s g q (if adopt then 0x34 else 0x33) c) :
    exec (if adopt then .custodianSetAdopt g q point else .custodianSetCreate g q point) s =
      .next (setCommand s c adopt point) := by
  cases adopt with
  | false => exact exec_custodianRow (i := .custodianSetCreate g q point) (f := fun c s => setCommand s c false point) hs rfl rfl hr
  | true => exact exec_custodianRow (i := .custodianSetAdopt g q point) (f := fun c s => setCommand s c true point) hs rfl rfl hr

end

/-- The run of a set command under the custodian authority `pt`, its values enciphered under line 23 of `u` (R331). -/
def newSetRun (s u : State) (c : AdminCmd) (adopt : Bool) (pt : Bytes) : SetRun :=
  let coefs := (List.range (c.p 9 1 - 1)).map fun k => freeBytesAt s (3 + k) 32
  { adopt, sq := c.key, n := c.p 8 1, m := c.p 9 1, ports := BitVec.ofNat 16 (c.p 10 2), deadline := tick u + c.p 12 4, point := pt
    secret := if adopt then [] else lineCipher u 23 0 (freeBytesAt s 2 32)
    coefs := if adopt then [] else tabulate coefs.length fun k => lineCipher u 23 (17 + k) (nth [] coefs k) }

/-- The set command's fresh key stands in line 23. -/
def setKeyed (s : State) (c : AdminCmd) (adopt : Bool) : State :=
  updSrm (bump (drawMany s 2 (if adopt then 1 else c.p 9 1 + 1))) fun x =>
    { x with lines := x.lines.put [] 23 (sharedLine s 40 (freeBytesAt s 1 32)) }

/-- The set command runs, and the cards of its ports are authenticated again (R332). -/
def setStarted (s : State) (c : AdminCmd) (adopt : Bool) (pt : Bytes) : State :=
  let u := setKeyed s c adopt
  restartCards (keepRunning (updCus u fun x => { x with run := some (newSetRun s u c adopt pt) }) c) (BitVec.ofNat 16 (c.p 10 2))

theorem setStarted_spec {s : State} {c : AdminCmd} (hc : c ∈ s.adm) (adopt : Bool) (pt : Bytes) :
    let t := setStarted s c adopt pt
    carriesOn t c ∧ ∃ r, t.cus.run = some r ∧ r.n = c.p 8 1 ∧ r.m = c.p 9 1 ∧ r.adopt = adopt ∧
      r.ports = BitVec.ofNat 16 (c.p 10 2) ∧ r.deadline = tick s + c.p 12 4 ∧ r.point = pt ∧ r.stored = [] := by
  obtain ⟨x, hx⟩ := drawMany_frame s 2 (if adopt then 1 else c.p 9 1 + 1)
  have hu : ∃ m, setKeyed s c adopt = { s with rng := x, freeCtr := s.freeCtr + 1, srm := m } := by
    rw [setKeyed, hx]
    exact ⟨_, rfl⟩
  obtain ⟨m, hu⟩ := hu
  dsimp only
  rw [setStarted, hu]
  generalize hv : keepRunning _ c = v
  have hcar : carriesOn v c := by
    rw [← hv]
    exact carriesOn_keepRunning hc rfl rfl
  obtain ⟨p, o, e⟩ := onlyPorts_restartCards v (BitVec.ofNat 16 (c.p 10 2))
  rw [e]
  subst hv
  exact ⟨hcar, _, rfl, rfl, rfl, rfl, rfl, rfl, rfl, rfl⟩

section
variable {s : State} {c : AdminCmd} {adopt : Bool} {point : Option Bytes} (hrun : s.cus.run = none) (hd : drbgReady s 2 = true)
include hrun hd

theorem setCommand_badInput (h : c.p 9 1 < 2 ∨ c.p 8 1 < c.p 9 1 ∨ 16 < c.p 8 1) :
    setCommand s c adopt point = fails s c .badInput := by
  unfold setCommand
  dsimp only
  rw [if_neg (by simp [hrun, hd]), if_pos (by rcases h with h | h | h <;> simp [h])]

/-- A first set needs no ceremony; its command reads the custodian authority's point (R332, R334). -/
theorem setCommand_of_firstSet (hset : setThere s = false) (hlo : 2 ≤ c.p 9 1) (hmn : c.p 9 1 ≤ c.p 8 1) (hhi : c.p 8 1 ≤ 16)
    (href : c.p 16 4 = 0) (hcer : cerOf s 0 = none) :
    setCommand s c adopt point = point.elim (completeAdmin s c .dmaError 1 0 []) fun b =>
      if pointOk 2 (padTo 97 b) then setStarted s c adopt (padTo 97 b) else fails s c .badInput := by
  have hrange : ¬(decide (c.p 9 1 < 2) || decide (c.p 8 1 < c.p 9 1) || decide (16 < c.p 8 1) ||
      (!setThere s && decide (c.p 16 4 ≠ 0))) = true := by
    simp only [href, Bool.or_eq_true, Bool.and_eq_true, decide_eq_true_eq]
    omega
  unfold setCommand
  dsimp only
  rw [if_neg (by simp [hrun, hd]), if_neg hrange, hset, if_neg Bool.false_ne_true, href, dropCer_of_none hcer]
  cases point with
  | none => rfl
  | some b =>
    dsimp only [Option.elim]
    cases pointOk 2 (padTo 97 b) <;> rfl

end

/-! ### ARCHIVE_WRITE (R345 to R347) -/

theorem sumNat_eq_sum (l : List Nat) : sumNat l = l.sum := by rw [sumNat, List.sum_eq_foldl]

theorem length_arcRecords (s : State) (secret aid : Bytes) (g : Nat) : (arcRecords s secret aid g).length = arcLength s g := by
  simp only [arcRecords, arcLength, sumNat_eq_sum, List.length_append, List.length_cons, List.length_map, List.length_zip,
    List.length_flatMap, List.length_range, List.length_nil, Nat.min_self]

theorem arcLength_setCer (s : State) (e : List (Option Ceremony)) (g : Nat) :
    arcLength (updCus s fun u => { u with cer := e }) g = arcLength s g := rfl

/-- The media that ARCHIVE_WRITE of gallery `t` takes in port `n`. -/
def arcFits (s : State) (n t : Nat) : Bool :=
  arcLive s n && (arcAt s n).state == .ready && writable (arcAt s n) && decide (2 * arcLength s t ≤ (arcAt s n).blocks)

/-- The write that ARCHIVE_WRITE starts under the ceremony's secret. -/
def newArcWrite (s : State) (c : AdminCmd) (secret : Bytes) : ArcWrite :=
  { port := c.p 1 1, gal := c.gal, sq := c.sq, ref := BitVec.ofNat 32 (c.p 2 4)
    records := arcRecords s secret (freeBytesAt s 1 16) (c.p 0 1), cid := (arcAt s (c.p 1 1)).cid, archiveId := freeBytesAt s 1 16 }

/-- The write runs, its port is busy, and its header goes to the card (steps 1 and 2 of R347). -/
def archiveStarted (s : State) (c : AdminCmd) (w : ArcWrite) : State :=
  let t := updArc (bump (drawMany s 2 (arcLength s (c.p 0 1) - 1))) fun a => { a with write := some w }
  keepRunning (emitRecord (updArcPort t (c.p 1 1) fun p => { p with state := .busy })) c

theorem archiveStarted_spec {s : State} {c : AdminCmd} (hc : c ∈ s.adm) (secret : Bytes) (hp : writable (arcAt s (c.p 1 1)) = true) :
    let w := newArcWrite s c secret
    let t := archiveStarted s c w
    carriesOn t c ∧ t.arc.write = some w ∧ (arcAt t (c.p 1 1)).state = .busy ∧
      t.out.arc = s.out.arc ++ [(c.p 1 1, 0, nth [] w.records 0)] := by
  intro w t
  obtain ⟨x, hx⟩ := drawMany_frame s 2 (arcLength s (c.p 0 1) - 1)
  generalize hu : updArcPort (updArc (bump (drawMany s 2 (arcLength s (c.p 0 1) - 1))) fun a => { a with write := some w })
    (c.p 1 1) (fun p => { p with state := .busy }) = u
  have ht : t = keepRunning (emitRecord u) c := by rw [← hu]; rfl
  rw [hx] at hu
  have hport : arcAt u (c.p 1 1) = { arcAt s (c.p 1 1) with state := .busy } := by
    rw [← hu, arcAt_updArcPort_same]
    rfl
  have hwrite : u.arc.write = some w := by rw [← hu]; rfl
  have hout : (emitRecord u).out.arc = u.out.arc ++ [(c.p 1 1, 0, nth [] w.records 0)] :=
    out_emitRecord_of_record (w := w) hwrite rfl (by rw [show w.port = c.p 1 1 from rfl, hport]; exact hp) rfl
  obtain ⟨o, ho⟩ := emitRecord_frame u
  rw [ht]
  refine ⟨carriesOn_keepRunning ?_ rfl rfl, ?_, ?_, hout.trans ?_⟩
  · rw [ho, ← hu]
    exact hc
  · exact (congrArg Archive.write (arc_emitRecord u)).trans hwrite
  · exact congrArg ArcPort.state ((arcAt_of_arc (arc_emitRecord u) _).trans hport)
  · rw [← hu]
    rfl

section
variable {s : State} {g : Gallery} {q : QIndex} {c : AdminCmd} (hs : s.lcs.session = false)
include hs

/-- A write that no other command or pause holds back takes its use of the ceremony and looks at its card. -/
theorem exec_archiveWrite_of_use (hr : admRuns s g q 0x35 c) (huse : (useCerLong s c.cited c.gal (c.p 2 4) 3 (c.p 0 1)).1 = true)
    (hport : c.p 1 1 ≤ 3) (hact : (gal s (c.p 0 1)).state = .active) (hown : c.gal = 0 ∨ c.gal = c.p 0 1)
    (hturn : slotTurn s (c.p 0 1) c = true) (hw : s.arc.write = none) (ho : roomOpen s) :
    let u := (useCerLong s c.cited c.gal (c.p 2 4) 3 (c.p 0 1)).2
    exec (.archiveWrite g q) s = .next (
      if arcFits s (c.p 1 1) (c.p 0 1) = false then fails (dropCer u.2 (c.p 2 4)) c .badInput
      else if (gal s (c.p 0 1)).arcQuota < arcLength s (c.p 0 1) then fails (dropCer u.2 (c.p 2 4)) c .quota
      else archiveStarted u.2 c (newArcWrite u.2 c u.1)) := by
  obtain ⟨hd, hv, hpause⟩ := ho
  have e : exec (.archiveWrite g q) s = _ := exec_custodianRow hs rfl rfl hr
  have hown' : (decide (c.gal ≠ 0) && decide (c.gal ≠ c.p 0 1)) = false := by rcases hown with h | h <;> simp [h]
  obtain ⟨x, hx⟩ := useCerLong_frame s c.cited c.gal (c.p 2 4) 3 (c.p 0 1)
  have hfits : (!arcLive s (c.p 1 1) || (arcAt s (c.p 1 1)).state != .ready || !writable (arcAt s (c.p 1 1)) ||
      decide ((arcAt s (c.p 1 1)).blocks < 2 * arcLength s (c.p 0 1))) = !arcFits s (c.p 1 1) (c.p 0 1) := by
    rw [arcFits, Bool.not_and, Bool.not_and, Bool.not_and, ← decide_not, decide_eq_decide.2 Nat.not_le]
    rfl
  dsimp only at e ⊢
  rw [hown', if_neg Bool.false_ne_true, if_neg (by simp [hact]; omega), hw, if_neg (by simp), if_neg (by simp [hturn, hd]),
    if_neg (by simp [hv, hpause])] at e
  rcases hu : useCerLong s c.cited c.gal (c.p 2 4) 3 (c.p 0 1) with ⟨ok, secret, u⟩
  rw [hu] at huse hx e
  dsimp only at huse hx e ⊢
  subst huse hx
  rw [if_neg (by decide), arcLength_setCer] at e
  refine e.trans (congrArg Host.Outcome.next ?_)
  change (if (!arcLive s (c.p 1 1) || (arcAt s (c.p 1 1)).state != .ready || !writable (arcAt s (c.p 1 1)) ||
      decide ((arcAt s (c.p 1 1)).blocks < 2 * arcLength s (c.p 0 1))) = true then _ else _) = _
  rw [hfits]
  cases arcFits s (c.p 1 1) (c.p 0 1) <;> rfl

end

/-! ### ARCHIVE_SEAL and ARCHIVE_RESTORE (R352 to R355) -/

/-- The media that ARCHIVE_SEAL takes: a closed archive that nothing else protects. -/
def sealable (s : State) (n : Nat) (hdr trl : Bool) : Bool :=
  arcLive s n && (arcAt s n).state == .ready && (arcAt s n).tmpWp && !(arcAt s n).permWp && !(arcAt s n).switchWp && hdr && trl

theorem roomCmd_runs {s : State} (ho : roomOpen s) (c : AdminCmd) (f : State → State) : roomCmd s c f = f s := by
  obtain ⟨hd, hv, hp⟩ := ho
  rw [roomCmd, if_neg (by simp [drawsIv_of_ready hd]), if_neg (by simp [hv, hp])]

theorem exec_archiveSeal_of_use {s : State} {g : Gallery} {q : QIndex} {c : AdminCmd} (hs : s.lcs.session = false)
    (hr : admRuns s g q 0x36 c) (hport : c.p 0 1 ≤ 3) (hw : s.arc.write = none)
    (huse : (useCer s c.gal (c.p 1 4) 4 0).1 = true) (hdr trl : Bool) :
    let u := (useCer s c.gal (c.p 1 4) 4 0).2.2
    let p := arcAt s (c.p 0 1)
    exec (.archiveSeal g q hdr trl) s = .next (
      if sealable s (c.p 0 1) hdr trl = false then fails u c .badInput
      else done (updArcPort (emitSd u (c.p 0 1) (readCsd p ++ programCsd p true true)) (c.p 0 1) fun p =>
        { p with permWp := true }) c) := by
  have e : exec (.archiveSeal g q hdr trl) s = _ := exec_custodianRow hs rfl rfl hr
  have hends := onlyEnds_useCer s c.gal (c.p 1 4) 4 0
  have hseal : (!arcLive s (c.p 0 1) || (arcAt s (c.p 0 1)).state != .ready || !(arcAt s (c.p 0 1)).tmpWp ||
      (arcAt s (c.p 0 1)).permWp || (arcAt s (c.p 0 1)).switchWp || !hdr || !trl) = !sealable s (c.p 0 1) hdr trl := by
    simp [sealable, Bool.not_and, bne]
  dsimp only at e ⊢
  rw [if_neg (by omega), hw, if_neg (by simp)] at e
  rcases hu : useCer s c.gal (c.p 1 4) 4 0 with ⟨ok, secret, u⟩
  rw [hu] at huse hends e
  dsimp only at huse hends e ⊢
  subst huse
  rw [if_neg (by decide), arcLive_of_onlyEnds hends, arcAt_of_arc (arc_of_onlyEnds hends), hseal] at e
  rw [e]
  cases sealable s (c.p 0 1) hdr trl <;> rfl

/-- Settles O42: each clause is one branch of its row's checks, taken in their order (`exec_…`, `setCommand_…`), with what its last
branch leaves: an opened ceremony's register (`cer_ceremonyOpened`), a closed one's (`lines_endCeremony`), a set command that runs
(`setStarted_spec`), a write that runs (`archiveStarted_spec`), a card protected for good, or the archive that is restored at once
(entry 64). -/
theorem ceremonyAndArchiveCommands : Obligations.CeremonyAndArchiveCommands := by
  unfold Obligations.CeremonyAndArchiveCommands
  intro s g q c hs
  dsimp only
  refine ⟨fun k hr hf hu hw hm hset hlen hk hd => ?opens, fun hr hm hf => exec_ceremonyOpen_badInput hs hr hm hf,
    fun hr hp hm => exec_ceremonyOpen_notAuthorised hs hr hp hm, fun k x h => ⟨fun hr => exec_ceremonyWait_of_some hs hr h,
      fun hr hown hcit => ?closes, fun hr hown => ?closedByOther⟩,
    fun h => ⟨fun hr => exec_ceremonyWait_of_none hs hr h, fun hr => exec_ceremonyClose_of_none hs hr h⟩,
    fun adopt point hrun hd hset hcer hr => ⟨fun h => ?setBadInput, fun hlo hmn hhi href =>
      ⟨fun b hb => ?setPoint, fun hb => ?setNoPoint⟩⟩,
    fun hr huse hport hact hown hturn hw hd hv hpause => ⟨fun hok hq => ?writes, fun hok => ?writeRefused⟩,
    fun hr hport hw huse hdr trl => ⟨fun hok => ?seals, fun hok => ?sealRefused⟩,
    fun blocks hr hport hact hw hd hv hpause hl hst huse => ?restores⟩
  case opens =>
    have hk8 : k < 8 := List.mem_range.1 (List.mem_of_find?_eq_some hk)
    refine ⟨_, _, exec_ceremonyOpen_opens hs hr hf hu hw hm hset hk hd, ceremonyRef_mod s hk8, ceremonyRef_lt s hk8, ?_,
      fun i hi => ?_⟩
    · rw [cer_ceremonyOpened]
      exact nth_setNth_same none (by omega) _
    · rw [cer_ceremonyOpened, nth_setNth, if_neg fun h => hi h.1.symm]
  case closes =>
    have hx := nth_of_cerOf h
    refine ⟨endCeremony s k, ?_, nth_cer_endCeremony hx, by rw [lines_endCeremony hx, if_pos rfl]⟩
    rw [exec_ceremonyClose_of_some hs hr h, if_pos hown, closeCer, hcit, if_neg (by simp)]
  case closedByOther => rw [exec_ceremonyClose_of_some hs hr h, if_neg hown]
  case setBadInput => rw [exec_setCommand hs adopt point hr, setCommand_badInput hrun hd h]
  case setPoint =>
    subst hb
    refine ⟨_, exec_setCommand hs adopt (some b) hr, ?_⟩
    rw [setCommand_of_firstSet hrun hd hset hlo hmn hhi href hcer]
    dsimp only [Option.elim]
    split
    · exact setStarted_spec (mem_adm_of_admRuns hr) adopt (padTo 97 b)
    · rfl
  case setNoPoint =>
    subst hb
    rw [exec_setCommand hs adopt none hr, setCommand_of_firstSet hrun hd hset hlo hmn hhi href hcer]
    rfl
  case writes =>
    have hfit : arcFits s (c.p 1 1) (c.p 0 1) = true := hok
    have e := exec_archiveWrite_of_use hs hr huse hport hact hown hturn hw ⟨hd, hv, hpause⟩
    obtain ⟨x, hx⟩ := useCerLong_frame s c.cited c.gal (c.p 2 4) 3 (c.p 0 1)
    dsimp only at e
    rw [if_neg (by simp [hfit]), if_neg (by omega), hx] at e
    have hwr : writable (arcAt s (c.p 1 1)) = true := by
      simp only [arcFits, Bool.and_eq_true] at hfit
      obtain ⟨⟨-, hwr⟩, -⟩ := hfit
      exact hwr
    obtain ⟨hcar, hrun, hbusy, hout⟩ := archiveStarted_spec (s := updCus s fun u => { u with cer := x }) (c := c)
      (mem_adm_of_admRuns hr) (useCerLong s c.cited c.gal (c.p 2 4) 3 (c.p 0 1)).2.1 hwr
    refine ⟨_, _, e, hcar, hrun, rfl, ?_, rfl, rfl, hbusy, hout⟩
    exact length_arcRecords _ _ _ _
  case writeRefused =>
    have hfit : arcFits s (c.p 1 1) (c.p 0 1) = false := hok
    have e := exec_archiveWrite_of_use hs hr huse hport hact hown hturn hw ⟨hd, hv, hpause⟩
    obtain ⟨x, hx⟩ := useCerLong_frame s c.cited c.gal (c.p 2 4) 3 (c.p 0 1)
    dsimp only at e
    rw [if_pos hfit, hx] at e
    exact ⟨_, e, arc_of_onlyEnds (onlyEnds_dropCer _ _)⟩
  case seals =>
    have hseal : sealable s (c.p 0 1) hdr trl = true := hok
    have e := exec_archiveSeal_of_use hs hr hport hw huse hdr trl
    dsimp only at e
    rw [if_neg (by simp [hseal])] at e
    refine ⟨_, e, ?_⟩
    rw [arcAt_updArcPort_same]
    exact congrArg (fun p : ArcPort => { p with permWp := true })
      (arcAt_of_arc (arc_of_onlyEnds (onlyEnds_useCer s c.gal (c.p 1 4) 4 0)) (c.p 0 1))
  case sealRefused =>
    have hseal : sealable s (c.p 0 1) hdr trl = false := hok
    have e := exec_archiveSeal_of_use hs hr hport hw huse hdr trl
    dsimp only at e
    rw [if_pos hseal] at e
    exact ⟨_, e, arc_of_onlyEnds (onlyEnds_useCer s c.gal (c.p 1 4) 4 0)⟩
  case restores =>
    have e : exec (.archiveRestore g q blocks) s = _ := exec_custodianRow hs rfl rfl hr
    have hends := onlyEnds_useCer s c.gal (c.p 8 4) 5 (c.p 1 1)
    dsimp only at e
    rw [roomCmd_runs ⟨hd, hv, hpause⟩, if_neg (by simp [hact]; omega), hw, if_neg (by simp), if_neg (by simp [hd])] at e
    generalize useCer s c.gal (c.p 8 4) 5 (c.p 1 1) = u at e huse hends ⊢
    obtain ⟨ok, secret, t⟩ := u
    dsimp only at huse hends e ⊢
    rw [huse, if_neg (by decide), arcLive_of_onlyEnds hends, arcAt_of_arc (arc_of_onlyEnds hends), if_neg (by simp [hl, hst])] at e
    refine e.trans (congrArg Host.Outcome.next ?_)
    -- The command and the statement branch alike on what the reader and the checks answer, whatever these are.
    generalize findHeader 4 blocks = header
    generalize readArchive = read
    generalize checkArchive = check
    rfl

end Sys2Proof.Machine
